-- ==== Sys2Proof/Word.lean ====
section
/-! DEFINITION. The word types and the plainest things about them (00 R9). -/

namespace Sys2Proof

/-- 8 bits, the smallest addressable unit. -/
abbrev Byte := BitVec 8

/-- A lane register, an instruction word, a program counter: 32 bits. -/
abbrev Word := BitVec 32

/-- An s-register, a pair, a row reference: 64 bits. -/
abbrev DWord := BitVec 64

/-- A 16-byte key or queue entry. -/
abbrev QWord := BitVec 128

/-- Lanes per warp on this part: WARPW (00 R3). -/
abbrev warpw : Nat := 64

/-- The numbers of the lane slots of a warp, ascending. -/
abbrev laneIds : List Nat := List.range warpw

/-- The field of `w` that begins at bit `lo` and is `n` bits wide. -/
abbrev fld {m : Nat} (w : BitVec m) (lo n : Nat) : BitVec n := w.extractLsb' lo n

end Sys2Proof
end

