-- ==== Sys2Proof/Syntax.lean ====
section
/-! DEFINITION. The syntax: one constructor per row of spec/opcode_table.json. A slot word's constructor carries the
fields of its word (and of its X word) under the names the table gives them; a row without a word is a step of another
agent of the device, and its constructor names the thing the step is about. -/

namespace Sys2Proof

/-- An agent that can be found dead (24 R380), or a column at 120 degrees (R387). -/
inductive Agent where
  | computeDie (k : Nat)
  | stack (k : Nat)
  | hub (h : Nat)
  | remote (window : Nat)
  | column (die col : Nat)
  | replayEngine (die : Nat)
  deriving DecidableEq, Repr

/-- A part that a spare replaces (24 R385). -/
inductive Part where
  | column (die phys : Nat)
  | slice (die phys : Nat)
  | firnRow (die col row : Nat)
  | hbmRow (stack row : Nat)
  | perpelLane (port lane : Nat)
  | replayEngine (die : Nat)
  deriving DecidableEq, Repr

/-- What the patrol scrubber or an access finds in a line (24 R379). -/
inductive Flaw where
  | clean
  | corrected
  | uncorrectable
  deriving DecidableEq, Repr

/-- What the host's coherence protocol asks of a host-window line held in device L2 (20 R337). -/
inductive Snoop where
  | writeBack
  | downgrade
  | drop
  deriving DecidableEq, Repr

/-- An access that a remote device makes to device memory over Perpel (24 R388). -/
inductive Remote where
  | load (len : Nat)
  | store (bytes : List Byte)
  | amo (op : BitVec 4) (wide : Bool) (operand : DWord)
  | cas (wide : Bool) (expected new : DWord)
  deriving DecidableEq, Repr

/-- The codes of fault class INSN, in the order of 01 R34. -/
inductive InsnCode where
  | quad | pair | rep | slot | min | sub | xop | opnd | rsv
  deriving DecidableEq, Repr

/-- One constructor per row of spec/opcode_table.json. -/
inductive Instr where
  /-- R28: The all-zero slot word does nothing except occupy its issue cycle. -/
  | nop
  /-- R92: Writes a + b modulo 2^w to D in each lane of ISSUE. -/
  | iadd (u : BitVec 1) (t : BitVec 3) (d : BitVec 7) (a : BitVec 7) (b : BitVec 7)
  /-- R92: Writes a − b modulo 2^w to D. -/
  | isub (u : BitVec 1) (t : BitVec 3) (d : BitVec 7) (a : BitVec 7) (b : BitVec 7)
  /-- R94: Adds with the carry from f0 and writes the result and f0. -/
  | iaddc (u : BitVec 1) (t : BitVec 3) (d : BitVec 7) (a : BitVec 7) (b : BitVec 7)
  /-- R92: Writes the low w bits of a × b. -/
  | imul (u : BitVec 1) (t : BitVec 3) (d : BitVec 7) (a : BitVec 7) (b : BitVec 7)
  /-- R92: Writes the high w bits of the exact product a × b. -/
  | imulh (u : BitVec 1) (t : BitVec 3) (d : BitVec 7) (a : BitVec 7) (b : BitVec 7)
  /-- R92: Writes d + a × b, low w bits. -/
  | imad (u : BitVec 1) (t : BitVec 3) (d : BitVec 7) (a : BitVec 7) (b : BitVec 7)
  /-- R92: Writes the lesser of a and b, signed or unsigned by TY. -/
  | imin (u : BitVec 1) (t : BitVec 3) (d : BitVec 7) (a : BitVec 7) (b : BitVec 7)
  /-- R92: Writes the greater of a and b, signed or unsigned by TY. -/
  | imax (u : BitVec 1) (t : BitVec 3) (d : BitVec 7) (a : BitVec 7) (b : BitVec 7)
  /-- R92: Writes the absolute value of a. -/
  | iabs (t : BitVec 3) (d : BitVec 7) (a : BitVec 7)
  /-- R95: Sets a flag register from A − B. -/
  | icmp (u : BitVec 1) (t : BitVec 3) (f : BitVec 2) (a : BitVec 7) (b : BitVec 7)
  /-- R92: Writes a AND b. -/
  | andR (u : BitVec 1) (t : BitVec 3) (d : BitVec 7) (a : BitVec 7) (b : BitVec 7)
  /-- R92: Writes a OR b. -/
  | orR (u : BitVec 1) (t : BitVec 3) (d : BitVec 7) (a : BitVec 7) (b : BitVec 7)
  /-- R92: Writes a XOR b. -/
  | xorR (u : BitVec 1) (t : BitVec 3) (d : BitVec 7) (a : BitVec 7) (b : BitVec 7)
  /-- R92: Writes a AND NOT b. -/
  | andnR (u : BitVec 1) (t : BitVec 3) (d : BitVec 7) (a : BitVec 7) (b : BitVec 7)
  /-- R93: Shifts a left by the count from b. -/
  | shl (u : BitVec 1) (t : BitVec 3) (d : BitVec 7) (a : BitVec 7) (b : BitVec 7)
  /-- R93: Shifts a right, filling with zeros. -/
  | shr (u : BitVec 1) (t : BitVec 3) (d : BitVec 7) (a : BitVec 7) (b : BitVec 7)
  /-- R93: Shifts a right, filling with its sign bit. -/
  | sar (u : BitVec 1) (t : BitVec 3) (d : BitVec 7) (a : BitVec 7) (b : BitVec 7)
  /-- R93: Rotates a left by c mod w. -/
  | rot (u : BitVec 1) (t : BitVec 3) (d : BitVec 7) (a : BitVec 7) (b : BitVec 7)
  /-- R92: Writes the count of one bits of a. -/
  | popc (t : BitVec 3) (d : BitVec 7) (a : BitVec 7)
  /-- R92: Writes the count of leading zero bits of a. -/
  | clz (t : BitVec 3) (d : BitVec 7) (a : BitVec 7)
  /-- R92: Writes a with its bits reversed. -/
  | brev (t : BitVec 3) (d : BitVec 7) (a : BitVec 7)
  /-- R93: Extracts a bit field of a. -/
  | bfx (u : BitVec 1) (t : BitVec 3) (d : BitVec 7) (a : BitVec 7) (b : BitVec 7)
  /-- R93: Inserts the low bits of a into a field of d. -/
  | bfi (u : BitVec 1) (t : BitVec 3) (d : BitVec 7) (a : BitVec 7) (b : BitVec 7)
  /-- R96: Adds an 8-bit immediate. -/
  | iaddi (t : BitVec 3) (i : BitVec 8) (d : BitVec 7) (a : BitVec 7)
  /-- R96: ANDs with a sign-extended immediate. -/
  | andi (t : BitVec 3) (i : BitVec 8) (d : BitVec 7) (a : BitVec 7)
  /-- R96: ORs with a sign-extended immediate. -/
  | ori (t : BitVec 3) (i : BitVec 8) (d : BitVec 7) (a : BitVec 7)
  /-- R96: XORs with a sign-extended immediate. -/
  | xori (t : BitVec 3) (i : BitVec 8) (d : BitVec 7) (a : BitVec 7)
  /-- R96: Shifts left by an immediate count. -/
  | shli (t : BitVec 3) (i : BitVec 8) (d : BitVec 7) (a : BitVec 7)
  /-- R96: Shifts right logically by an immediate count. -/
  | shri (t : BitVec 3) (i : BitVec 8) (d : BitVec 7) (a : BitVec 7)
  /-- R96: Shifts right arithmetically by an immediate count. -/
  | sari (t : BitVec 3) (i : BitVec 8) (d : BitVec 7) (a : BitVec 7)
  /-- R96: Sets a flag register from A minus an immediate. -/
  | icmpi (t : BitVec 3) (i : BitVec 8) (f : BitVec 2) (a : BitVec 7)
  /-- R97: Writes a sign- or zero-extended immediate to D. -/
  | movi (s : BitVec 1) (i : BitVec 8) (d : BitVec 7)
  /-- R97: Copies a lane register, pair or s-register into D. -/
  | mov (x : BitVec 1) (y : BitVec 1) (d : BitVec 7) (a : BitVec 7)
  /-- R98: Selects A or B by Z of a flag register. -/
  | sel (u : BitVec 1) (f : BitVec 2) (d : BitVec 7) (a : BitVec 7) (b : BitVec 7)
  /-- R99: Copies a status register into D in each lane of ISSUE. -/
  | srd (n : BitVec 8) (d : BitVec 7)
  /-- R53: Reads bits [31:0] of the core cycle count and latches bits [63:32] into CYCH for the warp. -/
  | srdCyc (d : BitVec 7)
  /-- R99: Writes A into a status register that has no row of its own. -/
  | swr (n : BitVec 8) (a : BitVec 7)
  /-- R99: Writes SBCHK of WSTAT, which governs the stall-count check from the cycle it lands. -/
  | swrWstat (a : BitVec 7)
  /-- R195: Writes SLIM, clamped to the launch stack size. -/
  | swrSlim (a : BitVec 7)
  /-- R372: Writes TRAPPC in handler mode and marks it written since trap entry. -/
  | swrTrappc (a : BitVec 7)
  /-- R100: Writes an s-register from the lowest lane of ISSUE or from the lane mask of ISSUE. -/
  | v2s (m : BitVec 4) (d : BitVec 7) (a : BitVec 7)
  /-- R101: Computes once on two s-registers and writes an s-register. -/
  | salu (m : BitVec 4) (d : BitVec 7) (a : BitVec 7) (b : BitVec 7)
  /-- R102: Replaces one byte of an s-register with an immediate. -/
  | smovi (k : BitVec 3) (i : BitVec 8) (d : BitVec 7)
  /-- R190: Moves each fibre's window base by a signed number of 8-register steps. -/
  | regsWbase (i : BitVec 8)
  /-- R191: Queues a request for extended register blocks and parks the lanes, or refuses it at once. -/
  | regsXacq (i : BitVec 8)
  /-- R191: The oldest queued request is granted or refused once the pool has room, writing f0 and making the lanes live. -/
  | regsXacqGrant (core : Nat)
  /-- R193: Releases extended blocks from the top of the warp's space. -/
  | regsXrel (i : BitVec 8)
  /-- R194: Writes the pool state and the warp's block count to D. -/
  | regsXqry (d : BitVec 7)
  /-- R215: Starts a lane copy of 32 bytes per lane between a row and a local share, counted on cp0–cp3. -/
  | cpl (g : BitVec 2) (d : BitVec 7) (a : BitVec 7) (b : BitVec 7) (o : BitVec 4) (c : BitVec 7) (x : BitVec 16)
  /-- R215: A lane copy has made all its writes and is counted on its counter. -/
  | cplComplete (ctx op : Nat)
  /-- R219: Starts a bulk copy between a tile and consecutive rows of a dense table. -/
  | cpb (m : BitVec 4) (d : BitVec 7) (a : BitVec 7) (o : BitVec 4) (x : BitVec 16)
  /-- R219: A bulk copy completes and the tile becomes ready or empty. -/
  | cpbComplete (ctx op : Nat)
  /-- R210: Parks the lanes of ISSUE until the named counter is at most n. -/
  | waitc (c : BitVec 3) (n : BitVec 8)
  /-- R229: Pops one queue entry into D for each lane of ISSUE and writes f0. -/
  | qpop (q : BitVec 3) (w : BitVec 2) (d : BitVec 7)
  /-- R229: Pushes A of each lane of ISSUE to a queue. -/
  | qpush (q : BitVec 3) (w : BitVec 2) (a : BitVec 7)
  /-- R227: Stops any running stream program, then checks, loads and starts a new one. -/
  | spldLoad (a : BitVec 7)
  /-- R227: Lets no further stream operation start. -/
  | spldStop
  /-- R227: Writes the producer's state to D. -/
  | spldQry (d : BitVec 7)
  /-- R225: The producer slot starts its next stream operation once the target queue has room. -/
  | streamOperation (ctx : Nat)
  /-- R222: Starts a join of the compressed and uncompressed views of a table, counted on bk. -/
  | dfence (a : BitVec 7)
  /-- R222: Earlier writes to the table are joined at its L2 slices, so both views return them. -/
  | dfenceComplete (ctx op : Nat)
  /-- R103: Writes Round(A + B). -/
  | fadd (t : BitVec 2) (r : BitVec 2) (d : BitVec 7) (a : BitVec 7) (b : BitVec 7)
  /-- R103: Writes Round(A − B). -/
  | fsub (t : BitVec 2) (r : BitVec 2) (d : BitVec 7) (a : BitVec 7) (b : BitVec 7)
  /-- R103: Writes Round(A × B). -/
  | fmul (t : BitVec 2) (r : BitVec 2) (d : BitVec 7) (a : BitVec 7) (b : BitVec 7)
  /-- R103: Writes Round(A × B + D) with one rounding. -/
  | ffma (t : BitVec 2) (r : BitVec 2) (d : BitVec 7) (a : BitVec 7) (b : BitVec 7)
  /-- R104: Writes the lesser operand under the NaN mode. -/
  | fmin (t : BitVec 2) (n : BitVec 2) (d : BitVec 7) (a : BitVec 7) (b : BitVec 7)
  /-- R104: Writes the greater operand under the NaN mode. -/
  | fmax (t : BitVec 2) (n : BitVec 2) (d : BitVec 7) (a : BitVec 7) (b : BitVec 7)
  /-- R105: Compares A with B and writes a flag register. -/
  | fcmp (t : BitVec 2) (f : BitVec 2) (a : BitVec 7) (b : BitVec 7)
  /-- R106: Clears, inverts or copies sign bits. -/
  | fmod (t : BitVec 2) (o : BitVec 2) (d : BitVec 7) (a : BitVec 7) (b : BitVec 7)
  /-- R107: Rounds each element to an integral value. -/
  | frint (t : BitVec 2) (r : BitVec 2) (d : BitVec 7) (a : BitVec 7)
  /-- R108: Converts floats to integers with saturation. -/
  | f2i (t : BitVec 2) (r : BitVec 2) (d : BitVec 7) (a : BitVec 7) (k : BitVec 7)
  /-- R108: Converts integers to floats. -/
  | i2f (t : BitVec 2) (r : BitVec 2) (d : BitVec 7) (a : BitVec 7) (k : BitVec 7)
  /-- R109: Converts between floating-point formats, optionally saturating or rounding stochastically. -/
  | fcvt (v : BitVec 4) (d : BitVec 7) (a : BitVec 7) (r : BitVec 1) (s : BitVec 1) (p : BitVec 5)
  /-- R110: Computes a special function of A per element. -/
  | sfu (t : BitVec 2) (m : BitVec 2) (d : BitVec 7) (a : BitVec 7) (f : BitVec 7)
  /-- R112: Folds a sample into a Welford state. -/
  | welf (t : BitVec 2) (r : BitVec 2) (d : BitVec 7) (a : BitVec 7)
  /-- R113: Merges two Welford states. -/
  | wmrg (t : BitVec 2) (r : BitVec 2) (d : BitVec 7) (a : BitVec 7)
  /-- R296: Orders the lane's accesses at a scope, and performs an aperture join for alias fences. -/
  | fence (l : BitVec 1) (o : BitVec 2) (s : BitVec 3)
  /-- R115: Moves A from a source lane chosen per lane. -/
  | shfl (m : BitVec 2) (d : BitVec 7) (a : BitVec 7) (b : BitVec 7)
  /-- R115: Moves A from a source lane chosen by an immediate selector. -/
  | shfli (m : BitVec 2) (g : BitVec 8) (d : BitVec 7) (a : BitVec 7)
  /-- R116: Sends each lane's A to a target lane, optionally writing a collision mask. -/
  | shpush (c : BitVec 1) (n : BitVec 3) (d : BitVec 7) (a : BitVec 7) (b : BitVec 7)
  /-- R117: Evaluates a predicate over a member mask and writes flags, and for ballot an s-register. -/
  | vote (f : BitVec 2) (k : BitVec 2) (d : BitVec 7) (a : BitVec 7) (b : BitVec 7)
  /-- R118: Reduces the member lanes by a fixed tree and writes the result to every lane of ISSUE. -/
  | lred (o : BitVec 2) (t : BitVec 2) (d : BitVec 7) (a : BitVec 7) (b : BitVec 7)
  /-- R118: Writes the inclusive prefix of the member lanes. -/
  | lscan (o : BitVec 2) (t : BitVec 2) (d : BitVec 7) (a : BitVec 7) (b : BitVec 7)
  /-- R299: Performs an atomic read-modify-write per lane in ascending order, returning the old value. -/
  | amo (m : BitVec 4) (d : BitVec 7) (a : BitVec 7) (b : BitVec 7) (sc : BitVec 3) (ord : BitVec 2) (o : BitVec 4) (x : BitVec 16)
  /-- R301: Compares and swaps a word per lane atomically, returning the old value and a flag. -/
  | cas (m : BitVec 4) (d : BitVec 7) (a : BitVec 7) (b : BitVec 7) (sc : BitVec 3) (ord : BitVec 2) (f : BitVec 2) (x : BitVec 16)
  /-- R124: Sets the matrix-shape register. -/
  | mset (m : BitVec 3) (k : BitVec 3) (n : BitVec 3) (l : BitVec 2)
  /-- R125: Loads a matrix footprint from a row. -/
  | mld (f : BitVec 4) (d : BitVec 7) (a : BitVec 7) (b : BitVec 7)
  /-- R125: Stores a matrix footprint to a row. -/
  | mst (f : BitVec 4) (d : BitVec 7) (a : BitVec 7) (b : BitVec 7)
  /-- R126: Copies a matrix. -/
  | mmov (d : BitVec 7) (a : BitVec 7)
  /-- R126: Writes an identity matrix. -/
  | midn (d : BitVec 7)
  /-- R126: Writes the transpose of a matrix. -/
  | mtrn (d : BitVec 7) (a : BitVec 7)
  /-- R127: Adds, subtracts or scales matrices element by element. -/
  | madd (m : BitVec 4) (d : BitVec 7) (a : BitVec 7) (b : BitVec 7)
  /-- R128: Multiplies two small matrices, optionally accumulating. -/
  | mmul (x : BitVec 1) (y : BitVec 1) (z : BitVec 1) (d : BitVec 7) (a : BitVec 7) (b : BitVec 7)
  /-- R130: Factors a packed symmetric matrix by Cholesky and writes status and flags. -/
  | mchol (f : BitVec 2) (d : BitVec 7) (a : BitVec 7) (b : BitVec 7)
  /-- R131: Factors a general matrix by LU with partial pivoting. -/
  | mlup (f : BitVec 2) (d : BitVec 7) (a : BitVec 7) (b : BitVec 7)
  /-- R132: Solves a triangular system in place. -/
  | mtrs (p : BitVec 1) (t : BitVec 1) (u : BitVec 1) (y : BitVec 1) (d : BitVec 7) (a : BitVec 7) (b : BitVec 7)
  /-- R133: Factors and solves, writing results only when the factor exists. -/
  | msolv (m : BitVec 1) (f : BitVec 2) (d : BitVec 7) (a : BitVec 7) (b : BitVec 7)
  /-- R134: Writes the trace, greatest magnitude or Frobenius sum of a matrix. -/
  | mred (m : BitVec 4) (d : BitVec 7) (a : BitVec 7)
  /-- R121: A small-matrix instruction completes and all its destinations become readable at once. -/
  | smallMatrixComplete (ctx acc : Nat)
  /-- R241: Starts a matrix multiply-accumulate into an accumulator region, counted on mx. -/
  | xmma (m : BitVec 4) (a : BitVec 7) (b : BitVec 7) (o : BitVec 4) (c : BitVec 7) (x : BitVec 12)
  /-- R241: Every element of the region has been written and every source consumed. -/
  | xmmaComplete (ctx op : Nat)
  /-- R245: Zeroes an accumulator region and clears its SAT bits. -/
  | xaccZero (a : BitVec 7)
  /-- R245: Reads an accumulator element per lane into D and writes f0. -/
  | xaccRd (d : BitVec 7) (a : BitVec 7) (b : BitVec 7)
  /-- R245: Writes D per lane to an accumulator element. -/
  | xaccWr (d : BitVec 7) (a : BitVec 7) (b : BitVec 7)
  /-- R245: Starts converting an accumulator region into a tile, counted on mx. -/
  | xaccTile (d : BitVec 7) (a : BitVec 7)
  /-- R245: The region has been written to the tile, which becomes ready. -/
  | xaccTileComplete (ctx op : Nat)
  /-- R277: Starts a keyed gather of mixed-width rows into tile rows, counted on gx. -/
  | tgath (d : BitVec 7) (a : BitVec 7) (b : BitVec 7) (sc : BitVec 3) (ord : BitVec 2) (o : BitVec 4) (c : BitVec 7) (x : BitVec 10)
  /-- R277: Every tile row is written, the tile becomes ready, and the hit bits and GMISS land. -/
  | tgathComplete (ctx op : Nat)
  /-- R212: An engine detects a fault after issue and charges it to the issuing warp. -/
  | engineSideFault (ctx op : Nat)
  /-- R168: Transfers control of the lanes of ISSUE to a B-form target. -/
  | bra (s : BitVec 2) (o : BitVec 23)
  /-- R168: Pushes a return record and transfers control. -/
  | call (s : BitVec 2) (o : BitVec 23)
  /-- R169: Pops the return record and restores W and PC. -/
  | ret
  /-- R170: Sets each lane's PC to its own A. -/
  | jmpr (a : BitVec 7)
  /-- R173: Parks lanes named in the mask until the mask is satisfied, and moves other lanes to the join target. -/
  | rejoin (b : BitVec 7) (x : BitVec 16)
  /-- R171: Creates fibres in free slots of the warp. -/
  | fspawn (d : BitVec 7) (a : BitVec 7) (x : BitVec 16)
  /-- R172: Ends the fibre and frees its slot. -/
  | fend
  /-- R172: Ends the fibre and retires its slot. -/
  | exit
  /-- R196: Raises SPTR by 16 × IMM8. -/
  | fenter (n : BitVec 8)
  /-- R196: Lowers SPTR by 16 × IMM8. -/
  | fleave (n : BitVec 8)
  /-- R176: Parks lanes until the barrier of the warp, workgroup or gang completes. -/
  | bar (k : BitVec 3) (i : BitVec 8)
  /-- R179: Arms each lane's monitor on a 64-byte block. -/
  | mwaitWatch (a : BitVec 7) (b : BitVec 7)
  /-- R180: Parks the lane until its monitor fires or is lost, or a cycle bound passes. -/
  | mwaitWait (d : BitVec 7) (a : BitVec 7)
  /-- R179: A write to a watched block becomes visible at the lane's core and fires its monitor. -/
  | monitorFire (ctx warp lane : Nat)
  /-- R180: The cycle bound of a waiting lane expires and it is released with reason 2. -/
  | mwaitTimeout (ctx warp lane : Nat)
  /-- R181: Makes the set not ready and gives up the warp's turn. -/
  | yield
  /-- R181: 16 cycles after a yield, its set becomes ready again. -/
  | yieldExpiry (ctx warp lane : Nat)
  /-- R374: The lanes of ISSUE take a trap of class SOFT. -/
  | trap (n : BitVec 8)
  /-- R375: Returns fibres from the handler and restores their flags. -/
  | rett
  /-- R367: Enqueues a launch record per lane on a region queue. -/
  | lnch (d : BitVec 7) (a : BitVec 7) (sc : BitVec 3) (ord : BitVec 2) (c : BitVec 7)
  /-- R199: Loads from the cluster-memory share. -/
  | ldl (f : BitVec 4) (d : BitVec 7) (a : BitVec 7) (b : BitVec 7)
  /-- R199: Stores to the cluster-memory share. -/
  | stl (f : BitVec 4) (d : BitVec 7) (a : BitVec 7) (b : BitVec 7)
  /-- R199: Loads from the firn share. -/
  | ldf (f : BitVec 4) (d : BitVec 7) (a : BitVec 7) (b : BitVec 7)
  /-- R199: Stores to the firn share. -/
  | stf (f : BitVec 4) (d : BitVec 7) (a : BitVec 7) (b : BitVec 7)
  /-- R259: Loads one element from a row by reference. -/
  | ldr (f : BitVec 4) (d : BitVec 7) (a : BitVec 7) (b : BitVec 7)
  /-- R259: Stores one element to a row by reference. -/
  | str (f : BitVec 4) (d : BitVec 7) (a : BitVec 7) (b : BitVec 7)
  /-- R266: Loads an element of the row of a key. -/
  | ldk (f : BitVec 4) (d : BitVec 7) (a : BitVec 7) (sc : BitVec 3) (ord : BitVec 2) (o : BitVec 4) (c : BitVec 7) (x : BitVec 16)
  /-- R266: Stores an element to the row of a key. -/
  | stk (f : BitVec 4) (d : BitVec 7) (a : BitVec 7) (sc : BitVec 3) (ord : BitVec 2) (o : BitVec 4) (c : BitVec 7) (x : BitVec 16)
  /-- R259: Loads an element at an immediate offset. -/
  | ldri (f : BitVec 3) (i : BitVec 8) (d : BitVec 7) (a : BitVec 7)
  /-- R259: Stores an element at an immediate offset. -/
  | stri (f : BitVec 3) (i : BitVec 8) (d : BitVec 7) (a : BitVec 7)
  /-- R199: Loads from cluster memory at an immediate offset. -/
  | ldli (f : BitVec 3) (i : BitVec 8) (d : BitVec 7) (a : BitVec 7)
  /-- R199: Stores to cluster memory at an immediate offset. -/
  | stli (f : BitVec 3) (i : BitVec 8) (d : BitVec 7) (a : BitVec 7)
  /-- R260: A memory access that took time returns its data, and the scoreboarded destination is written. -/
  | rowAccessComplete (ctx acc : Nat)
  /-- R197: Loads registers from the stack frame. -/
  | frmLd (n : BitVec 4) (k : BitVec 4) (d : BitVec 7)
  /-- R197: Stores registers to the stack frame. -/
  | frmSt (n : BitVec 4) (k : BitVec 4) (a : BitVec 7)
  /-- R204: Defines a tile from a descriptor and returns its number. -/
  | tileDef (d : BitVec 7) (a : BitVec 7)
  /-- R204: Writes a tile's state code to D. -/
  | tileQry (d : BitVec 7) (a : BitVec 7)
  /-- R204: Sets a tile empty or ready, ready acting as a release. -/
  | tileSet (s : BitVec 1) (a : BitVec 7)
  /-- R204: Undefines a tile and frees its entry. -/
  | tileFree (a : BitVec 7)
  /-- R266: Looks up a key and returns its row reference. -/
  | tget (d : BitVec 7) (a : BitVec 7) (sc : BitVec 3) (ord : BitVec 2) (o : BitVec 4) (c : BitVec 7)
  /-- R266: Inserts a key, or with ups also writes an existing row. -/
  | tins (m : BitVec 1) (d : BitVec 7) (a : BitVec 7) (b : BitVec 7) (sc : BitVec 3) (ord : BitVec 2) (o : BitVec 4) (c : BitVec 7) (x : BitVec 16)
  /-- R266: Removes a key and bumps its row's generation. -/
  | tdel (d : BitVec 7) (a : BitVec 7) (sc : BitVec 3) (ord : BitVec 2) (o : BitVec 4) (c : BitVec 7)
  /-- R266: Exchanges a word of the row of a key. -/
  | tupdVal (d : BitVec 7) (a : BitVec 7) (b : BitVec 7) (sc : BitVec 3) (ord : BitVec 2) (o : BitVec 4) (c : BitVec 7) (x : BitVec 16)
  /-- R274: Returns and resets the hit counter and re-encodes a mixed-width row. -/
  | tupdFmt (d : BitVec 7) (a : BitVec 7) (b : BitVec 7) (sc : BitVec 3) (ord : BitVec 2) (o : BitVec 4) (c : BitVec 7)
  /-- R262: The home index engine performs one lane's keyed operation atomically. -/
  | indexEngineOperation (op : Nat)
  /-- R268: Opens a cursor on an ordered table at a bound key. -/
  | tseek (v : BitVec 1) (m : BitVec 2) (d : BitVec 7) (a : BitVec 7) (sc : BitVec 3) (ord : BitVec 2) (o : BitVec 4) (c : BitVec 7)
  /-- R269: Steps a cursor to the next key within a bound. -/
  | tcurStep (d : BitVec 7) (a : BitVec 7) (b : BitVec 7)
  /-- R269: Closes a cursor. -/
  | tcurClose (a : BitVec 7)
  /-- R269: Returns the key of the cursor's last row. -/
  | tcurKey (d : BitVec 7) (a : BitVec 7)
  /-- R312: Requests the append of one call per lane to a replayed object's log. -/
  | rcall (d : BitVec 7) (a : BitVec 7) (sc : BitVec 3) (ord : BitVec 2) (c : BitVec 7) (m : BitVec 6)
  /-- R312: Once the log has room, the sequencer assigns contiguous sequence numbers and appends the entries. -/
  | logAppend (req : Nat)
  /-- R308: A replay engine applies the next call to its replica through a shadow copy. -/
  | replayApply (asid slot die : Nat)
  /-- R316: Runs a read-only method on the local replica after catching up. -/
  | rreadRead (d : BitVec 7) (a : BitVec 7) (b : BitVec 7) (sc : BitVec 3) (ord : BitVec 2) (c : BitVec 7) (m : BitVec 6)
  /-- R317: Returns the outcome of a call once it is complete, trapped or gone. -/
  | rreadWait (d : BitVec 7) (b : BitVec 7) (sc : BitVec 3) (ord : BitVec 2) (c : BitVec 7)
  /-- R318: Returns the local tail and applied count. -/
  | rreadStat (d : BitVec 7) (sc : BitVec 3) (ord : BitVec 2) (c : BitVec 7)
  /-- R316: A waiting RREAD finds its condition met, performs its read and writes its results and f0. -/
  | rreadReturn (req : Nat)
  /-- R186: Drops the core's loop buffer and refetches after earlier invalidations. -/
  | syncIsync
  /-- R186: Invalidates a code range in every instruction cache and marks loop buffers stale. -/
  | syncIcinv (a : BitVec 7) (b : BitVec 7)
  /-- R186: Writes back a dirty L1 block to its L2 slice. -/
  | syncDcwb (a : BitVec 7) (b : BitVec 7)
  /-- R186: Writes back and drops the core's L1 copies of a block. -/
  | syncDcinv (a : BitVec 7) (b : BitVec 7)
  /-- R27: Issues the next slot CNT + 1 times, stepping register fields. -/
  | rep (c : BitVec 6) (s : BitVec 3) (t : BitVec 3)
  /-- R362: A warp that has been a candidate for 1,024 consecutive cycles without issuing is raised to standing 8. -/
  | priorityStandingRaise (ctx warp : Nat)
  /-- R164: A warp with no fibres retires once its pending results land and its counters reach 0. -/
  | warpRetire (ctx warp : Nat)
  /-- R357: When every gang of a record has retired and its accesses completed, the DONE word gains 1 as a release. -/
  | doneIncrement (queue idx : Nat)
  /-- R372: A warp enters its handler, or halts the gang, after a fault, an engine-side fault or TRAP. -/
  | trapEntry (ctx warp : Nat)
  /-- R356: A queue front-end's poll interval expires and it reads TAIL and the head record's semaphore. -/
  | queuePoll (queue : Nat)
  /-- R359: The placement scheduler decides a place for a waiting gang when it fits. -/
  | gangPlacement (ctx : Nat)
  /-- R363: The scheduler pre-empts a gang, stopping issue and draining its work. -/
  | preemption (ctx : Nat)
  /-- R363: Once issued work and engines have drained, the gang's state is saved. -/
  | preemptionSave (ctx : Nat)
  /-- R363: An engine drain not finished within 20 µs counts as a missed acknowledgement. -/
  | drainTimeout (ctx : Nat)
  /-- R382: Installs a table descriptor into a directory slot. -/
  | cmdDirSet
  /-- R382: Empties a directory slot. -/
  | cmdDirClr
  /-- R382: Creates a replayed object in every replica. -/
  | cmdObjSet
  /-- R382: Removes a replayed object. -/
  | cmdObjClr
  /-- R382: Invalidates translations for an ASID and VA range. -/
  | cmdXlatInv
  /-- R382: Names, enables and clears the error of a queue. -/
  | cmdQueueSet
  /-- R382: Disables a queue. -/
  | cmdQueueClr
  /-- R382: Halts every gang of a region subtree. -/
  | cmdRegionHalt
  /-- R382: Clears a contained range. -/
  | cmdContainClr
  /-- R382: Clears a lost line, which then reads zero. -/
  | cmdLineClr
  /-- R382: A reserved command code is answered with CSTAT 0x81. -/
  | cmdReserved
  /-- R383: Returns the order code, serial number, firmware version and identity certificates. -/
  | ident
  /-- R383: Returns firmware measurements signed over a nonce. -/
  | attest (nonce : List Byte)
  /-- R384: Pauses the control plane and returns the resync summary. -/
  | resync
  /-- R383: Installs a wrapped key into a key slot. -/
  | keySet (slot : Nat) (wrapped : List Byte)
  /-- R383: Erases a key slot. -/
  | keyClr (slot : Nat)
  /-- R383: Assigns a peer window to a Perpel device. -/
  | peerMap (window device : Nat)
  /-- R383: Stages a signed firmware image for the next reset. -/
  | fwLoad (image signature : List Byte)
  /-- R388: Boot ROM verifies firmware, then firmware creates the system tables, queue 0 and the root region. -/
  | deviceReset
  /-- R291: A host write reaches device memory through CXL.mem; to a semaphore or RCB it is a release. -/
  | hostWrite (pa : Nat) (bytes : List Byte)
  /-- R337: A host read of device memory is served by the cell's home slice. -/
  | hostRead (pa len : Nat)
  /-- R387: Every 10 µs the management plane writes each column's heat code. -/
  | heatCodeWrite (die col temp : Nat)
  /-- R385: A worn part is replaced by a spare. -/
  | spareSwap (part : Part)
  /-- R379: The patrol scrubber reads every line once in each 24 hours. -/
  | patrolScrub (line : Nat) (found : Flaw)
  /-- R386: A bank idle for 100 µs starts to freeze into retention. -/
  | bankFreeze (bank : Nat)
  /-- R386: A freezing bank reaches retention. -/
  | freezeComplete (bank : Nat)
  /-- R386: A frozen bank finishes thawing and waiting accesses proceed. -/
  | thawComplete (bank : Nat)
  /-- R380: A directory or coherence acknowledgement missing after 50 µs marks an agent dead. -/
  | coherenceAckTimeout (agent : Agent)
  /-- R379: A link whose retries are exhausted is declared dead. -/
  | linkDead (link : Nat)
  /-- R380: The die watchdog finds a die, stack or hub unresponsive. -/
  | dieWatchdog (agent : Agent)
  /-- R328: A translation walk returns a translation or a fault to every miss attached to it. -/
  | pageWalkComplete (asid page : Nat)
  /-- R336: Two halves merge after 4,096 directory operations without conflict. -/
  | regionMerge (base : Nat)
  /-- R338: An access arrives at the HBM4E controller and queues for its bank. -/
  | dramAccessArrival (req : Nat)
  /-- R338: A bank finishes serving an access. -/
  | dramServiceComplete (req : Nat)
  /-- R339: Every tREFIpb a refresh falls due for the bank at the rotation point. -/
  | refreshDue (pch : Nat)
  /-- R339: A per-bank or all-bank refresh ends and waiting accesses start. -/
  | refreshComplete (pch : Nat)
  /-- R340: After 490 idle cycles with refreshes owed, an all-bank refresh repays them. -/
  | idleRepay (pch : Nat)
  /-- R340: After 14,000 idle cycles the pseudo-channel enters self-refresh. -/
  | selfRefreshEntry (pch : Nat)
  /-- R340: The exit started by the first access completes and waiting accesses start. -/
  | selfRefreshExitComplete (pch : Nat)
  /-- R344: A page re-encrypted after a minor-counter overflow becomes writable again. -/
  | pageReencryptionComplete (page : Nat)
  /-- R345: A counter passing 2^56 − 1 rotates the region's key and starts a re-encryption sweep. -/
  | keyRotation (slot : Nat)
  /-- R345: The sweep finishes and accesses to the region resume. -/
  | keySweepComplete (slot : Nat)
  /-- R225: The read of a started fetch, fetchz or seek returns and its entry is pushed to the queue. -/
  | streamFetchComplete (ctx : Nat)
  /-- R186: Every instruction cache acknowledges a sync.icinv, or a sync.dcwb or sync.dcinv write-back finishes, and the parked lanes are released. -/
  | syncComplete (ctx warp sync : Nat)
  /-- R296: A fence's earlier accesses have completed and become visible, or its aperture join has finished, so the fibre's next slot becomes ready. -/
  | fenceComplete (ctx warp fence : Nat)
  /-- R385: The spare takes over the worn part once draining or copying ends, and waiting accesses proceed. -/
  | spareSwapComplete (part : Part)
  /-- R385: A Perpel port, or the host link moved to hub 1, finishes retraining and resumes carrying flits. -/
  | linkRetrainComplete (link : Nat)
  /-- R337: The host's coherence protocol requests that a host-window line held in device L2 be written back, downgraded or dropped. -/
  | cxlCacheSnoop (line : Nat) (snoop : Snoop)
  /-- R388: A load, store, AMO or CAS from a remote device arrives over a Perpel link and is performed on device memory. -/
  | remoteDeviceAccess (device pa : Nat) (access : Remote)
  /-- R321: The call log is fully copied to a new mirror die, and RCALL appends may proceed again. -/
  | logMirrorCopyComplete (asid slot : Nat)
  deriving DecidableEq, Repr, Inhabited

end Sys2Proof
end

