-- ==== Sys2Proof/WellFormed.lean ====
section
/-! DEFINITION. The checks of an instruction's fields that decide whether its encoding is an instruction (01 R24, R29 to
R35, and the field tables of the chapters). `Instr.check` answers the fault code of 01 R34 that the fields raise, the
first in that rule's order; well-formed means none. -/

namespace Sys2Proof

/-- The place of a code in the order of 01 R34: the code value itself. -/
def InsnCode.value : InsnCode → BitVec 8
  | .quad => 1 | .pair => 2 | .rep => 3 | .slot => 4 | .min => 5 | .sub => 6 | .xop => 7 | .opnd => 8 | .rsv => 9

/-- The first of the causes that apply, in the order of 01 R34. -/
def firstCode (cs : List (Bool × InsnCode)) : Option InsnCode :=
  [InsnCode.quad, .pair, .rep, .slot, .min, .sub, .xop, .opnd, .rsv].find? fun c => cs.any fun p => p.1 && p.2 == c

/-- A register field that names a pair must be even (01 R24). -/
def odd {n : Nat} (r : BitVec n) : Bool := r.toNat % 2 != 0
/-- A register field that names four registers must be a multiple of 4 (09 R199, 13 R256). -/
def off4 {n : Nat} (r : BitVec n) : Bool := r.toNat % 4 != 0
/-- An s-register field is at most 63 (01 R24). -/
def sBad {n : Nat} (r : BitVec n) : Bool := 63 < r.toNat
/-- The integer types 2 and 3 are 64 bits wide, in pairs (01 R29). -/
def wideTy {n : Nat} (t : BitVec n) : Bool := t.toNat == 2 || t.toNat == 3

/-- R-form integer instructions with three operands (05 R92). -/
def checkInt (u : BitVec 1) (t : BitVec 3) (d a b : BitVec 7) : List (Bool × InsnCode) :=
  [(4 ≤ t.toNat, .min), (wideTy t && (odd d || odd a), .opnd), (u == 0 && wideTy t && odd b, .opnd), (u == 1 && sBad b, .opnd)]

/-- R-form integer instructions with two operands. -/
def checkInt2 (t : BitVec 3) (d a : BitVec 7) : List (Bool × InsnCode) :=
  [(4 ≤ t.toNat, .min), (wideTy t && (odd d || odd a), .opnd)]

/-- I-form integer instructions (05 R96). -/
def checkIntI (t : BitVec 3) (d a : BitVec 7) : List (Bool × InsnCode) :=
  [(4 ≤ t.toNat, .sub), (wideTy t && (odd d || odd a), .opnd)]

/-- A data register of a memory format: a pair under `.w64`, four registers under `.w128` (09 R199). -/
def checkData (f : Nat) (d : BitVec 7) : Bool := (f == 1 && odd d) || (f == 2 && off4 d)

/-- A key register field (13 R256). -/
def checkKey (kt : Nat) (a : BitVec 7) : Bool := ((kt == 2 || kt == 3) && odd a) || (kt == 4 && off4 a)

/-- X fields of a keyed instruction (13 R264, R265): which ORD values it accepts, its key type and handle. -/
def checkKeyed (ords : List Nat) (ord : BitVec 2) (o : BitVec 4) (a c : BitVec 7) : List (Bool × InsnCode) :=
  [(!(ords.contains ord.toNat), .xop), (4 < o.toNat, .xop), (sBad c, .opnd), (checkKey o.toNat a, .opnd)]

/-- X fields of RCALL and RREAD (18 R311, R314). -/
def checkObj (ords : List Nat) (sc : BitVec 3) (ord : BitVec 2) (c : BitVec 7) : List (Bool × InsnCode) :=
  [(sc != 6, .xop), (!(ords.contains ord.toNat), .xop), (sBad c, .opnd)]

/-- The causes that an instruction's fields raise. A B of 64 to 127 under SALU `.mov` is both an s-register field above 63
and an unused field (05 R101): both causes apply, and INSN.OPND stands first (DEDUCED, log 70). -/
def Instr.causes : Instr → List (Bool × InsnCode)
  | .iadd u t d a b | .isub u t d a b | .iaddc u t d a b | .imul u t d a b | .imulh u t d a b | .imad u t d a b
  | .imin u t d a b | .imax u t d a b | .andR u t d a b | .orR u t d a b | .xorR u t d a b | .andnR u t d a b
  | .shl u t d a b | .shr u t d a b | .sar u t d a b | .rot u t d a b | .bfx u t d a b | .bfi u t d a b =>
    checkInt u t d a b
  | .iabs t d a => (t == 1 || t == 3, .min) :: checkInt2 t d a
  | .popc t d a | .clz t d a | .brev t d a => checkInt2 t d a
  | .icmp u t _ a b => checkInt u t 0 a b
  | .iaddi t _ d a | .andi t _ d a | .ori t _ d a | .xori t _ d a | .shli t _ d a | .shri t _ d a | .sari t _ d a =>
    checkIntI t d a
  | .icmpi t _ _ a => checkIntI t 0 a
  | .mov x y d a =>
    [(y == 1 && odd d, .opnd), (x == 0 && y == 1 && odd a, .opnd), (x == 1 && sBad a, .opnd)]
  | .sel u _ _ _ b => [(u == 1 && sBad b, .opnd)]
  | .v2s m d a => [(3 ≤ m.toNat, .min), (sBad d, .opnd), (m == 1 && odd a, .opnd), (m == 2 && a != 0, .rsv)]
  | .salu m d a b => [(14 ≤ m.toNat, .min), (sBad d || sBad a || sBad b, .opnd), (m == 13 && b != 0, .rsv)]
  | .smovi _ _ d => [(sBad d, .opnd)]
  | .regsXacq i | .regsXrel i => [(i == 0 || 12 < i.toNat, .rsv)]
  | .cpl _ _ a _ o _ _ => [(3 < o.toNat, .xop), (odd a, .opnd)]
  | .cpb m d a o _ => [(3 < m.toNat, .min), (10 < o.toNat, .xop), (sBad d || sBad a, .opnd)]
  | .waitc c _ => [(c == 7, .rsv)]
  | .qpop _ w d => [(w == 3, .rsv), (checkData w.toNat d, .opnd)]
  | .qpush _ w a => [(w == 3, .rsv), (checkData w.toNat a, .opnd)]
  | .spldLoad a | .dfence a => [(sBad a, .opnd)]
  | .fadd t _ d a b | .fsub t _ d a b | .fmul t _ d a b | .ffma t _ d a b => [(t == 1 && (odd d || odd a || odd b), .opnd)]
  | .fmin t n d a b | .fmax t n d a b => [(1 < n.toNat, .min), (t == 1 && (odd d || odd a || odd b), .opnd)]
  | .fcmp t _ a b => [(1 < t.toNat, .min), (t == 1 && (odd a || odd b), .opnd)]
  | .fmod t o d a b =>
    [(o == 3, .min), (t == 1 && (odd d || odd a), .opnd), (t == 1 && o == 2 && odd b, .opnd), (o != 2 && b != 0, .rsv)]
  | .frint t _ d a => [(t == 1 && (odd d || odd a), .opnd)]
  | .f2i t _ d a k =>
    [(t == 1 && odd a, .opnd), (t.toNat < 2 && (k == 2 || k == 3) && odd d, .opnd), (3 < k.toNat, .rsv),
      (1 < t.toNat && 1 < k.toNat, .rsv)]
  | .i2f t _ d a k =>
    [(t == 1 && odd d, .opnd), (t.toNat < 2 && (k == 2 || k == 3) && odd a, .opnd), (3 < k.toNat, .rsv),
      (1 < t.toNat && 1 < k.toNat, .rsv)]
  | .fcvt v d a r s p =>
    [(13 < v.toNat, .min), (v == 0 && odd a, .opnd), (v == 1 && odd d, .opnd),
      ((v == 1 || (7 ≤ v.toNat && v.toNat ≤ 12)) && (r != 0 || s != 0 || p != 0), .rsv), (r == 0 && fld p 2 3 != 0, .rsv)]
  | .sfu t m _ _ f => [(t == 1 || t == 3, .min), (5 ≤ f.toNat && f.toNat ≤ 7 && m != 0, .min), (7 < f.toNat, .rsv)]
  | .welf t _ d a | .wmrg t _ d a => [(1 < t.toNat, .min), (t == 1 && (odd d || odd a), .opnd)]
  | .fence l _ s => [(l == 1 && s.toNat < 5, .rsv)]
  | .shpush c n _ _ _ => [(c == 0 && n != 0, .rsv)]
  | .vote _ k d _ b => [(sBad b, .opnd), (k == 3 && sBad d, .opnd), (k != 3 && d != 0, .rsv)]
  | .lred o t d a b | .lscan o t d a b => [(o == 3 && t == 2, .min), (t == 3 && (odd d || odd a), .opnd), (sBad b, .opnd)]
  | .amo m d a b _ _ o _ => [(9 < m.toNat, .min), (1 < o.toNat, .xop), (odd a, .opnd), (o == 1 && (odd d || odd b), .opnd)]
  | .cas m d a b _ _ _ _ => [(1 < m.toNat, .min), (odd a, .opnd), (m == 1 && (odd d || odd b), .opnd)]
  | .mset m k n l => [(m == 0 || m == 7 || k == 0 || k == 7 || n == 0 || n == 7 || l == 3, .rsv)]
  | .mld f _ a _ | .mst f _ a _ => [(!([0, 7, 8, 9, 10].contains f.toNat), .min), (odd a, .opnd)]
  | .madd m _ _ _ => [(2 < m.toNat, .min)]
  | .mchol _ _ _ b | .mlup _ _ _ b | .msolv _ _ _ _ b => [(sBad b, .opnd)]
  | .mtrs p _ _ _ _ _ b => [(p == 0 && b != 0, .rsv)]
  | .mred m _ _ => [(2 < m.toNat, .min)]
  | .xmma m a b o c _ =>
    [(3 < m.toNat, .min), (1 < o.toNat, .xop), (sBad a || sBad b || ((m == 1 || m == 2) && sBad c), .opnd),
      ((m == 0 || m == 3) && c != 0, .rsv)]
  | .xaccZero a | .xaccRd _ a _ | .xaccWr _ a _ => [(sBad a, .opnd)]
  | .xaccTile d a => [(sBad d || sBad a, .opnd)]
  | .tgath d a b _ ord o c _ =>
    [(1 < ord.toNat, .xop), (4 < o.toNat, .xop), (odd d || sBad d, .opnd), (sBad b || sBad c, .opnd), (checkKey o.toNat a, .opnd)]
  | .bra s _ | .call s _ => [(s == 0, .slot)]
  | .rejoin b x => [(fld x 14 2 == 0, .slot), (sBad b, .opnd)]
  | .fspawn _ _ x => [(fld x 14 2 == 0, .slot)]
  | .bar k i => [(2 < k.toNat, .sub), (15 < i.toNat, .rsv)]
  | .mwaitWatch a _ | .syncDcwb a _ | .syncDcinv a _ => [(odd a, .opnd)]
  | .lnch _ a _ ord c => [(ord == 1 || ord == 3, .xop), (odd a, .opnd), (sBad c, .opnd)]
  | .ldl f d _ _ | .stl f d _ _ | .ldf f d _ _ | .stf f d _ _ => [(10 < f.toNat, .min), (checkData f.toNat d, .opnd)]
  | .ldr f d a _ | .str f d a _ => [(10 < f.toNat, .min), (odd a, .opnd), (checkData f.toNat d, .opnd)]
  | .ldri f _ d a | .stri f _ d a => [(odd a, .opnd), (checkData f.toNat d, .opnd)]
  | .ldli f _ d _ | .stli f _ d _ => [(checkData f.toNat d, .opnd)]
  | .ldk f d a _ ord o c _ => (10 < f.toNat, .min) :: (checkData f.toNat d, .opnd) :: checkKeyed [0, 1] ord o a c
  | .stk f d a _ ord o c _ => (10 < f.toNat, .min) :: (checkData f.toNat d, .opnd) :: checkKeyed [0, 2] ord o a c
  | .tget d a _ ord o c => (odd d, .opnd) :: checkKeyed [0, 1] ord o a c
  | .tins _ d a _ _ ord o c _ | .tdel d a _ ord o c => (odd d, .opnd) :: checkKeyed [0, 1, 2, 3] ord o a c
  | .tupdVal _ a _ _ ord o c _ | .tupdFmt _ a _ _ ord o c => checkKeyed [0, 1, 2, 3] ord o a c
  | .tseek v m _ a _ ord o c => ((m.toNat < 2) != (v == 0), .min) :: checkKeyed [0, 1] ord o a c
  | .tileDef d a => [(sBad d || sBad a, .opnd)]
  | .tileQry _ a | .tileSet _ a | .tileFree a => [(sBad a, .opnd)]
  | .tcurStep d _ _ => [(odd d, .opnd)]
  | .rcall d _ sc ord c _ => (odd d, .opnd) :: checkObj [0] sc ord c
  | .rreadRead d _ b sc ord c _ => (off4 d || odd b, .opnd) :: checkObj [0] sc ord c
  | .rreadWait d b sc ord c => (off4 d || odd b, .opnd) :: checkObj [0, 1] sc ord c
  | .rreadStat d sc ord c => (off4 d, .opnd) :: checkObj [0] sc ord c
  | _ => []

/-- The fault code that an instruction's fields raise, if any. -/
def Instr.check (i : Instr) : Option InsnCode := firstCode i.causes

/-- An instruction whose fields the spec accepts. -/
def Instr.wf (i : Instr) : Bool := i.check.isNone

end Sys2Proof
end

