-- ==== Sys2Proof/Decode.lean ====
section
/-! DEFINITION. The decoder, total on any words, and after it the encoder: both from the field tables of 01 R22, R35 and
the chapters. A slot word is decoded together with the word that follows it in its quad, which is its X word when it is
paired (01 R26). Where the words match no row of the table, or a field that must be zero is not, the decoder refuses
with the code of 01 R34. Fields that a row has, but whose value is reserved, stay in the instruction: `Instr.check`
names the fault they raise. -/

namespace Sys2Proof

/-- The instruction, unless one of the structural causes applies: then the first of those and of the instruction's own
(01 R34). -/
def verdict (i : Instr) (cs : List (Bool × InsnCode)) : Except InsnCode Instr :=
  if cs.any (·.1) then .error ((firstCode (cs ++ i.causes)).getD .rsv) else .ok i

/-- The major opcodes marked "p" in the map (01 R35). -/
def pairedMaj (m : Nat) : Bool :=
  [41, 42, 70, 71, 85, 87, 92, 93, 103, 110, 111, 118, 119, 120, 121, 122, 124, 125].contains m

/-- The major opcode of a slot word (01 R22). -/
def majOf (w : Word) : Nat := (fld w 25 7).toNat

/-- The row of the table that a slot word and the word after it name, with the instruction's fields and the structural causes:
reserved values of the fields that choose the row, and fields that must be zero and are not. -/
def rowOf (w x : Word) : Except InsnCode (Instr × List (Bool × InsnCode)) :=
  match majOf w with
  | 0 => .ok (.nop, [(w != 0, .rsv)])
  | 1 => .ok (.iadd (fld w 24 1) (fld w 21 3) (fld w 14 7) (fld w 7 7) (fld w 0 7), [])
  | 2 => .ok (.isub (fld w 24 1) (fld w 21 3) (fld w 14 7) (fld w 7 7) (fld w 0 7), [])
  | 3 => .ok (.iaddc (fld w 24 1) (fld w 21 3) (fld w 14 7) (fld w 7 7) (fld w 0 7), [])
  | 4 => .ok (.imul (fld w 24 1) (fld w 21 3) (fld w 14 7) (fld w 7 7) (fld w 0 7), [])
  | 5 => .ok (.imulh (fld w 24 1) (fld w 21 3) (fld w 14 7) (fld w 7 7) (fld w 0 7), [])
  | 6 => .ok (.imad (fld w 24 1) (fld w 21 3) (fld w 14 7) (fld w 7 7) (fld w 0 7), [])
  | 7 => .ok (.imin (fld w 24 1) (fld w 21 3) (fld w 14 7) (fld w 7 7) (fld w 0 7), [])
  | 8 => .ok (.imax (fld w 24 1) (fld w 21 3) (fld w 14 7) (fld w 7 7) (fld w 0 7), [])
  | 9 => .ok (.iabs (fld w 21 3) (fld w 14 7) (fld w 7 7), [(fld w 24 1 != 0, .rsv), (fld w 0 7 != 0, .rsv)])
  | 10 => .ok (.icmp (fld w 24 1) (fld w 21 3) (fld w 14 2) (fld w 7 7) (fld w 0 7), [(fld w 16 5 != 0, .rsv)])
  | 11 => .ok (.andR (fld w 24 1) (fld w 21 3) (fld w 14 7) (fld w 7 7) (fld w 0 7), [])
  | 12 => .ok (.orR (fld w 24 1) (fld w 21 3) (fld w 14 7) (fld w 7 7) (fld w 0 7), [])
  | 13 => .ok (.xorR (fld w 24 1) (fld w 21 3) (fld w 14 7) (fld w 7 7) (fld w 0 7), [])
  | 14 => .ok (.andnR (fld w 24 1) (fld w 21 3) (fld w 14 7) (fld w 7 7) (fld w 0 7), [])
  | 15 => .ok (.shl (fld w 24 1) (fld w 21 3) (fld w 14 7) (fld w 7 7) (fld w 0 7), [])
  | 16 => .ok (.shr (fld w 24 1) (fld w 21 3) (fld w 14 7) (fld w 7 7) (fld w 0 7), [])
  | 17 => .ok (.sar (fld w 24 1) (fld w 21 3) (fld w 14 7) (fld w 7 7) (fld w 0 7), [])
  | 18 => .ok (.rot (fld w 24 1) (fld w 21 3) (fld w 14 7) (fld w 7 7) (fld w 0 7), [])
  | 19 => .ok (.popc (fld w 21 3) (fld w 14 7) (fld w 7 7), [(fld w 24 1 != 0, .rsv), (fld w 0 7 != 0, .rsv)])
  | 20 => .ok (.clz (fld w 21 3) (fld w 14 7) (fld w 7 7), [(fld w 24 1 != 0, .rsv), (fld w 0 7 != 0, .rsv)])
  | 21 => .ok (.brev (fld w 21 3) (fld w 14 7) (fld w 7 7), [(fld w 24 1 != 0, .rsv), (fld w 0 7 != 0, .rsv)])
  | 22 => .ok (.bfx (fld w 24 1) (fld w 21 3) (fld w 14 7) (fld w 7 7) (fld w 0 7), [])
  | 23 => .ok (.bfi (fld w 24 1) (fld w 21 3) (fld w 14 7) (fld w 7 7) (fld w 0 7), [])
  | 24 => .ok (.iaddi (fld w 22 3) (fld w 14 8) (fld w 7 7) (fld w 0 7), [])
  | 25 => .ok (.andi (fld w 22 3) (fld w 14 8) (fld w 7 7) (fld w 0 7), [])
  | 26 => .ok (.ori (fld w 22 3) (fld w 14 8) (fld w 7 7) (fld w 0 7), [])
  | 27 => .ok (.xori (fld w 22 3) (fld w 14 8) (fld w 7 7) (fld w 0 7), [])
  | 28 => .ok (.shli (fld w 22 3) (fld w 14 8) (fld w 7 7) (fld w 0 7), [])
  | 29 => .ok (.shri (fld w 22 3) (fld w 14 8) (fld w 7 7) (fld w 0 7), [])
  | 30 => .ok (.sari (fld w 22 3) (fld w 14 8) (fld w 7 7) (fld w 0 7), [])
  | 31 => .ok (.icmpi (fld w 22 3) (fld w 14 8) (fld w 7 2) (fld w 0 7), [(fld w 9 5 != 0, .rsv)])
  | 32 => .ok (.movi (fld w 22 1) (fld w 14 8) (fld w 7 7), [(fld w 23 2 != 0, .sub), (fld w 0 7 != 0, .rsv)])
  | 33 => .ok (.mov (fld w 24 1) (fld w 21 1) (fld w 14 7) (fld w 7 7), [(fld w 22 2 != 0, .min), (fld w 0 7 != 0, .rsv)])
  | 34 => .ok (.sel (fld w 24 1) (fld w 21 2) (fld w 14 7) (fld w 7 7) (fld w 0 7), [(fld w 23 1 != 0, .rsv)])
  | 35 =>
    match (fld w 14 8).toNat with
    | 8 => .ok (.srdCyc (fld w 7 7), [(fld w 22 3 != 0, .sub), (fld w 0 7 != 0, .rsv)])
    | _ => .ok (.srd (fld w 14 8) (fld w 7 7), [(fld w 22 3 != 0, .sub), (fld w 0 7 != 0, .rsv)])
  | 36 =>
    match (fld w 14 8).toNat with
    | 11 => .ok (.swrWstat (fld w 0 7), [(fld w 22 3 != 0, .sub), (fld w 7 7 != 0, .rsv)])
    | 12 => .ok (.swrSlim (fld w 0 7), [(fld w 22 3 != 0, .sub), (fld w 7 7 != 0, .rsv)])
    | 17 => .ok (.swrTrappc (fld w 0 7), [(fld w 22 3 != 0, .sub), (fld w 7 7 != 0, .rsv)])
    | _ => .ok (.swr (fld w 14 8) (fld w 0 7), [(fld w 22 3 != 0, .sub), (fld w 7 7 != 0, .rsv)])
  | 37 => .ok (.v2s (fld w 21 4) (fld w 14 7) (fld w 7 7), [(fld w 0 7 != 0, .rsv)])
  | 38 => .ok (.salu (fld w 21 4) (fld w 14 7) (fld w 7 7) (fld w 0 7), [])
  | 39 => .ok (.smovi (fld w 22 3) (fld w 14 8) (fld w 7 7), [(fld w 0 7 != 0, .rsv)])
  | 40 =>
    match (fld w 22 3).toNat with
    | 0 => .ok (.regsWbase (fld w 14 8), [(fld w 0 14 != 0, .rsv)])
    | 1 => .ok (.regsXacq (fld w 14 8), [(fld w 0 14 != 0, .rsv)])
    | 2 => .ok (.regsXrel (fld w 14 8), [(fld w 0 14 != 0, .rsv)])
    | 3 => .ok (.regsXqry (fld w 7 7), [(fld w 14 8 != 0, .rsv), (fld w 0 7 != 0, .rsv)])
    | _ => .error .sub
  | 41 => .ok (.cpl (fld w 21 2) (fld w 14 7) (fld w 7 7) (fld w 0 7) (fld x 23 4) (fld x 16 7) (fld x 0 16), [(fld w 23 2 != 0, .rsv), (fld x 27 5 != 0, .xop)])
  | 42 => .ok (.cpb (fld w 21 4) (fld w 14 7) (fld w 7 7) (fld x 23 4) (fld x 0 16), [(fld w 0 7 != 0, .rsv), (fld x 27 5 != 0, .xop), (fld x 16 7 != 0, .rsv)])
  | 43 => .ok (.waitc (fld w 22 3) (fld w 14 8), [(fld w 0 14 != 0, .rsv)])
  | 44 => .ok (.qpop (fld w 22 3) (fld w 14 2) (fld w 7 7), [(fld w 16 6 != 0, .rsv), (fld w 0 7 != 0, .rsv)])
  | 45 => .ok (.qpush (fld w 22 3) (fld w 14 2) (fld w 0 7), [(fld w 16 6 != 0, .rsv), (fld w 7 7 != 0, .rsv)])
  | 46 =>
    match (fld w 22 3).toNat with
    | 0 => .ok (.spldLoad (fld w 0 7), [(fld w 7 15 != 0, .rsv)])
    | 1 => .ok (.spldStop, [(fld w 0 22 != 0, .rsv)])
    | 2 => .ok (.spldQry (fld w 7 7), [(fld w 14 8 != 0, .rsv), (fld w 0 7 != 0, .rsv)])
    | _ => .error .sub
  | 47 => .ok (.dfence (fld w 0 7), [(fld w 22 3 != 0, .sub), (fld w 7 15 != 0, .rsv)])
  | 48 => .ok (.fadd (fld w 23 2) (fld w 21 2) (fld w 14 7) (fld w 7 7) (fld w 0 7), [])
  | 49 => .ok (.fsub (fld w 23 2) (fld w 21 2) (fld w 14 7) (fld w 7 7) (fld w 0 7), [])
  | 50 => .ok (.fmul (fld w 23 2) (fld w 21 2) (fld w 14 7) (fld w 7 7) (fld w 0 7), [])
  | 51 => .ok (.ffma (fld w 23 2) (fld w 21 2) (fld w 14 7) (fld w 7 7) (fld w 0 7), [])
  | 52 => .ok (.fmin (fld w 23 2) (fld w 21 2) (fld w 14 7) (fld w 7 7) (fld w 0 7), [])
  | 53 => .ok (.fmax (fld w 23 2) (fld w 21 2) (fld w 14 7) (fld w 7 7) (fld w 0 7), [])
  | 54 => .ok (.fcmp (fld w 23 2) (fld w 21 2) (fld w 7 7) (fld w 0 7), [(fld w 14 7 != 0, .rsv)])
  | 55 => .ok (.fmod (fld w 23 2) (fld w 21 2) (fld w 14 7) (fld w 7 7) (fld w 0 7), [])
  | 56 => .ok (.frint (fld w 23 2) (fld w 21 2) (fld w 14 7) (fld w 7 7), [(fld w 0 7 != 0, .rsv)])
  | 57 => .ok (.f2i (fld w 23 2) (fld w 21 2) (fld w 14 7) (fld w 7 7) (fld w 0 7), [])
  | 58 => .ok (.i2f (fld w 23 2) (fld w 21 2) (fld w 14 7) (fld w 7 7) (fld w 0 7), [])
  | 59 => .ok (.fcvt (fld w 21 4) (fld w 14 7) (fld w 7 7) (fld w 6 1) (fld w 5 1) (fld w 0 5), [])
  | 60 => .ok (.sfu (fld w 23 2) (fld w 21 2) (fld w 14 7) (fld w 7 7) (fld w 0 7), [])
  | 61 => .ok (.welf (fld w 23 2) (fld w 21 2) (fld w 14 7) (fld w 7 7), [(fld w 0 7 != 0, .rsv)])
  | 62 => .ok (.wmrg (fld w 23 2) (fld w 21 2) (fld w 14 7) (fld w 7 7), [(fld w 0 7 != 0, .rsv)])
  | 63 => .ok (.fence (fld w 23 1) (fld w 21 2) (fld w 14 3), [(fld w 24 1 != 0, .rsv), (fld w 17 4 != 0, .rsv), (fld w 0 14 != 0, .rsv)])
  | 64 => .ok (.shfl (fld w 21 2) (fld w 14 7) (fld w 7 7) (fld w 0 7), [(fld w 23 2 != 0, .rsv)])
  | 65 => .ok (.shfli (fld w 22 2) (fld w 14 8) (fld w 7 7) (fld w 0 7), [(fld w 24 1 != 0, .rsv)])
  | 66 => .ok (.shpush (fld w 24 1) (fld w 21 3) (fld w 14 7) (fld w 7 7) (fld w 0 7), [])
  | 67 => .ok (.vote (fld w 23 2) (fld w 21 2) (fld w 14 7) (fld w 7 7) (fld w 0 7), [])
  | 68 => .ok (.lred (fld w 23 2) (fld w 21 2) (fld w 14 7) (fld w 7 7) (fld w 0 7), [])
  | 69 => .ok (.lscan (fld w 23 2) (fld w 21 2) (fld w 14 7) (fld w 7 7) (fld w 0 7), [])
  | 70 => .ok (.amo (fld w 21 4) (fld w 14 7) (fld w 7 7) (fld w 0 7) (fld x 29 3) (fld x 27 2) (fld x 23 4) (fld x 0 16), [(fld x 16 7 != 0, .rsv)])
  | 71 => .ok (.cas (fld w 21 4) (fld w 14 7) (fld w 7 7) (fld w 0 7) (fld x 29 3) (fld x 27 2) (fld x 16 2) (fld x 0 16), [(fld x 23 4 != 0, .xop), (fld x 18 5 != 0, .rsv)])
  | 72 => .ok (.mset (fld w 22 3) (fld w 19 3) (fld w 16 3) (fld w 14 2), [(fld w 0 14 != 0, .rsv)])
  | 73 => .ok (.mld (fld w 21 4) (fld w 14 7) (fld w 7 7) (fld w 0 7), [])
  | 74 => .ok (.mst (fld w 21 4) (fld w 14 7) (fld w 7 7) (fld w 0 7), [])
  | 75 => .ok (.mmov (fld w 14 7) (fld w 7 7), [(fld w 21 4 != 0, .min), (fld w 0 7 != 0, .rsv)])
  | 76 => .ok (.midn (fld w 14 7), [(fld w 21 4 != 0, .min), (fld w 0 14 != 0, .rsv)])
  | 77 => .ok (.mtrn (fld w 14 7) (fld w 7 7), [(fld w 21 4 != 0, .min), (fld w 0 7 != 0, .rsv)])
  | 78 => .ok (.madd (fld w 21 4) (fld w 14 7) (fld w 7 7) (fld w 0 7), [])
  | 79 => .ok (.mmul (fld w 23 1) (fld w 22 1) (fld w 21 1) (fld w 14 7) (fld w 7 7) (fld w 0 7), [(fld w 24 1 != 0, .rsv)])
  | 80 => .ok (.mchol (fld w 21 2) (fld w 14 7) (fld w 7 7) (fld w 0 7), [(fld w 23 2 != 0, .rsv)])
  | 81 => .ok (.mlup (fld w 21 2) (fld w 14 7) (fld w 7 7) (fld w 0 7), [(fld w 23 2 != 0, .rsv)])
  | 82 => .ok (.mtrs (fld w 24 1) (fld w 23 1) (fld w 22 1) (fld w 21 1) (fld w 14 7) (fld w 7 7) (fld w 0 7), [])
  | 83 => .ok (.msolv (fld w 23 1) (fld w 21 2) (fld w 14 7) (fld w 7 7) (fld w 0 7), [(fld w 24 1 != 0, .rsv)])
  | 84 => .ok (.mred (fld w 21 4) (fld w 14 7) (fld w 7 7), [(fld w 0 7 != 0, .rsv)])
  | 85 => .ok (.xmma (fld w 21 4) (fld w 7 7) (fld w 0 7) (fld x 23 4) (fld x 16 7) (fld x 0 12), [(fld w 14 7 != 0, .rsv), (fld x 27 5 != 0, .xop), (fld x 12 4 != 0, .rsv)])
  | 86 =>
    match (fld w 21 4).toNat with
    | 0 => .ok (.xaccZero (fld w 7 7), [(fld w 14 7 != 0, .rsv), (fld w 0 7 != 0, .rsv)])
    | 1 => .ok (.xaccRd (fld w 14 7) (fld w 7 7) (fld w 0 7), [])
    | 2 => .ok (.xaccWr (fld w 14 7) (fld w 7 7) (fld w 0 7), [])
    | 3 => .ok (.xaccTile (fld w 14 7) (fld w 7 7), [(fld w 0 7 != 0, .rsv)])
    | _ => .error .min
  | 87 => .ok (.tgath (fld w 14 7) (fld w 7 7) (fld w 0 7) (fld x 29 3) (fld x 27 2) (fld x 23 4) (fld x 16 7) (fld x 0 10), [(fld w 21 4 != 0, .min), (fld x 10 6 != 0, .rsv)])
  | 88 => .ok (.bra (fld w 23 2) (fld w 0 23), [])
  | 89 => .ok (.call (fld w 23 2) (fld w 0 23), [])
  | 90 => .ok (.ret, [(fld w 21 4 != 0, .min), (fld w 0 21 != 0, .rsv)])
  | 91 => .ok (.jmpr (fld w 7 7), [(fld w 21 4 != 0, .min), (fld w 14 7 != 0, .rsv), (fld w 0 7 != 0, .rsv)])
  | 92 => .ok (.rejoin (fld w 0 7) (fld x 0 16), [(fld w 21 4 != 0, .min), (fld w 7 14 != 0, .rsv), (fld x 23 9 != 0, .xop), (fld x 16 7 != 0, .rsv)])
  | 93 => .ok (.fspawn (fld w 14 7) (fld w 7 7) (fld x 0 16), [(fld w 21 4 != 0, .min), (fld w 0 7 != 0, .rsv), (fld x 23 9 != 0, .xop), (fld x 16 7 != 0, .rsv)])
  | 94 => .ok (.fend, [(fld w 21 4 != 0, .min), (fld w 0 21 != 0, .rsv)])
  | 95 => .ok (.exit, [(fld w 21 4 != 0, .min), (fld w 0 21 != 0, .rsv)])
  | 96 => .ok (.fenter (fld w 14 8), [(fld w 22 3 != 0, .sub), (fld w 0 14 != 0, .rsv)])
  | 97 => .ok (.fleave (fld w 14 8), [(fld w 22 3 != 0, .sub), (fld w 0 14 != 0, .rsv)])
  | 98 => .ok (.bar (fld w 22 3) (fld w 14 8), [(fld w 0 14 != 0, .rsv)])
  | 99 =>
    match (fld w 21 4).toNat with
    | 0 => .ok (.mwaitWatch (fld w 7 7) (fld w 0 7), [(fld w 14 7 != 0, .rsv)])
    | 1 => .ok (.mwaitWait (fld w 14 7) (fld w 7 7), [(fld w 0 7 != 0, .rsv)])
    | _ => .error .min
  | 100 => .ok (.yield, [(fld w 21 4 != 0, .min), (fld w 0 21 != 0, .rsv)])
  | 101 => .ok (.trap (fld w 14 8), [(fld w 22 3 != 0, .sub), (fld w 0 14 != 0, .rsv)])
  | 102 => .ok (.rett, [(fld w 21 4 != 0, .min), (fld w 0 21 != 0, .rsv)])
  | 103 => .ok (.lnch (fld w 14 7) (fld w 7 7) (fld x 29 3) (fld x 27 2) (fld x 16 7), [(fld w 21 4 != 0, .min), (fld w 0 7 != 0, .rsv), (fld x 23 4 != 0, .xop), (fld x 0 16 != 0, .rsv)])
  | 104 => .ok (.ldl (fld w 21 4) (fld w 14 7) (fld w 7 7) (fld w 0 7), [])
  | 105 => .ok (.stl (fld w 21 4) (fld w 14 7) (fld w 7 7) (fld w 0 7), [])
  | 106 => .ok (.ldf (fld w 21 4) (fld w 14 7) (fld w 7 7) (fld w 0 7), [])
  | 107 => .ok (.stf (fld w 21 4) (fld w 14 7) (fld w 7 7) (fld w 0 7), [])
  | 108 => .ok (.ldr (fld w 21 4) (fld w 14 7) (fld w 7 7) (fld w 0 7), [])
  | 109 => .ok (.str (fld w 21 4) (fld w 14 7) (fld w 7 7) (fld w 0 7), [])
  | 110 => .ok (.ldk (fld w 21 4) (fld w 14 7) (fld w 7 7) (fld x 29 3) (fld x 27 2) (fld x 23 4) (fld x 16 7) (fld x 0 16), [(fld w 0 7 != 0, .rsv)])
  | 111 => .ok (.stk (fld w 21 4) (fld w 14 7) (fld w 7 7) (fld x 29 3) (fld x 27 2) (fld x 23 4) (fld x 16 7) (fld x 0 16), [(fld w 0 7 != 0, .rsv)])
  | 112 => .ok (.ldri (fld w 22 3) (fld w 14 8) (fld w 7 7) (fld w 0 7), [])
  | 113 => .ok (.stri (fld w 22 3) (fld w 14 8) (fld w 7 7) (fld w 0 7), [])
  | 114 => .ok (.ldli (fld w 22 3) (fld w 14 8) (fld w 7 7) (fld w 0 7), [])
  | 115 => .ok (.stli (fld w 22 3) (fld w 14 8) (fld w 7 7) (fld w 0 7), [])
  | 116 =>
    match (fld w 22 3).toNat with
    | 0 => .ok (.frmLd (fld w 18 4) (fld w 14 4) (fld w 7 7), [(fld w 0 7 != 0, .rsv)])
    | 1 => .ok (.frmSt (fld w 18 4) (fld w 14 4) (fld w 0 7), [(fld w 7 7 != 0, .rsv)])
    | _ => .error .sub
  | 117 =>
    match (fld w 22 3).toNat with
    | 0 => .ok (.tileDef (fld w 7 7) (fld w 0 7), [(fld w 14 8 != 0, .rsv)])
    | 1 => .ok (.tileQry (fld w 7 7) (fld w 0 7), [(fld w 14 8 != 0, .rsv)])
    | 2 => .ok (.tileSet (fld w 15 1) (fld w 0 7), [(fld w 16 6 != 0, .rsv), (fld w 7 8 != 0, .rsv)])
    | 3 => .ok (.tileFree (fld w 0 7), [(fld w 7 15 != 0, .rsv)])
    | _ => .error .sub
  | 118 => .ok (.tget (fld w 14 7) (fld w 7 7) (fld x 29 3) (fld x 27 2) (fld x 23 4) (fld x 16 7), [(fld w 21 4 != 0, .min), (fld w 0 7 != 0, .rsv), (fld x 0 16 != 0, .rsv)])
  | 119 => .ok (.tins (fld w 21 1) (fld w 14 7) (fld w 7 7) (fld w 0 7) (fld x 29 3) (fld x 27 2) (fld x 23 4) (fld x 16 7) (fld x 0 16), [(fld w 22 3 != 0, .min)])
  | 120 => .ok (.tdel (fld w 14 7) (fld w 7 7) (fld x 29 3) (fld x 27 2) (fld x 23 4) (fld x 16 7), [(fld w 21 4 != 0, .min), (fld w 0 7 != 0, .rsv), (fld x 0 16 != 0, .rsv)])
  | 121 =>
    match (fld w 21 4).toNat with
    | 0 => .ok (.tupdVal (fld w 14 7) (fld w 7 7) (fld w 0 7) (fld x 29 3) (fld x 27 2) (fld x 23 4) (fld x 16 7) (fld x 0 16), [])
    | 1 => .ok (.tupdFmt (fld w 14 7) (fld w 7 7) (fld w 0 7) (fld x 29 3) (fld x 27 2) (fld x 23 4) (fld x 16 7), [(fld x 0 16 != 0, .rsv)])
    | _ => .error .min
  | 122 => .ok (.tseek (fld w 23 1) (fld w 21 2) (fld w 14 7) (fld w 7 7) (fld x 29 3) (fld x 27 2) (fld x 23 4) (fld x 16 7), [(fld w 24 1 != 0, .rsv), (fld w 0 7 != 0, .rsv), (fld x 0 16 != 0, .rsv)])
  | 123 =>
    match (fld w 21 4).toNat with
    | 0 => .ok (.tcurStep (fld w 14 7) (fld w 7 7) (fld w 0 7), [])
    | 1 => .ok (.tcurClose (fld w 7 7), [(fld w 14 7 != 0, .rsv), (fld w 0 7 != 0, .rsv)])
    | 2 => .ok (.tcurKey (fld w 14 7) (fld w 7 7), [(fld w 0 7 != 0, .rsv)])
    | _ => .error .min
  | 124 => .ok (.rcall (fld w 14 7) (fld w 7 7) (fld x 29 3) (fld x 27 2) (fld x 16 7) (fld x 0 6), [(fld w 21 4 != 0, .min), (fld w 0 7 != 0, .rsv), (fld x 23 4 != 0, .xop), (fld x 6 10 != 0, .rsv)])
  | 125 =>
    match (fld w 21 4).toNat with
    | 0 => .ok (.rreadRead (fld w 14 7) (fld w 7 7) (fld w 0 7) (fld x 29 3) (fld x 27 2) (fld x 16 7) (fld x 0 6), [(fld x 23 4 != 0, .xop), (fld x 6 10 != 0, .rsv)])
    | 1 => .ok (.rreadWait (fld w 14 7) (fld w 0 7) (fld x 29 3) (fld x 27 2) (fld x 16 7), [(fld w 7 7 != 0, .rsv), (fld x 23 4 != 0, .xop), (fld x 0 16 != 0, .rsv)])
    | 2 => .ok (.rreadStat (fld w 14 7) (fld x 29 3) (fld x 27 2) (fld x 16 7), [(fld w 0 14 != 0, .rsv), (fld x 23 4 != 0, .xop), (fld x 0 16 != 0, .rsv)])
    | _ => .error .min
  | 126 =>
    match (fld w 21 4).toNat with
    | 0 => .ok (.syncIsync, [(fld w 0 21 != 0, .rsv)])
    | 1 => .ok (.syncIcinv (fld w 7 7) (fld w 0 7), [(fld w 14 7 != 0, .rsv)])
    | 2 => .ok (.syncDcwb (fld w 7 7) (fld w 0 7), [(fld w 14 7 != 0, .rsv)])
    | 3 => .ok (.syncDcinv (fld w 7 7) (fld w 0 7), [(fld w 14 7 != 0, .rsv)])
    | _ => .error .min
  | 127 => .ok (.rep (fld w 19 6) (fld w 16 3) (fld w 13 3), [(fld w 0 13 != 0, .rsv)])
  | _ => .error .rsv

/-- What a slot word and the word after it encode. -/
def decodeWord (w x : Word) : Except InsnCode Instr :=
  match rowOf w x with
  | .ok (i, cs) => verdict i cs
  | .error e => .error e

/-- What the word of slot `k` of a quad encodes: a pair in slot 3 faults INSN.PAIR (01 R26, R34). -/
def decodeSlot (k : Nat) (w x : Word) : Except InsnCode Instr :=
  if pairedMaj (majOf w) && k == 3 then .error .pair else decodeWord w x

/-- Whether a slot of a quad holds the second word of a pair, found by decoding the slots in order (01 R26). -/
def secondWord (slot1 slot2 : Word) (k : Nat) : Bool :=
  if pairedMaj (majOf slot1) then k == 2 else pairedMaj (majOf slot2) && k == 3

/-- The words of an instruction: one, or two for a pair; none for the rows that are no slot word. -/
def encode : Instr → List Word
  | .nop => [0]
  | .iadd u t d a b => [(1#7 ++ u ++ t ++ d ++ a ++ b : BitVec 32)]
  | .isub u t d a b => [(2#7 ++ u ++ t ++ d ++ a ++ b : BitVec 32)]
  | .iaddc u t d a b => [(3#7 ++ u ++ t ++ d ++ a ++ b : BitVec 32)]
  | .imul u t d a b => [(4#7 ++ u ++ t ++ d ++ a ++ b : BitVec 32)]
  | .imulh u t d a b => [(5#7 ++ u ++ t ++ d ++ a ++ b : BitVec 32)]
  | .imad u t d a b => [(6#7 ++ u ++ t ++ d ++ a ++ b : BitVec 32)]
  | .imin u t d a b => [(7#7 ++ u ++ t ++ d ++ a ++ b : BitVec 32)]
  | .imax u t d a b => [(8#7 ++ u ++ t ++ d ++ a ++ b : BitVec 32)]
  | .iabs t d a => [(9#7 ++ 0#1 ++ t ++ d ++ a ++ 0#7 : BitVec 32)]
  | .icmp u t f a b => [(10#7 ++ u ++ t ++ 0#5 ++ f ++ a ++ b : BitVec 32)]
  | .andR u t d a b => [(11#7 ++ u ++ t ++ d ++ a ++ b : BitVec 32)]
  | .orR u t d a b => [(12#7 ++ u ++ t ++ d ++ a ++ b : BitVec 32)]
  | .xorR u t d a b => [(13#7 ++ u ++ t ++ d ++ a ++ b : BitVec 32)]
  | .andnR u t d a b => [(14#7 ++ u ++ t ++ d ++ a ++ b : BitVec 32)]
  | .shl u t d a b => [(15#7 ++ u ++ t ++ d ++ a ++ b : BitVec 32)]
  | .shr u t d a b => [(16#7 ++ u ++ t ++ d ++ a ++ b : BitVec 32)]
  | .sar u t d a b => [(17#7 ++ u ++ t ++ d ++ a ++ b : BitVec 32)]
  | .rot u t d a b => [(18#7 ++ u ++ t ++ d ++ a ++ b : BitVec 32)]
  | .popc t d a => [(19#7 ++ 0#1 ++ t ++ d ++ a ++ 0#7 : BitVec 32)]
  | .clz t d a => [(20#7 ++ 0#1 ++ t ++ d ++ a ++ 0#7 : BitVec 32)]
  | .brev t d a => [(21#7 ++ 0#1 ++ t ++ d ++ a ++ 0#7 : BitVec 32)]
  | .bfx u t d a b => [(22#7 ++ u ++ t ++ d ++ a ++ b : BitVec 32)]
  | .bfi u t d a b => [(23#7 ++ u ++ t ++ d ++ a ++ b : BitVec 32)]
  | .iaddi t i d a => [(24#7 ++ t ++ i ++ d ++ a : BitVec 32)]
  | .andi t i d a => [(25#7 ++ t ++ i ++ d ++ a : BitVec 32)]
  | .ori t i d a => [(26#7 ++ t ++ i ++ d ++ a : BitVec 32)]
  | .xori t i d a => [(27#7 ++ t ++ i ++ d ++ a : BitVec 32)]
  | .shli t i d a => [(28#7 ++ t ++ i ++ d ++ a : BitVec 32)]
  | .shri t i d a => [(29#7 ++ t ++ i ++ d ++ a : BitVec 32)]
  | .sari t i d a => [(30#7 ++ t ++ i ++ d ++ a : BitVec 32)]
  | .icmpi t i f a => [(31#7 ++ t ++ i ++ 0#5 ++ f ++ a : BitVec 32)]
  | .movi s i d => [(32#7 ++ 0#2 ++ s ++ i ++ d ++ 0#7 : BitVec 32)]
  | .mov x y d a => [(33#7 ++ x ++ 0#2 ++ y ++ d ++ a ++ 0#7 : BitVec 32)]
  | .sel u f d a b => [(34#7 ++ u ++ 0#1 ++ f ++ d ++ a ++ b : BitVec 32)]
  | .srd n d => [(35#7 ++ 0#3 ++ n ++ d ++ 0#7 : BitVec 32)]
  | .srdCyc d => [(35#7 ++ 0#3 ++ 8#8 ++ d ++ 0#7 : BitVec 32)]
  | .swr n a => [(36#7 ++ 0#3 ++ n ++ 0#7 ++ a : BitVec 32)]
  | .swrWstat a => [(36#7 ++ 0#3 ++ 11#8 ++ 0#7 ++ a : BitVec 32)]
  | .swrSlim a => [(36#7 ++ 0#3 ++ 12#8 ++ 0#7 ++ a : BitVec 32)]
  | .swrTrappc a => [(36#7 ++ 0#3 ++ 17#8 ++ 0#7 ++ a : BitVec 32)]
  | .v2s m d a => [(37#7 ++ m ++ d ++ a ++ 0#7 : BitVec 32)]
  | .salu m d a b => [(38#7 ++ m ++ d ++ a ++ b : BitVec 32)]
  | .smovi k i d => [(39#7 ++ k ++ i ++ d ++ 0#7 : BitVec 32)]
  | .regsWbase i => [(40#7 ++ 0#3 ++ i ++ 0#7 ++ 0#7 : BitVec 32)]
  | .regsXacq i => [(40#7 ++ 1#3 ++ i ++ 0#7 ++ 0#7 : BitVec 32)]
  | .regsXacqGrant _ => []
  | .regsXrel i => [(40#7 ++ 2#3 ++ i ++ 0#7 ++ 0#7 : BitVec 32)]
  | .regsXqry d => [(40#7 ++ 3#3 ++ 0#8 ++ d ++ 0#7 : BitVec 32)]
  | .cpl g d a b o c x => [(41#7 ++ 0#2 ++ g ++ d ++ a ++ b : BitVec 32), (0#3 ++ 0#2 ++ o ++ c ++ x : BitVec 32)]
  | .cplComplete _ _ => []
  | .cpb m d a o x => [(42#7 ++ m ++ d ++ a ++ 0#7 : BitVec 32), (0#3 ++ 0#2 ++ o ++ 0#7 ++ x : BitVec 32)]
  | .cpbComplete _ _ => []
  | .waitc c n => [(43#7 ++ c ++ n ++ 0#7 ++ 0#7 : BitVec 32)]
  | .qpop q w d => [(44#7 ++ q ++ 0#6 ++ w ++ d ++ 0#7 : BitVec 32)]
  | .qpush q w a => [(45#7 ++ q ++ 0#6 ++ w ++ 0#7 ++ a : BitVec 32)]
  | .spldLoad a => [(46#7 ++ 0#3 ++ 0#8 ++ 0#7 ++ a : BitVec 32)]
  | .spldStop => [(46#7 ++ 1#3 ++ 0#8 ++ 0#7 ++ 0#7 : BitVec 32)]
  | .spldQry d => [(46#7 ++ 2#3 ++ 0#8 ++ d ++ 0#7 : BitVec 32)]
  | .streamOperation _ => []
  | .dfence a => [(47#7 ++ 0#3 ++ 0#8 ++ 0#7 ++ a : BitVec 32)]
  | .dfenceComplete _ _ => []
  | .fadd t r d a b => [(48#7 ++ t ++ r ++ d ++ a ++ b : BitVec 32)]
  | .fsub t r d a b => [(49#7 ++ t ++ r ++ d ++ a ++ b : BitVec 32)]
  | .fmul t r d a b => [(50#7 ++ t ++ r ++ d ++ a ++ b : BitVec 32)]
  | .ffma t r d a b => [(51#7 ++ t ++ r ++ d ++ a ++ b : BitVec 32)]
  | .fmin t n d a b => [(52#7 ++ t ++ n ++ d ++ a ++ b : BitVec 32)]
  | .fmax t n d a b => [(53#7 ++ t ++ n ++ d ++ a ++ b : BitVec 32)]
  | .fcmp t f a b => [(54#7 ++ t ++ f ++ 0#7 ++ a ++ b : BitVec 32)]
  | .fmod t o d a b => [(55#7 ++ t ++ o ++ d ++ a ++ b : BitVec 32)]
  | .frint t r d a => [(56#7 ++ t ++ r ++ d ++ a ++ 0#7 : BitVec 32)]
  | .f2i t r d a k => [(57#7 ++ t ++ r ++ d ++ a ++ k : BitVec 32)]
  | .i2f t r d a k => [(58#7 ++ t ++ r ++ d ++ a ++ k : BitVec 32)]
  | .fcvt v d a r s p => [(59#7 ++ v ++ d ++ a ++ r ++ s ++ p : BitVec 32)]
  | .sfu t m d a f => [(60#7 ++ t ++ m ++ d ++ a ++ f : BitVec 32)]
  | .welf t r d a => [(61#7 ++ t ++ r ++ d ++ a ++ 0#7 : BitVec 32)]
  | .wmrg t r d a => [(62#7 ++ t ++ r ++ d ++ a ++ 0#7 : BitVec 32)]
  | .fence l o s => [(63#7 ++ 0#1 ++ l ++ o ++ 0#4 ++ s ++ 0#7 ++ 0#7 : BitVec 32)]
  | .shfl m d a b => [(64#7 ++ 0#2 ++ m ++ d ++ a ++ b : BitVec 32)]
  | .shfli m g d a => [(65#7 ++ 0#1 ++ m ++ g ++ d ++ a : BitVec 32)]
  | .shpush c n d a b => [(66#7 ++ c ++ n ++ d ++ a ++ b : BitVec 32)]
  | .vote f k d a b => [(67#7 ++ f ++ k ++ d ++ a ++ b : BitVec 32)]
  | .lred o t d a b => [(68#7 ++ o ++ t ++ d ++ a ++ b : BitVec 32)]
  | .lscan o t d a b => [(69#7 ++ o ++ t ++ d ++ a ++ b : BitVec 32)]
  | .amo m d a b sc ord o x => [(70#7 ++ m ++ d ++ a ++ b : BitVec 32), (sc ++ ord ++ o ++ 0#7 ++ x : BitVec 32)]
  | .cas m d a b sc ord f x => [(71#7 ++ m ++ d ++ a ++ b : BitVec 32), (sc ++ ord ++ 0#4 ++ 0#5 ++ f ++ x : BitVec 32)]
  | .mset m k n l => [(72#7 ++ m ++ k ++ n ++ l ++ 0#7 ++ 0#7 : BitVec 32)]
  | .mld f d a b => [(73#7 ++ f ++ d ++ a ++ b : BitVec 32)]
  | .mst f d a b => [(74#7 ++ f ++ d ++ a ++ b : BitVec 32)]
  | .mmov d a => [(75#7 ++ 0#4 ++ d ++ a ++ 0#7 : BitVec 32)]
  | .midn d => [(76#7 ++ 0#4 ++ d ++ 0#7 ++ 0#7 : BitVec 32)]
  | .mtrn d a => [(77#7 ++ 0#4 ++ d ++ a ++ 0#7 : BitVec 32)]
  | .madd m d a b => [(78#7 ++ m ++ d ++ a ++ b : BitVec 32)]
  | .mmul x y z d a b => [(79#7 ++ 0#1 ++ x ++ y ++ z ++ d ++ a ++ b : BitVec 32)]
  | .mchol f d a b => [(80#7 ++ 0#2 ++ f ++ d ++ a ++ b : BitVec 32)]
  | .mlup f d a b => [(81#7 ++ 0#2 ++ f ++ d ++ a ++ b : BitVec 32)]
  | .mtrs p t u y d a b => [(82#7 ++ p ++ t ++ u ++ y ++ d ++ a ++ b : BitVec 32)]
  | .msolv m f d a b => [(83#7 ++ 0#1 ++ m ++ f ++ d ++ a ++ b : BitVec 32)]
  | .mred m d a => [(84#7 ++ m ++ d ++ a ++ 0#7 : BitVec 32)]
  | .smallMatrixComplete _ _ => []
  | .xmma m a b o c x => [(85#7 ++ m ++ 0#7 ++ a ++ b : BitVec 32), (0#3 ++ 0#2 ++ o ++ c ++ 0#4 ++ x : BitVec 32)]
  | .xmmaComplete _ _ => []
  | .xaccZero a => [(86#7 ++ 0#4 ++ 0#7 ++ a ++ 0#7 : BitVec 32)]
  | .xaccRd d a b => [(86#7 ++ 1#4 ++ d ++ a ++ b : BitVec 32)]
  | .xaccWr d a b => [(86#7 ++ 2#4 ++ d ++ a ++ b : BitVec 32)]
  | .xaccTile d a => [(86#7 ++ 3#4 ++ d ++ a ++ 0#7 : BitVec 32)]
  | .xaccTileComplete _ _ => []
  | .tgath d a b sc ord o c x => [(87#7 ++ 0#4 ++ d ++ a ++ b : BitVec 32), (sc ++ ord ++ o ++ c ++ 0#6 ++ x : BitVec 32)]
  | .tgathComplete _ _ => []
  | .engineSideFault _ _ => []
  | .bra s o => [(88#7 ++ s ++ o : BitVec 32)]
  | .call s o => [(89#7 ++ s ++ o : BitVec 32)]
  | .ret => [(90#7 ++ 0#4 ++ 0#7 ++ 0#7 ++ 0#7 : BitVec 32)]
  | .jmpr a => [(91#7 ++ 0#4 ++ 0#7 ++ a ++ 0#7 : BitVec 32)]
  | .rejoin b x => [(92#7 ++ 0#4 ++ 0#7 ++ 0#7 ++ b : BitVec 32), (0#3 ++ 0#2 ++ 0#4 ++ 0#7 ++ x : BitVec 32)]
  | .fspawn d a x => [(93#7 ++ 0#4 ++ d ++ a ++ 0#7 : BitVec 32), (0#3 ++ 0#2 ++ 0#4 ++ 0#7 ++ x : BitVec 32)]
  | .fend => [(94#7 ++ 0#4 ++ 0#7 ++ 0#7 ++ 0#7 : BitVec 32)]
  | .exit => [(95#7 ++ 0#4 ++ 0#7 ++ 0#7 ++ 0#7 : BitVec 32)]
  | .fenter n => [(96#7 ++ 0#3 ++ n ++ 0#7 ++ 0#7 : BitVec 32)]
  | .fleave n => [(97#7 ++ 0#3 ++ n ++ 0#7 ++ 0#7 : BitVec 32)]
  | .bar k i => [(98#7 ++ k ++ i ++ 0#7 ++ 0#7 : BitVec 32)]
  | .mwaitWatch a b => [(99#7 ++ 0#4 ++ 0#7 ++ a ++ b : BitVec 32)]
  | .mwaitWait d a => [(99#7 ++ 1#4 ++ d ++ a ++ 0#7 : BitVec 32)]
  | .monitorFire _ _ _ => []
  | .mwaitTimeout _ _ _ => []
  | .yield => [(100#7 ++ 0#4 ++ 0#7 ++ 0#7 ++ 0#7 : BitVec 32)]
  | .yieldExpiry _ _ _ => []
  | .trap n => [(101#7 ++ 0#3 ++ n ++ 0#7 ++ 0#7 : BitVec 32)]
  | .rett => [(102#7 ++ 0#4 ++ 0#7 ++ 0#7 ++ 0#7 : BitVec 32)]
  | .lnch d a sc ord c => [(103#7 ++ 0#4 ++ d ++ a ++ 0#7 : BitVec 32), (sc ++ ord ++ 0#4 ++ c ++ 0#16 : BitVec 32)]
  | .ldl f d a b => [(104#7 ++ f ++ d ++ a ++ b : BitVec 32)]
  | .stl f d a b => [(105#7 ++ f ++ d ++ a ++ b : BitVec 32)]
  | .ldf f d a b => [(106#7 ++ f ++ d ++ a ++ b : BitVec 32)]
  | .stf f d a b => [(107#7 ++ f ++ d ++ a ++ b : BitVec 32)]
  | .ldr f d a b => [(108#7 ++ f ++ d ++ a ++ b : BitVec 32)]
  | .str f d a b => [(109#7 ++ f ++ d ++ a ++ b : BitVec 32)]
  | .ldk f d a sc ord o c x => [(110#7 ++ f ++ d ++ a ++ 0#7 : BitVec 32), (sc ++ ord ++ o ++ c ++ x : BitVec 32)]
  | .stk f d a sc ord o c x => [(111#7 ++ f ++ d ++ a ++ 0#7 : BitVec 32), (sc ++ ord ++ o ++ c ++ x : BitVec 32)]
  | .ldri f i d a => [(112#7 ++ f ++ i ++ d ++ a : BitVec 32)]
  | .stri f i d a => [(113#7 ++ f ++ i ++ d ++ a : BitVec 32)]
  | .ldli f i d a => [(114#7 ++ f ++ i ++ d ++ a : BitVec 32)]
  | .stli f i d a => [(115#7 ++ f ++ i ++ d ++ a : BitVec 32)]
  | .rowAccessComplete _ _ => []
  | .frmLd n k d => [(116#7 ++ 0#3 ++ n ++ k ++ d ++ 0#7 : BitVec 32)]
  | .frmSt n k a => [(116#7 ++ 1#3 ++ n ++ k ++ 0#7 ++ a : BitVec 32)]
  | .tileDef d a => [(117#7 ++ 0#3 ++ 0#8 ++ d ++ a : BitVec 32)]
  | .tileQry d a => [(117#7 ++ 1#3 ++ 0#8 ++ d ++ a : BitVec 32)]
  | .tileSet s a => [(117#7 ++ 2#3 ++ 0#6 ++ s ++ 0#1 ++ 0#7 ++ a : BitVec 32)]
  | .tileFree a => [(117#7 ++ 3#3 ++ 0#8 ++ 0#7 ++ a : BitVec 32)]
  | .tget d a sc ord o c => [(118#7 ++ 0#4 ++ d ++ a ++ 0#7 : BitVec 32), (sc ++ ord ++ o ++ c ++ 0#16 : BitVec 32)]
  | .tins m d a b sc ord o c x => [(119#7 ++ 0#3 ++ m ++ d ++ a ++ b : BitVec 32), (sc ++ ord ++ o ++ c ++ x : BitVec 32)]
  | .tdel d a sc ord o c => [(120#7 ++ 0#4 ++ d ++ a ++ 0#7 : BitVec 32), (sc ++ ord ++ o ++ c ++ 0#16 : BitVec 32)]
  | .tupdVal d a b sc ord o c x => [(121#7 ++ 0#4 ++ d ++ a ++ b : BitVec 32), (sc ++ ord ++ o ++ c ++ x : BitVec 32)]
  | .tupdFmt d a b sc ord o c => [(121#7 ++ 1#4 ++ d ++ a ++ b : BitVec 32), (sc ++ ord ++ o ++ c ++ 0#16 : BitVec 32)]
  | .indexEngineOperation _ => []
  | .tseek v m d a sc ord o c => [(122#7 ++ 0#1 ++ v ++ m ++ d ++ a ++ 0#7 : BitVec 32), (sc ++ ord ++ o ++ c ++ 0#16 : BitVec 32)]
  | .tcurStep d a b => [(123#7 ++ 0#4 ++ d ++ a ++ b : BitVec 32)]
  | .tcurClose a => [(123#7 ++ 1#4 ++ 0#7 ++ a ++ 0#7 : BitVec 32)]
  | .tcurKey d a => [(123#7 ++ 2#4 ++ d ++ a ++ 0#7 : BitVec 32)]
  | .rcall d a sc ord c m => [(124#7 ++ 0#4 ++ d ++ a ++ 0#7 : BitVec 32), (sc ++ ord ++ 0#4 ++ c ++ 0#10 ++ m : BitVec 32)]
  | .logAppend _ => []
  | .replayApply _ _ _ => []
  | .rreadRead d a b sc ord c m => [(125#7 ++ 0#4 ++ d ++ a ++ b : BitVec 32), (sc ++ ord ++ 0#4 ++ c ++ 0#10 ++ m : BitVec 32)]
  | .rreadWait d b sc ord c => [(125#7 ++ 1#4 ++ d ++ 0#7 ++ b : BitVec 32), (sc ++ ord ++ 0#4 ++ c ++ 0#16 : BitVec 32)]
  | .rreadStat d sc ord c => [(125#7 ++ 2#4 ++ d ++ 0#7 ++ 0#7 : BitVec 32), (sc ++ ord ++ 0#4 ++ c ++ 0#16 : BitVec 32)]
  | .rreadReturn _ => []
  | .syncIsync => [(126#7 ++ 0#4 ++ 0#7 ++ 0#7 ++ 0#7 : BitVec 32)]
  | .syncIcinv a b => [(126#7 ++ 1#4 ++ 0#7 ++ a ++ b : BitVec 32)]
  | .syncDcwb a b => [(126#7 ++ 2#4 ++ 0#7 ++ a ++ b : BitVec 32)]
  | .syncDcinv a b => [(126#7 ++ 3#4 ++ 0#7 ++ a ++ b : BitVec 32)]
  | .rep c s t => [(127#7 ++ c ++ s ++ t ++ 0#13 : BitVec 32)]
  | .priorityStandingRaise _ _ => []
  | .warpRetire _ _ => []
  | .doneIncrement _ _ => []
  | .trapEntry _ _ => []
  | .queuePoll _ => []
  | .gangPlacement _ => []
  | .preemption _ => []
  | .preemptionSave _ => []
  | .drainTimeout _ => []
  | .cmdDirSet => []
  | .cmdDirClr => []
  | .cmdObjSet => []
  | .cmdObjClr => []
  | .cmdXlatInv => []
  | .cmdQueueSet => []
  | .cmdQueueClr => []
  | .cmdRegionHalt => []
  | .cmdContainClr => []
  | .cmdLineClr => []
  | .cmdReserved => []
  | .ident => []
  | .attest _ => []
  | .resync => []
  | .keySet _ _ => []
  | .keyClr _ => []
  | .peerMap _ _ => []
  | .fwLoad _ _ => []
  | .deviceReset => []
  | .hostWrite _ _ => []
  | .hostRead _ _ => []
  | .heatCodeWrite _ _ _ => []
  | .spareSwap _ => []
  | .patrolScrub _ _ => []
  | .bankFreeze _ => []
  | .freezeComplete _ => []
  | .thawComplete _ => []
  | .coherenceAckTimeout _ => []
  | .linkDead _ => []
  | .dieWatchdog _ => []
  | .pageWalkComplete _ _ => []
  | .regionMerge _ => []
  | .dramAccessArrival _ => []
  | .dramServiceComplete _ => []
  | .refreshDue _ => []
  | .refreshComplete _ => []
  | .idleRepay _ => []
  | .selfRefreshEntry _ => []
  | .selfRefreshExitComplete _ => []
  | .pageReencryptionComplete _ => []
  | .keyRotation _ => []
  | .keySweepComplete _ => []
  | .streamFetchComplete _ => []
  | .syncComplete _ _ _ => []
  | .fenceComplete _ _ _ => []
  | .spareSwapComplete _ => []
  | .linkRetrainComplete _ => []
  | .cxlCacheSnoop _ _ => []
  | .remoteDeviceAccess _ _ _ => []
  | .logMirrorCopyComplete _ _ => []

/-- The 32-bit word that bytes make, least significant first (00 R9). -/
def wordOfBytes (b0 b1 b2 b3 : Byte) : Word := b3 ++ b2 ++ b1 ++ b0

/-- The bytes of a word, least significant first. -/
def bytesOfWord (w : Word) : List Byte := [fld w 0 8, fld w 8 8, fld w 16 8, fld w 24 8]

/-- A slot word and its X word from eight bytes in memory order. -/
def decodeBytes : List Byte → Except InsnCode Instr
  | [a0, a1, a2, a3, b0, b1, b2, b3] => decodeWord (wordOfBytes a0 a1 a2 a3) (wordOfBytes b0 b1 b2 b3)
  | _ => .error .rsv

/-- The table's numbering: bit 0 is the least significant bit of the first word, and the X word's bits count on from
bit 32; bits above `nbits` are zero. -/
def decodeTableWord (nbits w : Nat) : Option Instr :=
  let v := w % 2 ^ nbits
  match decodeBytes (bytesOfWord (BitVec.ofNat 32 v) ++ bytesOfWord (BitVec.ofNat 32 (v / 2 ^ 32))) with
  | .ok i => some i
  | .error _ => none

end Sys2Proof
end

