-- ==== Sys2Proof/Config.lean ====
section
/-! DEFINITION. What an implementation fixes, and the free values. Every constant here that the spec leaves open is
opaque: nothing in Lean can evaluate it. -/

namespace Sys2Proof.Config

/-- Bytes of one cluster's memory: 2 MiB (00 R3). -/
def clusterBytes : Nat := 2097152
/-- Bytes of firn a column offers: 72 MiB (00 R3). -/
def firnBytes : Nat := 75497472
/-- Quads that a core's instruction cache of 64 KiB holds (00 R3). -/
def icacheQuads : Nat := 4096
/-- Lines of 128 bytes that a core's L1 of 128 KiB holds (00 R3). -/
def l1Lines : Nat := 1024
/-- Lines of 128 bytes that an L2 slice of 3 MiB holds (00 R3, R5). -/
def sliceLines : Nat := 24576
/-- L2 slices of a die (00 R3). -/
def slices : Nat := 32
/-- Lines of 128 bytes that a hub's memory-side cache of 256 MiB holds (00 R2, 20 R342). -/
def hubLines : Nat := 2097152
/-- Translations that a core, a cluster and a die cache, and the page walkers of a die (20 R328). -/
def coreXlats : Nat := 64
def clusterXlats : Nat := 2048
def dieXlats : Nat := 32768
def walkers : Nat := 64
/-- Warp slots of a core (00 R3). -/
def warpSlots : Nat := 24
/-- Extended register blocks of a core's pool (09 R188). -/
def poolBlocks : Nat := 16
/-- Cursor entries of a core (13 R267). -/
def cursorEntries : Nat := 2048
/-- Tile table entries of a cluster (09 R202). -/
def tileEntries : Nat := 256
/-- Lines of an accumulator store (11 R231). -/
def accLines : Nat := 4096
/-- Entries of an object's call log (18 R302). -/
def logEntries : Nat := 4096
/-- Active columns per die at bring-up (00 R2). -/
def activeColumns : Nat := 18
/-- Physical columns per die (00 R2). -/
def physColumns : Nat := 20

/-- Where and how firmware places what it creates at bring-up (24 R371, R388): the spec gives no address. -/
structure Bringup where
  asidTable : Nat
  pageTables : Nat
  contextTable : Nat
  ring : Nat
  ringSize : Nat
  region : Nat
  regionSlot : Nat
  queue : Nat
  queueSlot : Nat
  ringInc : Nat
  deriving Inhabited

/-- Rows of the command ring. -/
def Bringup.ringRows (b : Bringup) : Nat := b.ringSize % 65536 + 1
/-- A gap of free length before one of the structures, so that none overlaps another and all lie in the first GiB. -/
def gap (n : Nat) : Nat := n % 4096 * 4096
/-- The address of the ASID table, of the page tables, of the context table, of the command ring, of the root's RCB and of the queue
descriptors. -/
def Bringup.asidAt (b : Bringup) : Nat := gap b.asidTable
def Bringup.pagesAt (b : Bringup) : Nat := b.asidAt + 4096 * 8 + gap b.pageTables
def Bringup.contextAt (b : Bringup) : Nat := b.pagesAt + 3 * 4096 + gap b.contextTable
def Bringup.ringAt (b : Bringup) : Nat := b.contextAt + 4096 * 16 + gap b.ring
def Bringup.regionAt (b : Bringup) : Nat := b.ringAt + (64 * b.ringRows + 4095) / 4096 * 4096 + gap b.region
def Bringup.queueAt (b : Bringup) : Nat := b.regionAt + 4096 + gap b.queue

/-- The firmware's own choices (DESIGN CHOICE, log 3). -/
opaque bringup : Bringup

/-- A bit that nobody constrains, one for each step and number (DESIGN CHOICE, log 9). -/
opaque freeBit : Nat → Nat → Bool
/-- A number that nobody constrains, one for each step and number. -/
opaque freeNat : Nat → Nat → Nat

/-- Which of the two bracketing values `sfu` `.sin`, `.cos` and `.tanh` return for a format and an operand: the same on
every core of every part (05 R110, DESIGN CHOICE, log 8); true picks the one away from zero. -/
opaque sfuAway : Nat → Nat → Nat → Bool

/-- The home L2 slice of a cell, a function of its DRAM address that is not architectural (20 R332, DESIGN CHOICE, log 11). -/
opaque homeSlice : Nat → Nat

/-- The byte that the remote device behind a peer-window cell answers, at a moment: what stands there is not the device's own state
(20 R337, DESIGN CHOICE, log 79). -/
opaque remoteByte : Nat → Nat → Byte

/-- The firn or L2 bank that serves a cell: not architectural (24 R386, DESIGN CHOICE, log 11). -/
opaque bankOf : Nat → Nat

/-- The firn row that holds a byte offset of a column's firn: not architectural (24 R385, DESIGN CHOICE, log 11). -/
opaque firnRow : Nat → Nat

/-- The agent that a link leads to, as its place in a list of all agents: the spec gives no table (24 R379, R380, DESIGN CHOICE, log 11). -/
opaque linkAgent : Nat → Nat

/-- SHA-384 of a byte string: left uninterpreted (DESIGN CHOICE, log 10). -/
opaque sha384 : List Byte → List Byte
/-- ECDSA P-384 signature under the device identity key (24 R383, DESIGN CHOICE, log 10). -/
opaque identitySign : List Byte → List Byte
/-- Whether a signature of a firmware image verifies (24 R383, DESIGN CHOICE, log 10). -/
opaque verifies : List Byte → List Byte → Bool
/-- The key that a wrapped key holds (24 R383, DESIGN CHOICE, log 10). -/
opaque unwrapKey : List Byte → Option (List Byte)
/-- The serial number, the version of the firmware images in place, and the certificate chain (24 R383, DESIGN CHOICE, log 10). -/
opaque serial : List Byte
opaque firmwareVersion : List (List Byte) → List Byte
opaque certificates : List Byte
/-- A new AES-256 key that the management plane installs at a key rotation (20 R345, DESIGN CHOICE, log 10). -/
opaque freshKey : Nat → List Byte
/-- A firmware image that the part ships with, and its signature: 0 the boot ROM stage, 1 the management firmware, 2 the control-plane
firmware, in load order (24 R383, DESIGN CHOICE, log 10). -/
opaque firmwareImage : Nat → List Byte × List Byte
/-- The three images. -/
def firmwareImages : List (List Byte × List Byte) := [firmwareImage 0, firmwareImage 1, firmwareImage 2]
/-- Which of the three images a staged image replaces: the spec gives no header (24 R383, DESIGN CHOICE, log 10). -/
opaque imageSlot : List Byte → Nat
/-- The keys, rows and hit counters in the index whose root lies at an address: its format is not given (13 R251, DESIGN CHOICE, log 36). -/
opaque indexKeys : Nat → List (Int × Nat × Nat)

end Sys2Proof.Config
end

