-- ==== Sys2Proof/Machine/Num.lean ====
section
/-! DEFINITION. Number formats, exact values, rounding and the special functions (03, 05 R103 to R111). Every value is
computed exactly first and rounded once. -/

namespace Sys2Proof.Machine.Num

/-- The floating-point formats (03 R56). -/
inductive Fmt where
  | f64 | f32 | f16 | bf16 | e5m2 | e4m3 | e2m1 | e8m0
  deriving DecidableEq, Repr, Inhabited

/-- Rounding modes (03 R64); `sr` carries the width of the random bits and the bits (R66). -/
inductive Rm where
  | rne | rz | rdn | rup
  | sr (w rnd : Nat)
  deriving DecidableEq, Repr, Inhabited

/-- A positive magnitude: n x 2^e; n / d x 2^e; the square root of n / d x 2^e; or an irrational number strictly between
n x 2^e and (n + 1) x 2^e. -/
inductive Mag where
  | dy (n : Nat) (e : Int)
  | rat (n d : Nat) (e : Int)
  | root (n d : Nat) (e : Int)
  | apx (n : Nat) (e : Int)
  deriving DecidableEq, Repr, Inhabited

/-- An exact value, before any rounding (03 R57, R64). -/
inductive Val where
  | nan
  | inf (neg : Bool)
  | zero (neg : Bool)
  | num (neg : Bool) (m : Mag)
  deriving DecidableEq, Repr, Inhabited

/-- Bits of the fraction T (03 R56). -/
def mb : Fmt → Nat
  | .f64 => 52 | .f32 => 23 | .f16 => 10 | .bf16 => 7 | .e5m2 => 2 | .e4m3 => 3 | .e2m1 => 1 | .e8m0 => 0

/-- Bits of the exponent E (03 R56). -/
def eb : Fmt → Nat
  | .f64 => 11 | .f32 => 8 | .f16 => 5 | .bf16 => 8 | .e5m2 => 5 | .e4m3 => 4 | .e2m1 => 2 | .e8m0 => 8

/-- The bias (03 R56). -/
def bias : Fmt → Nat
  | .f64 => 1023 | .f32 => 127 | .f16 => 15 | .bf16 => 127 | .e5m2 => 15 | .e4m3 => 7 | .e2m1 => 1 | .e8m0 => 127

/-- Width of a code in bits. -/
def bits : Fmt → Nat
  | .f64 => 64 | .f32 => 32 | .f16 => 16 | .bf16 => 16 | .e5m2 => 8 | .e4m3 => 8 | .e2m1 => 4 | .e8m0 => 8

/-- The exponent of the smallest normal number (03 R56). -/
def emin (f : Fmt) : Int := if f = .e8m0 then -127 else 1 - (bias f : Int)

/-- The code of the largest finite value, sign clear (03 R56, R58). -/
def maxCode : Fmt → Nat
  | .f64 => 0x7FEFFFFFFFFFFFFF | .f32 => 0x7F7FFFFF | .f16 => 0x7BFF | .bf16 => 0x7F7F | .e5m2 => 0x7B | .e4m3 => 0x7E
  | .e2m1 => 0x7 | .e8m0 => 0xFE

/-- What a NaN becomes (03 R61, R64): the canonical NaN; +0 for `e2m1`; 0xFF for `e8m0`. -/
def nanCode : Fmt → Nat
  | .f64 => 0x7FF8000000000000 | .f32 => 0x7FC00000 | .f16 => 0x7E00 | .bf16 => 0x7FC0 | .e5m2 => 0x7E | .e4m3 => 0x7F
  | .e2m1 => 0 | .e8m0 => 0xFF

/-- A code with its sign. -/
def signed (f : Fmt) (neg : Bool) (c : Nat) : Nat :=
  if neg && f != .e8m0 then c + 2 ^ (bits f - 1) else c

/-- The "Otherwise" column of 03 R65. -/
def overCode (f : Fmt) (neg : Bool) : Nat :=
  match f with
  | .e4m3 => 0x7F
  | .e2m1 => signed f neg 7
  | .e8m0 => 0xFF
  | _ => signed f neg ((2 ^ eb f - 1) * 2 ^ mb f)

/-- The value of a code (03 R57, R59). -/
def value (f : Fmt) (code : Nat) : Val :=
  let t := code % 2 ^ mb f
  let ex := code / 2 ^ mb f % 2 ^ eb f
  let neg := f != .e8m0 && code / 2 ^ (bits f - 1) % 2 == 1
  let top := 2 ^ eb f - 1
  if f = .e8m0 then (if ex = 255 then .nan else .num false (.dy 1 ((ex : Int) - 127)))
  else if f = .e4m3 && ex = top && t = 7 then .nan
  else if ex = top && f != .e4m3 && f != .e2m1 then (if t = 0 then .inf neg else .nan)
  else if ex = 0 then
    if t = 0 then .zero neg else .num neg (.dy t (1 - (bias f : Int) - mb f))
  else .num neg (.dy (t + 2 ^ mb f) ((ex : Int) - bias f - mb f))

/-- n x 2^k, rounded down, and whether that is exact. -/
def shiftNat (n : Nat) (k : Int) : Nat × Bool :=
  if 0 ≤ k then (n * 2 ^ k.toNat, true) else (n / 2 ^ (-k).toNat, n % 2 ^ (-k).toNat == 0)

/-- Integer square root, bit by bit from bit k. -/
def isqrtGo (n : Nat) : Nat → Nat → Nat
  | 0, r => if (r + 1) * (r + 1) ≤ n then r + 1 else r
  | k + 1, r => isqrtGo n k (if (r + 2 ^ (k + 1)) * (r + 2 ^ (k + 1)) ≤ n then r + 2 ^ (k + 1) else r)

/-- The integer square root, rounded down. -/
def isqrt (n : Nat) : Nat := isqrtGo n (n.log2 / 2 + 1) 0

/-- m x 2^k rounded down, and whether that is exact. -/
def scaled (m : Mag) (k : Int) : Nat × Bool :=
  match m with
  | .dy n e => shiftNat n (e + k)
  | .rat n d e =>
    if 0 ≤ e + k then (n * 2 ^ (e + k).toNat / d, n * 2 ^ (e + k).toNat % d == 0)
    else (n / (d * 2 ^ (-(e + k)).toNat), n % (d * 2 ^ (-(e + k)).toNat) == 0)
  | .root n d e =>
    let s := e + 2 * k
    let p := if 0 ≤ s then n * 2 ^ s.toNat else n
    let q := if 0 ≤ s then d else d * 2 ^ (-s).toNat
    let r := isqrt (p / q)
    (r, p % q == 0 && r * r == p / q)
  | .apx n e => ((shiftNat n (e + k)).1, false)

/-- floor of the base-2 logarithm. -/
def expo (m : Mag) : Int :=
  match m with
  | .dy n e | .apx n e => (n.log2 : Int) + e
  | .rat n d e =>
    let g := (n.log2 : Int) - d.log2 + e
    if (scaled m (-g)).1 = 0 then g - 1 else g
  | .root n d e =>
    let g := ((n.log2 : Int) - d.log2 + e) / 2 + 1
    if (scaled m (-g)).1 ≠ 0 then g else if (scaled m (-(g - 1))).1 ≠ 0 then g - 1 else g - 2

/-- Whether the mode, for a sign, takes the upper candidate, when |x| lies strictly between lo q and (lo + 1) q: 03 R64,
R66. -/
def goesUp (rm : Rm) (neg : Bool) (m : Mag) (qe : Int) (lo : Nat) : Bool :=
  match rm with
  | .rz => false
  | .rdn => neg
  | .rup => !neg
  | .rne =>
    let h := scaled m (1 - qe)
    if h.1 % 2 = 0 then false else if h.2 then lo % 2 == 1 else true
  | .sr w rnd => 2 ^ w ≤ (scaled m ((w : Int) - qe)).1 % 2 ^ w + rnd

/-- |x| rounded to a multiple of 2^qe, as the quotient (`Choose` of 03 R64). -/
def chooseAt (rm : Rm) (neg : Bool) (m : Mag) (qe : Int) : Nat :=
  let s := scaled m (-qe)
  if s.2 then s.1 else if goesUp rm neg m qe s.1 then s.1 + 1 else s.1

/-- Whether an overflow takes the largest finite value (03 R65). -/
def clamps (rm : Rm) (sat neg : Bool) : Bool :=
  sat || match rm with
    | .rz => true
    | .rdn => !neg
    | .rup => neg
    | _ => false

/-- `Round(x, fmt, mode)` (03 R64), as a code. -/
def round (f : Fmt) (rm : Rm) (sat : Bool) (x : Val) : Nat :=
  match x with
  | .nan => nanCode f
  | .inf neg =>
    if sat then signed f neg (maxCode f) else overCode f neg
  | .zero neg => if f = .e8m0 then 0xFF else signed f neg 0
  | .num neg m =>
    if f = .e8m0 && neg then 0xFF
    else
      let e := max (expo m) (emin f)
      let r := chooseAt rm neg m (e - mb f)
      let c := (e + bias f - 1) * 2 ^ mb f + r
      if (maxCode f : Int) < c then
        if clamps rm sat neg then signed f neg (maxCode f) else overCode f neg
      else signed f neg c.toNat

/-- Whether a value is negative, a zero by its sign. -/
def Val.isNeg : Val → Bool
  | .nan => false
  | .inf n | .zero n | .num n _ => n

/-- The value with its sign inverted. -/
def Val.opp : Val → Val
  | .nan => .nan
  | .inf n => .inf !n
  | .zero n => .zero !n
  | .num n m => .num (!n) m

/-- A signed dyadic number; 0 x 2^e is a zero that came of cancelling (03 R63). -/
def ofInt (rdn : Bool) (i e : Int) : Val :=
  if i = 0 then .zero rdn else .num (decide (i < 0)) (.dy i.natAbs e)

/-- An integer as a value. -/
def intVal (i : Int) : Val := ofInt false i 0

/-- A dyadic value as an integer times 2^e. -/
def dyadic : Val → Int × Int
  | .num neg (.dy n e) => (if neg then -(n : Int) else n, e)
  | _ => (0, 0)

/-- An exact sum (03 R63; `rdn` says whether the mode is `.rdn`). Its operands are values of codes or products of them. -/
def add (rdn : Bool) (x y : Val) : Val :=
  match x, y with
  | .nan, _ | _, .nan => .nan
  | .inf a, .inf b => if a = b then .inf a else .nan
  | .inf a, _ => .inf a
  | _, .inf b => .inf b
  | .zero a, .zero b => if a = b then .zero a else .zero rdn
  | .zero _, v => v
  | v, .zero _ => v
  | v, w =>
    let (i, e) := dyadic v
    let (j, g) := dyadic w
    let b := min e g
    ofInt rdn (i * 2 ^ (e - b).toNat + j * 2 ^ (g - b).toNat) b

/-- An exact product (03 R63). -/
def mul (x y : Val) : Val :=
  match x, y with
  | .nan, _ | _, .nan => .nan
  | .inf _, .zero _ | .zero _, .inf _ => .nan
  | .inf a, v | v, .inf a => .inf (a != v.isNeg)
  | .zero a, v | v, .zero a => .zero (a != v.isNeg)
  | .num a (.dy n e), .num b (.dy k g) => .num (a != b) (.dy (n * k) (e + g))
  | .num a m, .num _ _ => .num a m

/-- An exact quotient (03 R62, R63). The spec gives a division by zero a result for `sfu .rcp` alone; the quotient of WELF by an n of 0 is
taken as its result is: an infinity with the exclusive OR of the signs (05 R112; DESIGN CHOICE, log 97). -/
def div (x y : Val) : Val :=
  match x, y with
  | .nan, _ | _, .nan => .nan
  | .inf _, .inf _ | .zero _, .zero _ => .nan
  | .inf a, v => .inf (a != v.isNeg)
  | v, .inf b => .zero (v.isNeg != b)
  | .zero a, v => .zero (a != v.isNeg)
  | v, .zero b => .inf (v.isNeg != b)
  | .num a (.dy n e), .num b (.dy k g) => .num (a != b) (.rat n k (e - g))
  | .num a m, .num _ _ => .num a m

/-- An exact square root (05 R111). -/
def sqrt : Val → Val
  | .nan => .nan
  | .inf n => if n then .nan else .inf false
  | .zero n => .zero n
  | .num neg (.dy n e) => if neg then .nan else .num false (.root n 1 e)
  | .num _ m => .num false m

/-- Compares two values that are not NaN; -0 equals +0 (02 R46). -/
def cmp (x y : Val) : Ordering :=
  match x, y with
  | .inf a, .inf b => if a = b then .eq else if a then .lt else .gt
  | .inf a, _ => if a then .lt else .gt
  | _, .inf b => if b then .gt else .lt
  | v, w =>
    let (i, e) := dyadic v
    let (j, g) := dyadic w
    let b := min e g
    compare (i * 2 ^ (e - b).toNat) (j * 2 ^ (g - b).toNat)

/-- Whether a value is NaN. -/
def Val.isNan : Val → Bool
  | .nan => true
  | _ => false

/-- Rounds to an integer under a mode (03 R68): `Choose` with q = 1. -/
def roundInt (rm : Rm) (neg : Bool) (m : Mag) : Int :=
  let r := chooseAt rm neg m 0
  if neg then -(r : Int) else r

/-- A float to an integer in a range (03 R68). -/
def toInt (rm : Rm) (lo hi : Int) (x : Val) : Int :=
  match x with
  | .nan => 0
  | .inf n => if n then lo else hi
  | .zero _ => 0
  | .num neg m => max lo (min hi (roundInt rm neg m))

/-- An element rounded to an integral value of its own format (05 R107). -/
def rint (f : Fmt) (rm : Rm) (code : Nat) : Nat :=
  match value f code with
  | .nan => nanCode f
  | .num neg m =>
    if (mb f : Int) ≤ expo m then code
    else
      let r := chooseAt rm neg m 0
      round f .rne false (if r = 0 then .zero neg else .num neg (.dy r 0))
  | _ => code

/-- Fraction bits of the fixed-point arithmetic below (UNVERIFIED, log 13). -/
def fx : Nat := 480

/-- One in fixed point. -/
def one : Nat := 2 ^ fx

/-- e^z by its series for a fixed-point z below 1: the sum and the term carried. -/
def expGo (z : Nat) : Nat → Nat → Nat → Nat → Nat
  | 0, _, _, acc => acc
  | k + 1, i, term, acc => expGo z k (i + 1) (term * z / one / i) (acc + term * z / one / i)

/-- e^z in fixed point. -/
def expFx (z : Nat) : Nat := expGo z 110 1 one one

/-- The sum of z^(2i+1) / (2i+1), from the term given. -/
def atanhGo (z2 : Nat) : Nat → Nat → Nat → Nat → Nat
  | 0, _, _, acc => acc
  | k + 1, i, term, acc => atanhGo z2 k (i + 1) (term * z2 / one) (acc + term / (2 * i + 1))

/-- The natural logarithm of the fixed-point m, for 1 ≤ m < 2. -/
def lnFx (m : Nat) : Nat :=
  let z := (m - one) * one / (m + one)
  2 * atanhGo (z * z / one) 155 0 z 0

/-- ln 2 in fixed point. -/
def ln2 : Nat :=
  let z := one / 3
  2 * atanhGo (z * z / one) 155 0 z 0

/-- arctan (1 / n) in fixed point: an alternating series. -/
def atanGo (n2 : Nat) : Nat → Nat → Int → Int → Int
  | 0, _, _, acc => acc
  | k + 1, i, term, acc =>
    atanGo n2 k (i + 1) (-(term / (n2 : Int))) (acc + term / ((2 * i + 1 : Nat) : Int))

/-- pi with `fx` fraction bits, by Machin's formula. -/
def piFx : Int :=
  4 * (4 * atanGo 25 110 0 ((one : Int) / 5) 0 - atanGo 57121 40 0 ((one : Int) / 239) 0)

/-- A series of alternating powers: sin from (z, 1), cos from (1, 0). -/
def trigGo (z2 : Int) : Nat → Nat → Int → Int → Int
  | 0, _, _, acc => acc
  | k + 1, i, term, acc =>
    let t := -(term * z2 / (one : Int)) / (((i + 1) * (i + 2) : Nat) : Int)
    trigGo z2 k (i + 2) t (acc + t)

/-- A fixed-point number, with its last 40 bits dropped, as an irrational value. -/
def apxVal (i : Int) : Val := .num (decide (i < 0)) (.apx (i.natAbs / 2 ^ 40) (40 - (fx : Int)))

/-- A dyadic number in fixed point, rounded down. -/
def toFx (n : Nat) (e : Int) : Nat := (shiftNat n (e + fx)).1

/-- A value just below n x 2^e in magnitude. -/
def justBelow (neg : Bool) (n : Nat) (e : Int) : Val := .num neg (.apx (n * 2 ^ 64 - 1) (e - 64))

/-- 2^x (05 R110). Whole x are exact; for |x| of 4,096 or more only the overflow or underflow matters. -/
def exp2 (x : Val) : Val :=
  match x with
  | .nan => .nan
  | .inf n => if n then .zero false else .inf false
  | .zero _ => .num false (.dy 1 0)
  | .num neg m =>
    let (n, e) := match m with | .dy n e => (n, e) | _ => (1, 0)
    if 12 ≤ expo m then .num false (.dy 1 (if neg then -5000 else 5000))
    else
      let whole := (shiftNat n e).1
      if (shiftNat n e).2 then .num false (.dy 1 (if neg then -(whole : Int) else whole))
      else
        let frac := toFx n e % one
        let f := if neg then one - frac else frac
        let w : Int := if neg then -(whole : Int) - 1 else whole
        .num false (.apx (expFx (f * ln2 / one) / 2 ^ 40) (40 - (fx : Int) + w))

/-- log2 x (05 R110, R111). Powers of 2 are exact. -/
def log2 (x : Val) : Val :=
  match x with
  | .nan => .nan
  | .inf n => if n then .nan else .inf false
  | .zero _ => .inf true
  | .num neg m =>
    if neg then .nan
    else
      let n := match m with | .dy n _ => n | _ => 1
      let e := expo m
      if n = 2 ^ n.log2 then intVal e
      else
        let mant := toFx n (-(n.log2 : Int))
        apxVal (e * (one : Int) + (lnFx mant * one / ln2 : Nat))

/-- sin x, or cos x when `c` (05 R110, R111): the argument is reduced by pi / 2 exactly enough over the whole range. -/
def trig (c : Bool) (x : Val) : Val :=
  match x with
  | .nan | .inf _ => .nan
  | .zero n => if c then .num false (.dy 1 0) else .zero n
  | .num neg m =>
    let (n, e) := match m with | .dy n e => (n, e) | _ => (1, 0)
    if !c && expo m < -12 then justBelow neg n e
    else
      let z : Int := toFx n e
      let q := (2 * z) / piFx
      let q := if piFx < 4 * z - 2 * q * piFx then q + 1 else q
      let r := z - q * piFx / 2
      let k := ((if c then q + 1 else q) % 4).toNat
      let z2 := r * r / (one : Int)
      let s := if k % 2 = 0 then trigGo z2 60 1 r r else trigGo z2 60 0 (one : Int) (one : Int)
      let s := if 2 ≤ k then -s else s
      apxVal (if neg && !c then -s else s)

/-- tanh x (05 R110, R111). -/
def tanh (x : Val) : Val :=
  match x with
  | .nan => .nan
  | .inf n => .num n (.dy 1 0)
  | .zero n => .zero n
  | .num neg m =>
    let (n, e) := match m with | .dy n e => (n, e) | _ => (1, 0)
    if expo m < -12 then justBelow neg n e
    else if 5 ≤ expo m then justBelow neg 1 0
    else
      let z := 2 * toFx n e
      let k := z / ln2
      let t := expFx (z - k * ln2) * 2 ^ k
      let v : Int := ((t - one) * one / (t + one) : Nat)
      apxVal (if neg then -v else v)

/-- One of the two codes that bracket a value (05 R110): the one nearer zero, or the next one away from it. An exactly
representable value is itself. -/
def faithful (f : Fmt) (away : Bool) (x : Val) : Nat :=
  match x with
  | .num neg (.apx n e) => round f (if away = neg then .rdn else .rup) false (.num neg (.apx n e))
  | v => round f .rne false v

/-- The special function `fn` of a code (05 R110, R111). `sin`, `cos` and `tanh` take the pick of log 8. -/
def sfu (f : Fmt) (rm : Rm) (fn code : Nat) : Nat :=
  let x := value f code
  let away := Config.sfuAway fn (bits f) code
  match fn with
  | 0 => round f rm false (div (.num false (.dy 1 0)) x)
  | 1 =>
    match x with
    | .num false (.dy n e) => round f rm false (.num false (.root 1 n (-e)))
    | .zero n => round f rm false (.inf n)
    | .inf false => round f rm false (.zero false)
    | _ => nanCode f
  | 2 => round f rm false (sqrt x)
  | 3 => round f rm false (exp2 x)
  | 4 => round f rm false (log2 x)
  | 5 => faithful f away (trig false x)
  | 6 => faithful f away (trig true x)
  | _ => faithful f away (tanh x)

/-- `fmin` and `fmax` (05 R104): `least` chooses fmin, `nanWins` the mode `.nan`. -/
def minmax (f : Fmt) (least nanWins : Bool) (a b : Nat) : Nat :=
  let x := value f a
  let y := value f b
  if x.isNan || y.isNan then
    if nanWins || (x.isNan && y.isNan) then nanCode f else if x.isNan then b else a
  else
    let le := match cmp x y with
      | .lt => true
      | .gt => false
      | .eq => x.isNeg || !y.isNeg
    if le = least then a else b

/-- `Round(a + b)` of two codes. -/
def fadd (f : Fmt) (rm : Rm) (a b : Nat) : Nat := round f rm false (add (rm = .rdn) (value f a) (value f b))
/-- `Round(a - b)` of two codes. -/
def fsub (f : Fmt) (rm : Rm) (a b : Nat) : Nat := round f rm false (add (rm = .rdn) (value f a) (value f b).opp)
/-- `Round(a x b)` of two codes. -/
def fmul (f : Fmt) (rm : Rm) (a b : Nat) : Nat := round f rm false (mul (value f a) (value f b))
/-- `Round(a / b)` of two codes. -/
def fdiv (f : Fmt) (rm : Rm) (a b : Nat) : Nat := round f rm false (div (value f a) (value f b))
/-- `Round(sqrt a)` of a code. -/
def fsqrt (f : Fmt) (rm : Rm) (a : Nat) : Nat := round f rm false (sqrt (value f a))
/-- `Round(a x b + c)` of three codes, with one rounding (03 R69). -/
def ffma (f : Fmt) (rm : Rm) (a b c : Nat) : Nat :=
  round f rm false (add (rm = .rdn) (mul (value f a) (value f b)) (value f c))
/-- `Round(c - a x b)` of three codes, with one rounding. -/
def ffnma (f : Fmt) (rm : Rm) (a b c : Nat) : Nat :=
  round f rm false (add (rm = .rdn) (mul (value f a) (value f b)).opp (value f c))
/-- A code converted to another format, `Round(x, dst, mode)` (03 R67). -/
def conv (src dst : Fmt) (rm : Rm) (sat : Bool) (a : Nat) : Nat := round dst rm sat (value src a)

end Sys2Proof.Machine.Num
end

