-- ==== Sys2Proof/Machine/Flags.lean ====
section
/-! DEFINITION. Flags and guards: a flag register holds N [3], Z [2], C [1], V [0] (02 R44), and the rules that set it. -/

namespace Sys2Proof.Machine

/-- A flag register from its four bits. -/
def nzcv (n z c v : Bool) : BitVec 4 :=
  BitVec.ofNat 4 ((if n then 8 else 0) + (if z then 4 else 0) + (if c then 2 else 0) + (if v then 1 else 0))

/-- Flag register k of a predicate word (02 R44). -/
def flagOf (p : BitVec 16) (k : Nat) : BitVec 4 := p.extractLsb' (4 * k) 4

/-- The predicate word with flag register k replaced. -/
def setFlag (p : BitVec 16) (k : Nat) (f : BitVec 4) : BitVec 16 :=
  (p &&& ~~~(BitVec.ofNat 16 (15 * 16 ^ k))) ||| BitVec.ofNat 16 (f.toNat * 16 ^ k)

/-- Whether a guard condition holds for a flag register (01 R20). -/
def holds (gc : Nat) (f : BitVec 4) : Bool :=
  let n := f.getLsbD 3
  let z := f.getLsbD 2
  let c := f.getLsbD 1
  let v := f.getLsbD 0
  match gc with
  | 0 => true
  | 1 => z
  | 2 => !z
  | 3 => n != v
  | 4 => n == v
  | 5 => z || n != v
  | 6 => !z && n == v
  | 7 => c
  | 8 => !c
  | 9 => !c || z
  | 10 => c && !z
  | 11 => n
  | 12 => !n
  | 13 => v
  | 14 => !v
  | _ => false

/-- The flags of A - B (02 R45). -/
def cmpFlags {w : Nat} (a b : BitVec w) : BitVec 4 :=
  nzcv (a - b).msb (a == b) (decide (b.toNat ≤ a.toNat)) ((a - b).toInt != a.toInt - b.toInt)

/-- The flags of an add with carry (05 R94). -/
def addcFlags {w : Nat} (a b : BitVec w) (carry : Nat) : BitVec 4 :=
  let r := a + b + BitVec.ofNat w carry
  nzcv r.msb (r == 0) (decide (2 ^ w ≤ a.toNat + b.toNat + carry)) (r.toInt != a.toInt + b.toInt + carry)

/-- The flags of a float compare (02 R46). -/
def fcmpFlags (f : Num.Fmt) (a b : Nat) : BitVec 4 :=
  let x := Num.value f a
  let y := Num.value f b
  if x.isNan || y.isNan then nzcv false false true true
  else match Num.cmp x y with
    | .lt => nzcv true false false false
    | .eq => nzcv false true true false
    | .gt => nzcv false false true false

end Sys2Proof.Machine
end

