-- ==== Sys2Proof/Machine/State.lean ====
section
/-! DEFINITION. The state of the machine, as plain data, and its value right after reset. -/

namespace Sys2Proof.Machine

/-- Where a gang's first core lies: compute die, logical column, cluster, core (00 R3). -/
structure Place where
  die : Nat
  col : Nat
  clu : Nat
  core : Nat
  deriving DecidableEq, Repr, Inhabited

/-- The number of the core at a place: unique on the device. -/
def Place.id (p : Place) : Nat := ((p.die * 18 + p.col) * 4 + p.clu) * 4 + p.core

/-- The place of a core number. -/
def Place.ofId (n : Nat) : Place := ⟨n / 288, n / 16 % 18, n / 4 % 4, n % 4⟩

/-- What a result is written to: an index of a lane's register space, a handler bank register, a flag register of a lane,
an s-register, or one of the status registers (02 R36, R51). `seen` is SPTR as SRD sees it after a stack instruction (09 R195), `wbase` is a fibre's W (09 R190), `birth` the moment
at which a spawned fibre becomes live (08 R171), `cych` the CYC latch (02 R53), and `nowhere` stands for the register of a result that
has given way (02 R43, 08 R171). -/
inductive Tgt where
  | reg (lane idx : Nat)
  | bank (lane n : Nat)
  | flag (lane n : Nat)
  | sreg (n : Nat)
  | ms
  | sbchk
  | slim
  | gmiss
  | trapc
  | trappc
  | sptr (lane : Nat)
  | seen (lane : Nat)
  | trapaux (lane : Nat)
  | faddr (lane : Nat)
  | wbase (lane : Nat)
  | birth (lane : Nat)
  | cych
  | nowhere
  deriving DecidableEq, Repr

/-- A result of known latency on its way: it lands at cycle `due` (04 R80, R81). `owners` names the lanes of the fibres that
issued it, for STALL.SHORT (04 R83), or, where `sb` is set, for the scoreboard (04 R84, R85). -/
structure Pend where
  tgt : Tgt
  val : DWord
  due : Nat
  owners : List Nat
  sb : Bool
  deriving DecidableEq, Repr

/-- Why a fibre is parked (08 R163). -/
inductive Park where
  | rejoin (mask : DWord) (target : Word)
  | bar (kind id : Nat)
  | mwait (bound : Option Nat) (work : Nat)
  | sync (work : Nat)
  | repHold
  | xacq (work : Nat)
  | waitc (counter n : Nat)
  deriving DecidableEq, Repr

/-- The state of a lane slot (08 R163). `nascent` is a slot that FSPAWN has taken and whose fibre is not yet live (R171). -/
inductive Slot where
  | free
  | retired
  | nascent
  | live
  | parked (p : Park)
  deriving DecidableEq, Repr, Inhabited

/-- What a fibre carries (02 R37, R44; 04 R74, R77, R80; 08 R181 to R183; 24 R372). -/
structure Fibre where
  pc : Word
  w : Nat
  flags : BitVec 16
  age : Nat
  readyAt : Nat
  yieldAt : Option Nat
  fence : Option Nat
  rep : Option (Nat × Bool)
  inH : Bool
  saved : Option (Word × BitVec 16 × Option (Nat × Bool))
  deriving DecidableEq, Repr, Inhabited

/-- A lane slot with the state that belongs to the slot and not to its fibre (02 R36, R48, R52; 08 R163; 09 R195). -/
structure Lane where
  slot : Slot
  fib : Fibre
  regs : List Word
  bank : List Word
  latc : Word
  sptr : Word
  sptrSeen : Word
  trapaux : Word
  faddr : Word
  stack : List Host.Cell
  deriving DecidableEq, Repr, Inhabited

/-- A trap that the warp has not entered yet (24 R372). `lanes` is the handler set; `words` gives lanes their TRAPAUX and
FADDR, and `masks` their h14:h15 for a stuck warp. `atIssue` marks a fault at issue (04 R397). -/
structure Cause where
  cls : BitVec 8
  code : BitVec 8
  pc : Word
  lanes : List Nat
  words : List (Nat × Word × Word)
  masks : List (Nat × DWord)
  stuck : Bool
  atIssue : Bool
  deriving DecidableEq, Repr, Inhabited

/-- A warp (02 R36, R41, R50, R51; 04 R80; 08 R174; 10 R208; 22 R362; 24 R372). -/
structure Warp where
  wg : Nat
  wid : Nat
  x : Nat
  lanes : List Lane
  sregs : List DWord
  ms : BitVec 12
  cych : Word
  sbchk : Bool
  serial : Bool
  handler : Bool
  slim : Word
  gmiss : Word
  trapc : Word
  trappc : Word
  trappcWritten : Bool
  pend : List Pend
  issued : List Nat
  rejoinTab : List DWord
  rejoinOut : List DWord
  cause : Option Cause
  candidate : Nat
  raised : Bool
  lastIssue : Nat
  warpSlot : Nat
  retired : Bool
  deriving DecidableEq, Repr, Inhabited

/-- The operands that one lane of an operation captured when it issued: the values of its D, A, B and C fields and its
window base. -/
structure Arg where
  lane : Nat
  w : Nat
  d : QWord
  a : QWord
  b : QWord
  c : QWord
  deriving DecidableEq, Repr, Inhabited

/-- A fault found at issue or later: its class and code, and the TRAPAUX and FADDR of the lanes that its rule names
(24 R372, R376). `misses` are the virtual addresses at which its access missed the translation caches, and `retires` the 64-byte lines
whose checks have failed (20 R328, R346): what the access leaves although the slot has no effect. -/
structure Flt where
  cls : BitVec 8
  code : BitVec 8
  words : List (Nat × Word × Word)
  misses : List Nat := []
  retires : List Nat := []
  deriving DecidableEq, Repr, Inhabited

/-- Work that an instruction started and that is not finished: an engine operation (10 R208), a scoreboarded access
(04 R84), a keyed operation at an index engine (13 R262), a call or read of an object (18 R312, R316), a fence (16 R296)
or a SYNC (08 R186). `owners` are the lanes of the fibres that issued it (04 R85), `awaits` the registers that wait on it,
`vals` the results it has so far, `waits` the older work it waits for, `tiles` the tiles it reads or fills, `mark` says how far it has
come, `rated` says that it waits for bank-private reads of the DRAM and for nothing else (20 R338), and `fault` is one that it has met. -/
structure Work where
  id : Nat
  ctx : Nat
  warp : Nat
  instr : Instr
  pc : Word
  issuedAt : Nat
  owners : List Nat
  args : List Arg
  uni : List DWord
  ctr : Option Nat
  seq : Nat
  awaits : List Tgt
  vals : List (Tgt × DWord)
  waits : List Nat
  tiles : List Nat
  cells : List Nat
  mark : Nat
  fault : Option Flt
  rated : Bool := false
  deriving DecidableEq, Repr, Inhabited

/-- The state of a tile (09 R204, R205). -/
inductive TileState where
  | empty
  | filling
  | ready
  | draining
  deriving DecidableEq, Repr, Inhabited

/-- A defined tile of a gang (09 R202). -/
structure Tile where
  num : Nat
  desc : DWord
  st : TileState
  deriving DecidableEq, Repr, Inhabited

/-- An open cursor of a workgroup (13 R267). `last` is the key of the last row it returned. -/
structure Cursor where
  num : Nat
  slot : Nat
  inc : Nat
  rev : Bool
  sc : Nat
  ord : Nat
  key : Int
  incl : Bool
  last : Option Int
  deriving DecidableEq, Repr, Inhabited

/-- A workgroup: whether it holds its core's accumulator store, the elements that are not 0, the lines whose SAT bit is
set (11 R231, R232), and its open cursors. -/
structure Wg where
  hold : Bool
  acc : List (Nat × Word)
  sat : List Nat
  cursors : List Cursor
  deriving DecidableEq, Repr, Inhabited

/-- An entry of a queue: its width 0 `.w32`, 1 `.w64`, 2 `.w128`, and its value (10 R228). -/
structure QEntry where
  width : Nat
  val : QWord
  deriving DecidableEq, Repr, Inhabited

/-- An open loop of a stream program (10 R225). -/
structure Loop where
  level : Nat
  idx : Nat
  count : Nat
  start : Nat
  deriving DecidableEq, Repr, Inhabited

/-- An address stream of a stream program (10 R225). -/
structure Stream where
  k : Nat
  handle : Word
  base : Nat
  strides : List Int
  deriving DecidableEq, Repr, Inhabited

/-- The producer slot as a gang holds it (10 R223 to R227): the program's words, the next operation, the loops, the
streams, the captured s-registers, a fetch that has started, and the faults of this program and of earlier ones that the warps which
loaded them have not taken yet, each with its warp and pc (R212). -/
structure Producer where
  prog : List DWord
  next : Nat
  loops : List Loop
  streams : List Stream
  captured : List (Nat × DWord)
  running : Bool
  ended : Bool
  faulted : Bool
  warp : Nat
  pc : Word
  fetching : Option Nat
  pending : List (Nat × Word × Flt)
  deriving DecidableEq, Repr, Inhabited

/-- A launch record (22 R354). -/
structure LaunchRec where
  entry : Word
  gangs : Nat
  wgs : Nat
  warps : Nat
  cond : Nat
  lflags : Nat
  stack : Nat
  cmem : Nat
  firn : Nat
  const : DWord
  sem : DWord
  sval : DWord
  stream : Word
  done : DWord
  deriving DecidableEq, Repr, Inhabited

/-- Where a gang is in its life (22 R359 to R365, 24 R378). -/
inductive Phase where
  | waiting
  | running
  | draining
  | saved
  | halted
  | retired
  deriving DecidableEq, Repr, Inhabited

/-- A gang. `headAt` is when its record reached its queue's head (22 R360), and `opened` names the run of the record that it belongs
to. -/
structure Gang where
  asid : Nat
  region : DWord
  regid : Word
  prio : Nat
  queue : Nat
  recIdx : Nat
  gangid : Nat
  launch : LaunchRec
  headAt : Nat
  opened : Nat
  phase : Phase
  place : Place
  drainAt : Nat
  wgs : List Wg
  warps : List Warp
  cmem : List Host.Cell
  firn : List Host.Cell
  tiles : List Tile
  ops : List Work
  accs : List Work
  producer : Option Producer
  queues : List (List QEntry)
  haltClass : BitVec 8
  haltCode : BitVec 8
  haltPc : Word
  deriving DecidableEq, Repr, Inhabited

/-- The issue that `exec` carries out: the gang and warp, its core, the lanes of the issue set and of ISSUE, the slot's program
counter and stall count, the flag register its guard tests (none for `.al` and `.nv`), for a repeat of a REP its number and
the REP's CNT, and for a set on the second port XALLOC and WSTAT as they stood before the first set issued (02 R43). -/
structure Cur where
  gang : Nat
  warp : Nat
  core : Nat
  set : List Nat
  issue : List Nat
  pc : Word
  stall : Nat
  guard : Option Nat
  rep : Option (Nat × Nat)
  before : Option (Word × Word)
  deriving DecidableEq, Repr, Inhabited

/-- A path by which an access reaches a row byte: an aperture 0 to 2 and a view, 0 uncompressed, 1 compressed (16 R279). -/
abbrev Path := Nat

/-- A byte that some paths still return as `old` although its cell has been written: through another path (16 R294, 10 R221), or, for
every reader but the warps `but`, by a relaxed store that the others do not see yet (16 R287, 25 R390; DESIGN CHOICE, log 5). The entries of
one cell and path stand youngest first: a reader goes down to the first whose write it sees. The write becomes visible together with the
others of the aligned block of `unit` bytes around it: those of its element, or, where that is not aligned in address, itself (13 R396). -/
structure Stale where
  cell : Nat
  old : Byte
  paths : BitVec 6
  but : List (Nat × Nat) := []
  unit : Nat := 1
  deriving DecidableEq, Repr, Inhabited

/-- A key held in an index with its row and hit counter (13 R252, R258). Keys are numbers in the key type's order; a
`.b16` key is its bytes read from byte 0 as a number. -/
structure KeyRow where
  key : Int
  row : Nat
  hits : Nat
  deriving DecidableEq, Repr, Inhabited

/-- A table descriptor (13 R251). -/
structure Desc where
  tkind : Nat
  aper : Nat
  keyt : Nat
  tflags : BitVec 8
  width : Nat
  cap : Nat
  inc : Nat
  gen : Nat
  rowbase : Nat
  index : Nat
  live : Nat
  miss : Nat
  crcbase : Nat
  home : Nat
  deriving DecidableEq, Repr, Inhabited

/-- A directory slot that holds a table: its descriptor, its keys in ascending order, and the row generations that are
not 1 (13 R249, R254). -/
structure Table where
  asid : Nat
  slot : Nat
  desc : Desc
  keys : List KeyRow
  gens : List (Nat × Nat)
  deriving DecidableEq, Repr, Inhabited

/-- A translation cache: the micro-TLB of a core, or the cache of a cluster or of a die (20 R328). -/
inductive XCache where
  | core (n : Nat)
  | cluster (n : Nat)
  | die (n : Nat)
  deriving DecidableEq, Repr, Inhabited

/-- A cached translation of a page of 4 KiB or 2 MiB, or of a run of 64 KiB (20 R326, R328). -/
structure Tlb where
  cache : XCache
  asid : Nat
  vbase : Nat
  size : Nat
  pbase : Nat
  key : Nat
  r : Bool
  w : Bool
  x : Bool
  deriving DecidableEq, Repr, Inhabited

/-- A translation walk of a die, with the cores whose accesses are attached to it. It waits for a walker, in arrival order, until
it has a result: a translation, or the code and level of a fault (20 R328). `reqs` are the accesses of the HBM4E controllers by which it
reads its entries (R338). -/
structure Walk where
  die : Nat
  asid : Nat
  page : Nat
  started : Bool
  result : Option Tlb
  fault : Option (BitVec 8 × Nat)
  attached : List Nat
  reqs : List Nat
  deriving DecidableEq, Repr, Inhabited

/-- A quad that the instruction cache of a core holds (08 R185). -/
structure CodeLine where
  core : Nat
  asid : Nat
  quad : Nat
  words : List Word
  deriving DecidableEq, Repr, Inhabited

/-- The loop buffer of a core (08 R184, R185). -/
structure LoopBuf where
  core : Nat
  quads : List CodeLine
  stale : Bool
  deriving DecidableEq, Repr, Inhabited

/-- What a core holds for itself: its cycle count (04 R86), its `regs.xacq` request queue, oldest first (09 R191), and the time of its next
clock edge, in units of 1 / 15.4 GHz, of which a cycle of 1.4 GHz has 11 and one of 1.1 GHz has 14 (00 R4, 20 R338). -/
structure CoreSt where
  core : Nat
  cycle : Nat
  xacq : List (Nat × Nat × Nat × Nat)
  edge : Nat := 0
  deriving DecidableEq, Repr, Inhabited

/-- The state of an L1 line in the directory (20 R334). -/
inductive Moes where
  | m
  | o
  | e
  | s
  deriving DecidableEq, Repr, Inhabited

/-- A line of 128 bytes that the L1 of a core holds under an aperture tag, with a valid bit for each 16 bytes (20 R331, R333,
R334). `pa` is the physical address of its first byte and `key` the key slot of its page. `behind` marks a copy that an alias fence of
another die has found under another tag than a write, and left (16 R294). -/
structure L1Line where
  core : Nat
  line : Nat
  aper : Nat
  st : Moes
  valid : BitVec 8
  pa : Nat
  key : Nat
  behind : Bool
  deriving DecidableEq, Repr, Inhabited

/-- A line of 128 bytes that an L2 slice of a compute die holds, keyed by its DRAM address, or a line of the host window by its
physical address (20 R331, R333, R337). `dirty` are the 16-byte pieces that the memory, or the host, does not hold yet. -/
structure L2Line where
  die : Nat
  line : Nat
  valid : BitVec 8
  dirty : BitVec 8
  pa : Nat
  key : Nat
  deriving DecidableEq, Repr, Inhabited

/-- A coherence region, as its home die tracks it, that other dies hold: read-only by `sharers`, or writable by `owner` (20 R335,
R336). -/
structure Region where
  home : Nat
  base : Nat
  size : Nat
  sharers : List Nat
  owner : Option Nat
  ops : Nat
  deriving DecidableEq, Repr, Inhabited

/-- Where a DRAM access is: on its way to the controller, waiting for its bank, in service, or on its way back (20 R338). -/
inductive DramPhase where
  | travel
  | wait
  | service
  | back
  deriving DecidableEq, Repr, Inhabited

/-- An access of an HBM4E controller (20 R338): of the outstanding work `acc` of a gang, or of none that waits for it. `priv` marks a
bank-private access, which is served with a closed row, `bursts` counts its bursts of 32 bytes (R333), and `entered` is the
controller cycle at which it set out. -/
structure DramReq where
  id : Nat
  ctx : Nat
  acc : Option Nat
  pch : Nat
  bank : Nat
  write : Bool
  priv : Bool
  bursts : Nat
  entered : Nat
  phase : DramPhase
  ready : Nat
  deriving DecidableEq, Repr, Inhabited

/-- A refresh in progress: of one bank, or of all banks when `bank` is none; or the exit from self-refresh (20 R339, R340). -/
structure Refresh where
  bank : Option Nat
  ends : Nat
  exit : Bool
  deriving DecidableEq, Repr, Inhabited

/-- A pseudo-channel of HBM4E (20 R338 to R341); `edge` is the time of its next clock edge. -/
structure PChan where
  pch : Nat
  clock : Nat
  rot : Nat
  owed : Nat
  due : Nat
  idle : Nat
  self : Bool
  pendingAll : Bool
  pendingSelf : Bool
  refresh : Option Refresh
  edge : Nat := 0
  deriving DecidableEq, Repr, Inhabited

/-- An armed, fired or lost monitor (08 R179). -/
inductive Mon where
  | armed
  | fired
  | lost
  deriving DecidableEq, Repr, Inhabited

/-- The MWAIT monitor of a lane on the 64-byte block that begins at cell `block`, which it reaches through the path `path`
(08 R179). -/
structure Monitor where
  ctx : Nat
  warp : Nat
  lane : Nat
  asid : Nat
  va : Nat
  path : Nat
  block : Nat
  st : Mon
  deriving DecidableEq, Repr, Inhabited

/-- An entry of a call log (18 R304). -/
structure LogEntry where
  seq : Nat
  meth : Nat
  state : Nat
  tcode : Nat
  taux : Word
  args : List Word
  res : List Word
  asid : Nat
  lane : Nat
  die : Nat
  deriving DecidableEq, Repr, Inhabited

/-- A replica of an object on a compute die (18 R302, R308, R315). `outs` are the outcomes that its engine has computed of calls whose
outcome is not written yet (R321). Of a failed one, `applied` and `known` are the most that the reads of its die have relied on. -/
structure Replica where
  die : Nat
  state : List Byte
  applied : Nat
  known : Nat
  failed : Bool
  outs : List (Nat × Nat × Word × List Word)
  deriving DecidableEq, Repr, Inhabited

/-- A method of an object: its entry's program counter, flags and the words of its own quads (18 R306, 07 R155). -/
structure Method where
  entry : Word
  present : Bool
  ro : Bool
  code : List Word
  deriving DecidableEq, Repr, Inhabited

/-- A replayed object (18 R302 to R305, R321). -/
structure Obj where
  asid : Nat
  slot : Nat
  inc : Nat
  home : Nat
  mirror : Option Nat
  copying : Bool
  lost : Bool
  size : Nat
  methods : List Method
  reps : List Replica
  tail : Nat
  log : List LogEntry
  deriving DecidableEq, Repr, Inhabited

/-- The launch record that a front-end is placing (22 R356). -/
structure Placing where
  launch : LaunchRec
  next : Nat
  headAt : Nat
  opened : Nat
  deriving DecidableEq, Repr, Inhabited

/-- An entry of the queue table with its front-end (22 R353, R356). `headAt` is when the record at its head reached it (R360). -/
structure Queue where
  num : Nat
  headAt : Option Nat
  inc : Nat
  enabled : Bool
  desc : DWord
  interval : Nat
  wait : Nat
  placing : Option Placing
  semSeen : DWord
  deriving DecidableEq, Repr, Inhabited

/-- The accounting of a launch record for its DONE word (22 R357); `opened` tells a record from a later run of the same
ring index, and is its gangs' `opened`. -/
structure RecAcct where
  queue : Nat
  idx : Nat
  opened : Nat
  asid : Nat
  done : Option DWord
  total : Nat
  retired : Nat
  halted : Bool
  deriving DecidableEq, Repr, Inhabited

/-- A column in the spare map: 0 active, 1 draining, 2 retired, 3 spare (24 R370, R384, R385). -/
structure ColSt where
  die : Nat
  phys : Nat
  logical : Nat
  st : Nat
  corrected : Nat
  uncorrected : Nat
  deriving DecidableEq, Repr, Inhabited

/-- An L2 slice in the spare map (24 R384, R385). -/
structure SliceSt where
  die : Nat
  phys : Nat
  logical : Nat
  st : Nat
  corrected : Nat
  uncorrected : Nat
  deriving DecidableEq, Repr, Inhabited

/-- The retention state of a firn or L2 bank (24 R386). An unlisted bank is active. -/
inductive BankSt where
  | freezing
  | freezingThenThaw
  | frozen
  | thawing
  deriving DecidableEq, Repr, Inhabited

/-- A write-back of a protected line that waits: the line's number in its page, the 64 bytes of DRAM that it goes to, its bursts, and
whether it is bank-private (20 R344, R345). -/
structure LateWrite where
  line : Nat
  da : Nat
  bursts : Nat
  priv : Bool
  deriving DecidableEq, Repr, Inhabited

/-- The counters of a page of a protected region, and the write-backs that wait for its re-encryption, or for its key (20 R343 to R345).
A major counter of 2^56 marks a page whose key must rotate (R345). -/
structure ProtPage where
  page : Nat
  key : Nat
  major : Nat
  minors : List (Nat × Nat)
  busy : Bool
  waiting : List LateWrite
  deriving DecidableEq, Repr, Inhabited

/-- An access of the control plane that has not been made yet, since a page or a bank makes accesses wait (20 R344, R345; 24 R385, R386):
bytes for a row of an address space from byte `off` on, the USE fields on the path of a region (22 R351), or the AMO on a DONE word
(22 R357). -/
inductive CtlWrite where
  | row (asid : Nat) (ref : DWord) (off : Nat) (bytes : List Byte)
  | use (region : DWord)
  | inc (asid : Nat) (ref : DWord)
  deriving DecidableEq, Repr, Inhabited

/-- What the management interface answers (24 R383). -/
inductive Reply where
  | success (op : Nat) (payload : List Byte)
  | invalidInput (op : Nat)
  | busy (op : Nat)
  deriving DecidableEq, Repr, Inhabited

/-- Which agent moves next. The spec fixes no order among the agents of the device: the schedule is free (DESIGN CHOICE, log 1). -/
inductive Mover where
  /-- A core passes one cycle of its own clock. -/
  | core (id : Nat)
  /-- An HBM4E controller passes one cycle for a pseudo-channel. -/
  | hbm (pch : Nat)
  /-- A queue front-end passes one cycle. -/
  | front (queue : Nat)
  /-- The control plane makes the oldest of its writes that wait. -/
  | control
  /-- The relaxed store of a warp to a cell, and what belongs to the same element, becomes visible to every agent. -/
  | publish (ctx warp cell : Nat)
  /-- The sequencer's news of one more append reaches a die's replay engine. -/
  | news (asid slot die : Nat)
  /-- An engine makes the k-th write of an operation before the operation completes. -/
  | engine (ctx op k : Nat)
  /-- A core's L1 writes back or drops a line under an aperture tag. -/
  | evictL1 (core line aper : Nat)
  /-- An L2 slice of a die writes back or drops a line. -/
  | evict (die line : Nat)
  /-- A home die gives up a region's entry to make room. -/
  | evictRegion (home base : Nat)
  /-- An instruction cache drops a quad. -/
  | dropCode (core asid quad : Nat)
  /-- A translation cache drops an entry. -/
  | dropTlb (cache : XCache) (asid vbase : Nat)
  /-- An access meets an error in a part. -/
  | partError (p : Part) (found : Flaw)
  /-- A word of a gang's registers, accumulators or cluster memory is found in error. -/
  | upset (ctx : Nat) (found : Flaw)
  /-- A part's oldest corrected error is 24 hours old. -/
  | errorAges (p : Part)
  /-- Another agent of the device performs one of its steps. -/
  | event (i : Instr)
  deriving DecidableEq, Repr, Inhabited

/-- Why the machine stops. Both are raised only by accesses of agents outside the device, and both are safe: the spec
gives such an access no effect. -/
inductive Fault where
  /-- The host or a remote device names a physical address in a hole of the address map (20 R322). -/
  | hole (pa : Nat)
  deriving DecidableEq, Repr

/-- Why an instruction has no meaning here. -/
inductive Refusal where
  /-- An arm of `exec` without its meaning yet: none is left. Safe. -/
  | notModelled (mnemonic : String)
  /-- `exec` was asked for a slot instruction while no issue of a resident warp is under way. `step` never does this. Safe. -/
  | noIssue
  deriving DecidableEq, Repr

/-- The machine. -/
structure State where
  /-- Counts the steps; the argument of the free values (DESIGN CHOICE, log 1, the model's own). -/
  tick : Nat
  /-- The agent that moves next (the model's own). -/
  mover : Mover
  /-- The issue under way (the model's own). -/
  cur : Option Cur
  /-- The next fresh number of outstanding work (the model's own). -/
  nextId : Nat
  /-- Bytes of memory: HBM4E by DRAM address, the other ranges by physical address (20 R322, R330). -/
  mem : List Host.Cell
  stale : List Stale
  tables : List Table
  slotIncs : List (Nat × Nat × Nat)
  asidTable : Nat
  tlb : List Tlb
  walks : List Walk
  icache : List CodeLine
  loops : List LoopBuf
  cores : List CoreSt
  l1 : List L1Line
  l2 : List L2Line
  regions : List Region
  /-- The 128-byte lines of the capacity tier that the hubs' memory-side caches hold (20 R342). -/
  hubLines : List Nat
  pchans : List PChan
  dram : List DramReq
  monitors : List Monitor
  idx : List Work
  calls : List Work
  objs : List Obj
  objIncs : List (Nat × Nat × Nat)
  gangs : List Gang
  queues : List Queue
  /-- Writes of the control plane that wait, the oldest first. -/
  ctlWrites : List CtlWrite
  recs : List RecAcct
  /-- Clusters whose freed room is held for a waiting gang (22 R364): cluster number and context. -/
  reserved : List (Nat × Nat)
  heat : List (Nat × Nat)
  cols : List ColSt
  slices : List SliceSt
  ecnt : List (Nat × Nat)
  swaps : List Part
  repaired : List Part
  /-- The errors of each part: corrected ones within 24 hours, and whether one could not be corrected (24 R385). -/
  errors : List (Part × Nat × Bool)
  /-- Corrected errors of memory that belong to no part of the spare map (24 R379). -/
  memErrors : Nat
  banks : List (Nat × BankSt)
  prot : List ProtPage
  tree : List (Nat × Nat)
  sweeps : List Nat
  keys : List (Nat × List Byte)
  lost : List Nat
  /-- Ranges that CONTAIN.CLR has cleared: first cell, bytes, and how many agents were dead then (24 R381, R382). -/
  cleared : List (Nat × Nat × Nat)
  /-- Ranges that a dead compute die held exclusive: first cell, bytes, and the place of the die in `dead` (24 R380). -/
  taken : List (Nat × Nat × Nat)
  dead : List Agent
  deadLinks : List Nat
  retraining : List Nat
  peers : List (Nat × Nat)
  staged : List (List Byte × List Byte)
  /-- The firmware images in place, each with its signature (24 R383, R388). -/
  images : List (List Byte × List Byte)
  firmware : Bool
  snapshot : Nat
  replies : List Reply
  hostOut : List (Nat × List Byte)
  remoteOut : List (Nat × Nat × List Byte)
  /-- Bytes that have gone out to remote devices, by peer-window cell (20 R337). -/
  sent : List (Nat × Byte)
  deriving DecidableEq, Repr, Inhabited

/-- The columns of the spare map before any swap: physical c serves logical c on each die and the last two are spare (DESIGN CHOICE, log 4). -/
def spareCols : List ColSt :=
  (List.range 80).map fun n =>
    { die := n / 20, phys := n % 20, logical := n % 20, st := if n % 20 < 18 then 0 else 3, corrected := 0, uncorrected := 0 }

/-- The L2 slices of the spare map before any swap: 32 active and 2 spare on each die (DESIGN CHOICE, log 4). -/
def spareSlices : List SliceSt :=
  (List.range 136).map fun n =>
    { die := n / 34, phys := n % 34, logical := n % 34, st := if n % 34 < 32 then 0 else 3, corrected := 0, uncorrected := 0 }

/-- The machine right after reset (00 R2, 04 R86, 20 R339, 24 R388): nothing runs, no table exists, memory lists nothing,
and the boot ROM is about to start. The values the spec does not give, the empty caches of the cores, of the L2 slices and of the hubs among
them, are named in logs 1 to 4 and 68 (DESIGN CHOICE). -/
def State.reset : State where
  tick := 0
  mover := .event .deviceReset
  cur := none
  nextId := 0
  mem := []
  stale := []
  tables := []
  slotIncs := []
  asidTable := 0
  tlb := []
  walks := []
  icache := []
  loops := []
  cores := []
  l1 := []
  l2 := []
  regions := []
  hubLines := []
  pchans := []
  dram := []
  monitors := []
  idx := []
  calls := []
  objs := []
  objIncs := []
  gangs := []
  queues := []
  ctlWrites := []
  recs := []
  reserved := []
  heat := []
  cols := spareCols
  slices := spareSlices
  ecnt := []
  swaps := []
  repaired := []
  errors := []
  memErrors := 0
  banks := []
  prot := []
  tree := []
  sweeps := []
  keys := []
  lost := []
  cleared := []
  taken := []
  dead := []
  deadLinks := []
  retraining := []
  peers := []
  staged := []
  images := []
  firmware := false
  snapshot := 0
  replies := []
  hostOut := []
  remoteOut := []
  sent := []

end Sys2Proof.Machine
end

