-- ==== Sys2Proof/Machine/Memory.lean ====
section
/-! DEFINITION. Memory as a canonical list of bytes by address, and byte order (00 R9). An unlisted address reads 0
(DESIGN CHOICE, log 2). The same lists hold stacks and shares (09 R195, R198). -/

namespace Sys2Proof.Machine

/-- What an unlisted address reads as (DESIGN CHOICE, log 2). -/
def unlisted : Byte := 0

/-- The byte at an address. -/
def Memory.get : List Host.Cell → Nat → Byte
  | [], _ => unlisted
  | (k, v) :: r, a => if k = a then v else Memory.get r a

/-- The list with a byte written; writing what an unlisted address reads as removes the entry. -/
def Memory.put : List Host.Cell → Nat → Byte → List Host.Cell
  | [], a, v => if v = unlisted then [] else [(a, v)]
  | (k, w) :: r, a, v =>
    if k < a then (k, w) :: Memory.put r a v
    else if k = a then (if v = unlisted then r else (a, v) :: r)
    else if v = unlisted then (k, w) :: r else (a, v) :: (k, w) :: r

/-- The canonical form: addresses strictly rising and no entry equal to what an unlisted address reads as. -/
def Memory.wf : List Host.Cell → Bool
  | [] => true
  | [(_, v)] => v != unlisted
  | (k, v) :: (l, w) :: r => v != unlisted && decide (k < l) && Memory.wf ((l, w) :: r)

/-- `n` bytes from an address on. -/
def Memory.bytes (m : List Host.Cell) (a n : Nat) : List Byte := (List.range n).map fun i => Memory.get m (a + i)

/-- The list with bytes written from an address on. -/
def Memory.putBytes (m : List Host.Cell) (a : Nat) : List Byte → List Host.Cell
  | [] => m
  | b :: bs => Memory.putBytes (Memory.put m a b) (a + 1) bs

/-- Bytes as a number, the first the least significant. -/
def leNat : List Byte → Nat
  | [] => 0
  | b :: bs => b.toNat + 256 * leNat bs

/-- A number as `n` bytes, the least significant first. -/
def leBytes : Nat → Nat → List Byte
  | 0, _ => []
  | n + 1, v => BitVec.ofNat 8 v :: leBytes n (v / 256)

/-- Bytes as a number, the first the most significant. -/
def beNat (bs : List Byte) : Nat := bs.foldl (fun a b => 256 * a + b.toNat) 0

end Sys2Proof.Machine
end

