-- ==== Sys2Proof/Machine/Base.lean ====
section
/-! DEFINITION. The named reads and updates of gangs, warps, lanes and fibres, the landing of results, counters, and the
release of parked fibres. -/

namespace Sys2Proof.Machine

/-- The gang of a context number. -/
def State.gang (s : State) (g : Nat) : Gang := s.gangs[g]?.getD default

/-- The state with one gang changed. -/
def State.mapGang (s : State) (g : Nat) (f : Gang → Gang) : State := { s with gangs := s.gangs.modify g f }

/-- A warp of a gang. -/
def Gang.warp (G : Gang) (w : Nat) : Warp := G.warps[w]?.getD default

/-- The gang with one warp changed. -/
def Gang.mapWarp (G : Gang) (w : Nat) (f : Warp → Warp) : Gang := { G with warps := G.warps.modify w f }

/-- A warp of the machine. -/
def State.warp (s : State) (g w : Nat) : Warp := (s.gang g).warp w

/-- The state with one warp changed. -/
def State.mapWarp (s : State) (g w : Nat) (f : Warp → Warp) : State := s.mapGang g fun G => G.mapWarp w f

/-- A lane slot of a warp. -/
def Warp.lane (W : Warp) (l : Nat) : Lane := W.lanes[l]?.getD default

/-- The warp with the lanes of a list changed. -/
def Warp.mapLanes (W : Warp) (ls : List Nat) (f : Nat → Lane → Lane) : Warp :=
  { W with lanes := W.lanes.mapIdx fun l L => if ls.contains l then f l L else L }

/-- The warp with every lane changed. -/
def Warp.mapAll (W : Warp) (f : Nat → Lane → Lane) : Warp := { W with lanes := W.lanes.mapIdx f }

/-- The lane with its fibre changed. -/
def Lane.mapFib (L : Lane) (f : Fibre → Fibre) : Lane := { L with fib := f L.fib }

/-- Whether a slot is exited in the sense of 04 R74: free or retired. -/
def Lane.exited (L : Lane) : Bool := L.slot == .free || L.slot == .retired

/-- Whether a slot holds a fibre (08 R163). -/
def Lane.holds (L : Lane) : Bool := !L.exited

/-- The lanes of a warp that hold a fibre. -/
def Warp.fibres (W : Warp) : List Nat := laneIds.filter fun l => (W.lane l).holds

/-- The number A of registers of a lane's space (02 R37). -/
def Warp.space (W : Warp) : Nat := 64 + 32 * W.x

/-- The core on which a warp of a gang lies (22 R358). -/
def Gang.coreOf (G : Gang) (W : Warp) : Nat := G.place.id + W.wg

/-- The core of a warp. -/
def State.coreOf (s : State) (g w : Nat) : Nat := (s.gang g).coreOf (s.warp g w)

/-- The time that the clocks of the cores and controllers have reached: the least of their next edges (20 R338; DESIGN CHOICE, log 6). -/
def State.refTime (s : State) : Nat :=
  (s.cores.map (·.edge) ++ s.pchans.map (·.edge)).min?.getD 0

/-- What a core holds for itself. -/
def State.coreSt (s : State) (core : Nat) : CoreSt :=
  (s.cores.find? fun c => c.core == core).getD { core := core, cycle := 0, xacq := [], edge := s.refTime }

/-- The state with a core's own state replaced. -/
def State.setCore (s : State) (c : CoreSt) : State :=
  { s with cores := c :: s.cores.filter fun d => d.core != c.core }

/-- The cycle count of the core of a warp (04 R86). -/
def State.now (s : State) (g w : Nat) : Nat := (s.coreSt (s.coreOf g w)).cycle

/-- The pc of the slot after a slot (01 R16). -/
def nextPc (pc : Word) : Word := if fld pc 0 4 = 12 then pc + 8 else pc + 4

/-- Whether an instruction is a pair (01 R26). -/
def isPair (i : Instr) : Bool := (encode i).length == 2

/-- The pc of the slot after an instruction. -/
def afterPc (i : Instr) (pc : Word) : Word := if isPair i then nextPc (nextPc pc) else nextPc pc

/-- Whether a pc names a slot (01 R15). -/
def namesSlot (pc : Word) : Bool := fld pc 0 2 = 0 && fld pc 0 4 != 0

/-- A result lands (04 R80). TRAPC keeps bits [15:0]; its bits [31:16] are 0 (02 R51). -/
def Warp.land1 (W : Warp) (t : Tgt) (v : DWord) : Warp :=
  match t with
  | .reg l i => W.mapLanes [l] fun _ L => { L with regs := L.regs.set i (v.setWidth 32) }
  | .bank l n => W.mapLanes [l] fun _ L => { L with bank := L.bank.set n (v.setWidth 32) }
  | .flag l n => W.mapLanes [l] fun _ L => L.mapFib fun f => { f with flags := setFlag f.flags n (v.setWidth 4) }
  | .sreg n => { W with sregs := W.sregs.set n v }
  | .ms => { W with ms := v.setWidth 12 }
  | .sbchk => { W with sbchk := v.getLsbD 0 }
  | .slim => { W with slim := v.setWidth 32 }
  | .gmiss => { W with gmiss := v.setWidth 32 }
  | .trapc => { W with trapc := (v.setWidth 16).setWidth 32 }
  | .trappc => { W with trappc := v.setWidth 32, trappcWritten := W.handler }
  | .sptr l => W.mapLanes [l] fun _ L => { L with sptr := v.setWidth 32, sptrSeen := v.setWidth 32 }
  | .seen l => W.mapLanes [l] fun _ L => { L with sptrSeen := v.setWidth 32 }
  | .trapaux l => W.mapLanes [l] fun _ L => { L with trapaux := v.setWidth 32 }
  | .faddr l => W.mapLanes [l] fun _ L => { L with faddr := v.setWidth 32 }
  | .wbase l => W.mapLanes [l] fun _ L => L.mapFib fun f => { f with w := v.toNat }
  | .cych => { W with cych := v.setWidth 32 }
  | .birth l => W.mapLanes [l] fun _ L => if L.slot = .nascent then { L with slot := .live } else L
  | .nowhere => W

/-- Every pending result that is due lands, in the order of issue (04 R80, R82). -/
def Warp.land (W : Warp) (now : Nat) : Warp :=
  let due := W.pend.filter fun p => p.due ≤ now
  let W' := { W with pend := W.pend.filter fun p => !(p.due ≤ now) }
  due.foldl (fun V p => V.land1 p.tgt p.val) W'

/-- Results on their way, `lat` cycles after `now`. -/
def Warp.post (W : Warp) (now lat : Nat) (owners : List Nat) (rs : List (Tgt × DWord)) : Warp :=
  { W with pend := W.pend ++ rs.map fun r => { tgt := r.1, val := r.2, due := now + lat, owners := owners, sb := false } }

/-- Scoreboarded results of known latency (04 R84). -/
def Warp.postSb (W : Warp) (now lat : Nat) (owners : List Nat) (rs : List (Tgt × DWord)) : Warp :=
  { W with pend := W.pend ++ rs.map fun r => { tgt := r.1, val := r.2, due := now + lat, owners := owners, sb := true } }

/-- Results of the issue under way, each lane's owned by itself and uniform ones by every lane of ISSUE. -/
def State.post (s : State) (c : Cur) (lat : Nat) (rs : List (Tgt × DWord)) : State :=
  s.mapWarp c.gang c.warp fun W => W.post (s.now c.gang c.warp) lat c.issue rs

/-- The lane whose register a target is. -/
def Tgt.lane? : Tgt → Option Nat
  | .reg l _ | .bank l _ => some l
  | _ => none

/-- The engine operations of a warp in flight on a counter. -/
def Gang.onCounter (G : Gang) (w c : Nat) : List Work := G.ops.filter fun o => o.warp == w && o.ctr == some c

/-- Counter(c) of a warp (10 R209): completions are counted in issue order. -/
def Gang.counter (G : Gang) (w c : Nat) : Nat :=
  let issued := (G.warp w).issued.getD c 0
  issued - (G.onCounter w c).foldl (fun m o => min m o.seq) issued

/-- A parked fibre goes on at its next slot (08 R176, 10 R210) with age 0 (04 R77; DEDUCED, log 55). -/
def Lane.resume (L : Lane) (now : Nat) : Lane :=
  { L with slot := .live, fib := { L.fib with pc := nextPc L.fib.pc, age := 0, readyAt := max L.fib.readyAt now } }

/-- The lanes parked at a WAITC whose counter has come down go on (10 R210, R211). `clk` is the cycle count of the core of
each warp of the gang. -/
def Gang.releaseWaitc (G : Gang) (clk : Nat → Nat) : Gang :=
  { G with warps := G.warps.mapIdx fun w W => W.mapAll fun _ L =>
      match L.slot with
      | .parked (.waitc c n) => if G.counter w c ≤ n then L.resume (clk w) else L
      | _ => L }

/-- The mask with which a lane is parked at REJOIN. -/
def Lane.mask (L : Lane) : Option DWord :=
  match L.slot with
  | .parked (.rejoin m _) => some m
  | _ => none

/-- The barrier at which a lane is parked. -/
def Lane.barrier (L : Lane) : Option (Nat × Nat) :=
  match L.slot with
  | .parked (.bar k i) => some (k, i)
  | _ => none

/-- The distinct masks with which fibres of the warp are parked (08 R174). -/
def Warp.masks (W : Warp) : List DWord := (laneIds.filterMap fun l => (W.lane l).mask).eraseDups

/-- Whether a mask is satisfied (08 R173). -/
def Warp.satisfied (W : Warp) (m : DWord) : Bool :=
  laneIds.all fun l => !m.getLsbD l || (W.lane l).exited || (W.lane l).mask == some m

/-- The rejoin table keeps the masks with which a fibre is parked, and serial mode ends once 8 or fewer are left (08 R174). -/
def Warp.trimRejoin (W : Warp) : Warp :=
  let V := { W with rejoinTab := W.rejoinTab.filter W.masks.contains, rejoinOut := W.rejoinOut.filter W.masks.contains }
  if V.serial && V.masks.length ≤ 8 then
    { V.mapAll (fun _ L => if L.slot = .live then L.mapFib fun f => { f with age := 0 } else L) with
      serial := false, rejoinTab := V.masks, rejoinOut := [] }
  else V

/-- The fibres parked with satisfied masks are released to their join targets, and the rejoin table forgets those masks (08 R173,
R174). -/
def Warp.rejoin (W : Warp) (now : Nat) : Warp :=
  let done := W.masks.filter W.satisfied
  let V := W.mapAll fun _ L =>
    match L.slot with
    | .parked (.rejoin m t) =>
      if done.contains m then
        { L with slot := .live, fib := { L.fib with pc := t, age := 0, readyAt := max L.fib.readyAt (now + 1) } }
      else L
    | _ => L
  V.trimRejoin

/-- The warps that take part in a barrier of warp `w` (08 R176). -/
def Gang.members (G : Gang) (w k : Nat) : List Nat :=
  (List.range G.warps.length).filter fun v => k == 2 || v == w || (k == 1 && (G.warp v).wg == (G.warp w).wg)

/-- Whether a barrier is complete (08 R176). -/
def Gang.barDone (G : Gang) (w : Nat) (b : Nat × Nat) : Bool :=
  (G.members w b.1).all fun v => laneIds.all fun l =>
    ((G.warp v).lane l).exited || ((G.warp v).lane l).barrier == some b

/-- The lanes parked at a barrier of warp `w` go on with age 0, each in the next cycle of its own core. -/
def Gang.releaseBar (G : Gang) (clk : Nat → Nat) (w : Nat) (b : Nat × Nat) : Gang :=
  (G.members w b.1).foldl (fun H v => H.mapWarp v fun V => V.mapAll fun _ L =>
    if L.barrier = some b then L.resume (clk v + 1) else L) G

/-- Every complete barrier of the gang releases its lanes. -/
def Gang.barriers (G : Gang) (clk : Nat → Nat) : Gang :=
  (List.range G.warps.length).foldl (fun H w =>
    ((laneIds.filterMap fun l => ((H.warp w).lane l).barrier).eraseDups).foldl
      (fun K b => if K.barDone w b then K.releaseBar clk w b else K) H) G

/-- The cause of a stuck warp (08 R175, R177): its parked lanes with their parking pcs and masks. -/
def Warp.stuckCause (W : Warp) (code : BitVec 8) : Cause :=
  { cls := 4, code := code, pc := ((W.fibres.head?.map fun l => (W.lane l).fib.pc).getD 0), lanes := W.fibres,
    words := W.fibres.map fun l => (l, (W.lane l).fib.pc, 0),
    masks := W.fibres.map fun l => (l, ((W.lane l).mask).getD 0), stuck := true, atIssue := false }

/-- Whether every fibre of the warp is parked at REJOIN or at a barrier of kind at most k. -/
def Warp.allParked (W : Warp) (k : Nat) : Bool :=
  laneIds.all fun l => (W.lane l).exited || (W.lane l).mask.isSome ||
    match (W.lane l).barrier with
    | some b => b.1 ≤ k
    | none => false

/-- Whether a lane of the warp waits at a barrier of kind k. -/
def Warp.waitsAt (W : Warp) (k : Nat) : Bool := laneIds.any fun l => ((W.lane l).barrier.map (·.1)) == some k

/-- The fibres of a stuck warp stand unparked at their parking instructions, its rejoin table is empty and none of its lanes
has arrived at a barrier (08 R175, R177); where serial mode so ends, every live fibre's age restarts at 0 (R174). -/
def Warp.unpark (W : Warp) : Warp :=
  { W.mapAll (fun _ L => if L.exited then L
      else { L with slot := .live, fib := { L.fib with age := if W.serial then 0 else L.fib.age } }) with
    rejoinTab := [], rejoinOut := [], serial := false }

/-- Warps that hold a fibre and have no cause yet take the stuck cause, and are unparked at once (08 R177). -/
def Gang.stick (G : Gang) (ws : List Nat) (code : BitVec 8) : Gang :=
  { G with warps := G.warps.mapIdx fun w W =>
      if ws.contains w && !W.fibres.isEmpty && W.cause.isNone then { W.unpark with cause := some (W.stuckCause code) } else W }

/-- The tests of 08 R175 and R177: a stuck gang, then stuck workgroups, then stuck warps. A warp that meets R175's condition
takes CTRL.REJOINSTUCK also while a lane of another warp waits at `.wgp` or `.gang` and a third warp runs on (DEDUCED, log
71). -/
def Gang.stuckTests (G : Gang) : Gang :=
  let all := List.range G.warps.length
  if (all.all fun w => (G.warp w).allParked 2) && (all.any fun w => (G.warp w).waitsAt 2) then G.stick all 4
  else
    let wgs := ((all.map fun w => (G.warp w).wg).eraseDups).filter fun g =>
      let ws := all.filter fun w => (G.warp w).wg == g
      (ws.all fun w => (G.warp w).allParked 2) && (ws.any fun w => (G.warp w).waitsAt 1)
    let H := G.stick (all.filter fun w => wgs.contains (G.warp w).wg) 4
    H.stick (all.filter fun w => (H.warp w).allParked 0) 2

/-- The tests that follow every issue, every end of a fibre and every FSPAWN (08 R173 to R177). -/
def Gang.settle (G : Gang) (clk : Nat → Nat) : Gang :=
  (({ G with warps := G.warps.mapIdx fun w (W : Warp) => W.rejoin (clk w) }).barriers clk).stuckTests

/-- A fault whose rule names no lane. -/
def flt (cls code : BitVec 8) : Flt := { cls := cls, code := code, words := [] }

/-- A fault whose FADDR goes to one lane. -/
def fltAt (cls code : BitVec 8) (l : Nat) (aux faddr : Word) : Flt := { cls := cls, code := code, words := [(l, aux, faddr)] }

/-- A fault whose FADDR goes to every lane of the set. -/
def fltAll (cls code : BitVec 8) (ls : List Nat) (aux faddr : Word) : Flt :=
  { cls := cls, code := code, words := ls.map fun l => (l, aux, faddr) }

/-- A fault at issue becomes the warp's cause (24 R372). -/
def State.raise (s : State) (c : Cur) (f : Flt) : State :=
  s.mapWarp c.gang c.warp fun W =>
    { W with cause := some { cls := f.cls, code := f.code, pc := c.pc, lanes := c.set, words := f.words, masks := [],
                             stuck := false, atIssue := true } }

/-- A fresh number of outstanding work. -/
def State.fresh (s : State) : State := { s with nextId := s.nextId + 1 }

/-- The number of the n-th free value of a kind below 32. -/
def freeKey (kind n : Nat) : Nat := 32 * n + kind

/-- The n-th free bit of a kind at this step (DESIGN CHOICE, log 9). -/
def State.free (s : State) (kind n : Nat) : Bool := Config.freeBit s.tick (freeKey kind n)

/-- The n-th free number of a kind at this step (DESIGN CHOICE, log 9). -/
def State.freeNat (s : State) (kind n : Nat) : Nat := Config.freeNat s.tick (freeKey kind n)

/-- Whether a gang is on the device and keeps its resources: its warps have a place. -/
def Gang.resident (G : Gang) : Bool := G.phase == .running || G.phase == .draining

/-- The context numbers of the resident gangs. -/
def State.residents (s : State) : List Nat := (List.range s.gangs.length).filter fun g => (s.gang g).resident

/-- The warps on a core that have not retired, as (gang, warp). -/
def State.onCore (s : State) (core : Nat) : List (Nat × Nat) :=
  (s.residents.map fun g =>
    ((List.range (s.gang g).warps.length).filter fun w =>
      (s.gang g).coreOf ((s.gang g).warp w) == core && !((s.gang g).warp w).retired).map fun w => (g, w)).flatten

/-- Free extended blocks of a core's pool (09 R188). -/
def State.poolFree (s : State) (core : Nat) : Nat :=
  Config.poolBlocks - (s.onCore core).foldl (fun a p => a + (s.warp p.1 p.2).x) 0

end Sys2Proof.Machine
end

