-- ==== Sys2Proof/Machine/Operands.lean ====
section
/-! DEFINITION. Operands: how fields name registers (02 R37 to R41, R48), what each instruction reads and writes, its
latency (04 R81), and the fields that REP may step (05 R90, 06 R123, 09 R200, 10 R213, 11 R244, 13 R260). -/

namespace Sys2Proof.Machine

/-- Where name `n` of a lane lies: through the window, or in the handler bank (02 R37, R48). -/
def Warp.loc (W : Warp) (l n : Nat) : Tgt :=
  if W.handler && 112 ≤ n then .bank l (n - 112) else .reg l ((W.lane l).fib.w + n)

/-- The value of name `n` in a lane. -/
def Warp.get (W : Warp) (l n : Nat) : Word :=
  match W.loc l n with
  | .bank _ k => (W.lane l).bank.getD k 0
  | .reg _ i => (W.lane l).regs.getD i 0
  | _ => 0

/-- The value of the pair at name `n` (02 R39). -/
def Warp.get64 (W : Warp) (l n : Nat) : DWord := (W.get l (n + 1)) ++ (W.get l n)

/-- The value of the four registers at name `n`. -/
def Warp.get128 (W : Warp) (l n : Nat) : QWord := (W.get64 l (n + 2)) ++ (W.get64 l n)

/-- The value of an s-register (02 R41). -/
def Warp.s (W : Warp) (n : Nat) : DWord := W.sregs.getD n 0

/-- Register `n` of a lane receives a word. -/
def Warp.put (W : Warp) (l n : Nat) (v : Word) : Tgt × DWord := (W.loc l n, v.setWidth 64)

/-- The pair at `n` of a lane receives 64 bits. -/
def Warp.put64 (W : Warp) (l n : Nat) (v : DWord) : List (Tgt × DWord) :=
  [W.put l n (v.setWidth 32), W.put l (n + 1) (v.extractLsb' 32 32)]

/-- Consecutive registers from `n` receive words. -/
def Warp.putN (W : Warp) (l n : Nat) (vs : List Word) : List (Tgt × DWord) :=
  vs.mapIdx fun k v => W.put l (n + k) v

/-- Whether the `k` registers from name `n` on exist in a lane (02 R38). -/
def Warp.fits (W : Warp) (l n k : Nat) : Bool :=
  if W.handler then n + k ≤ 128 && (112 ≤ n || (W.lane l).fib.w + min (n + k) 112 ≤ W.space)
  else (W.lane l).fib.w + n + k ≤ W.space

/-- What an instruction reads or writes: `k` registers from a name on, the same where only the entry itself checks the
window (13 R269), or one other register. -/
inductive Use where
  | reg (n k : Nat)
  | late (n k : Nat)
  | of (t : Tgt)
  deriving DecidableEq, Repr, Inhabited

/-- Registers of an integer operand (01 R29). -/
def tyRegs {n : Nat} (t : BitVec n) : Nat := if 2 ≤ t.toNat then 2 else 1

/-- Registers of a floating-point operand (01 R30). -/
def fRegs {n : Nat} (t : BitVec n) : Nat := if t.toNat = 1 then 2 else 1

/-- Registers of a memory format (01 R31). -/
def fmtRegs (f : Nat) : Nat := if f = 1 then 2 else if f = 2 then 4 else 1

/-- Registers of a key type (13 R256). -/
def keyRegs (kt : Nat) : Nat := if kt = 4 then 4 else if 2 ≤ kt then 2 else 1

/-- The I-form FMT code as the R-form one (01 R31). -/
def iFmt (f : Nat) : Nat := if f < 5 then f else f + 2

/-- Rows, inner dimension, columns and layout of ms (02 R50). -/
def msM (ms : BitVec 12) : Nat := (fld ms 9 3).toNat
def msK (ms : BitVec 12) : Nat := (fld ms 6 3).toNat
def msN (ms : BitVec 12) : Nat := (fld ms 3 3).toNat
def msLay (ms : BitVec 12) : Nat := (fld ms 0 2).toNat

/-- Registers of a footprint in the layout of ms (06 R119, R120). -/
def footprint (ms : BitVec 12) : Nat :=
  if msLay ms = 0 then msM ms * msN ms else msM ms * (msM ms + 1) / 2

/-- Registers of the n x n matrix in the layout of ms. -/
def squareFoot (ms : BitVec 12) : Nat := if msLay ms = 0 then msM ms * msM ms else msM ms * (msM ms + 1) / 2

/-- The s-register operand B under U, else the lane register or pair (01 R24). -/
def bUse {n : Nat} (u : BitVec 1) (k : Nat) (b : BitVec n) : Use := if u = 1 then .of (.sreg b.toNat) else .reg b.toNat k

/-- The status register that a number names, as a target (02 R51); none where it cannot be pending. -/
def statTgt (n l : Nat) : List Tgt :=
  match n with
  | 0x09 => [.cych]
  | 0x0B => [.sbchk]
  | 0x0C => [.slim]
  | 0x0D => [.sptr l, .seen l]
  | 0x0F => [.gmiss]
  | 0x10 => [.trapc]
  | 0x11 => [.trappc]
  | 0x12 => [.trapaux l]
  | 0x13 => [.faddr l]
  | _ => []

/-- Registers of a conversion's source and destination (05 R109). -/
def cvSrc (v : Nat) : Nat :=
  if v = 0 || v = 2 || v = 3 then 2 else if v = 4 || v = 5 || v = 13 then 4 else if v = 6 then 8 else 1
def cvDst (v : Nat) : Nat :=
  if v = 1 || v = 7 || v = 8 then 2 else if v = 9 || v = 10 || v = 12 then 4 else if v = 11 then 8 else 1

/-- The s-registers that an operand map names for L2-direct sources (11 R233). -/
def mapUses (m : DWord) : List Use :=
  (if (fld m 62 2).toNat = 1 then [.of (.sreg (fld m 0 6).toNat)] else []) ++
  (if (fld m 56 2).toNat = 2 then [.of (.sreg (fld m 16 6).toNat)] else [])

/-- The key type of the cursor that a lane names (13 R269). -/
def Gang.cursor (G : Gang) (n : Word) : Option (Nat × Cursor) :=
  if 8192 ≤ n.toNat then none
  else
    let wg := n.toNat / 2048
    ((G.wgs[wg]?.getD default).cursors.find? fun c => c.num == n.toNat % 2048).map fun c => (wg, c)

/-- What an instruction reads or writes in a lane of the set (02 R38, 04 R83, R84). `kt` is the key type of the cursor
that the lane names. The window base W counts as a register for `regs.wbase` alone, which writes it late: the spec does not say whether it
counts for STALL.SHORT, and CALL, RET, FSPAWN and the slots that name registers through W do not touch it here (DESIGN CHOICE, log 89). -/
def uses (i : Instr) (W : Warp) (l kt : Nat) : List Use :=
  match i with
  | .iadd u t d a b | .isub u t d a b | .imul u t d a b | .imulh u t d a b | .imad u t d a b | .imin u t d a b
  | .imax u t d a b | .andR u t d a b | .orR u t d a b | .xorR u t d a b | .andnR u t d a b | .shl u t d a b
  | .shr u t d a b | .sar u t d a b | .rot u t d a b | .bfx u t d a b | .bfi u t d a b =>
    [.reg d.toNat (tyRegs t), .reg a.toNat (tyRegs t), bUse u (tyRegs t) b]
  | .iaddc u t d a b => [.reg d.toNat (tyRegs t), .reg a.toNat (tyRegs t), bUse u (tyRegs t) b, .of (.flag l 0)]
  | .iabs t d a | .popc t d a | .clz t d a | .brev t d a => [.reg d.toNat (tyRegs t), .reg a.toNat (tyRegs t)]
  | .icmp u t f a b => [.of (.flag l f.toNat), .reg a.toNat (tyRegs t), bUse u (tyRegs t) b]
  | .iaddi t _ d a | .andi t _ d a | .ori t _ d a | .xori t _ d a | .shli t _ d a | .shri t _ d a | .sari t _ d a =>
    [.reg d.toNat (tyRegs t), .reg a.toNat (tyRegs t)]
  | .icmpi t _ f a => [.of (.flag l f.toNat), .reg a.toNat (tyRegs t)]
  | .movi _ _ d => [.reg d.toNat 1]
  | .mov x y d a =>
    [.reg d.toNat (if y = 1 then 2 else 1), if x = 1 then .of (.sreg a.toNat) else .reg a.toNat (if y = 1 then 2 else 1)]
  | .sel u f d a b => [.of (.flag l f.toNat), .reg d.toNat 1, .reg a.toNat 1, bUse u 1 b]
  | .srd n d => .reg d.toNat 1 :: (statTgt n.toNat l).map Use.of
  | .srdCyc d => [.reg d.toNat 1, .of .cych]
  | .swr n a => .reg a.toNat 1 :: (statTgt n.toNat l).map Use.of
  | .swrWstat a => [.reg a.toNat 1, .of .sbchk]
  | .swrSlim a => [.reg a.toNat 1, .of .slim]
  | .swrTrappc a => [.reg a.toNat 1, .of .trappc]
  | .v2s m d a => .of (.sreg d.toNat) :: (if m.toNat = 2 then [] else [.reg a.toNat (if m.toNat = 1 then 2 else 1)])
  | .salu m d a b =>
    .of (.sreg d.toNat) :: .of (.sreg a.toNat) :: (if m.toNat = 13 then [] else [.of (.sreg b.toNat)])
  | .smovi _ _ d => [.of (.sreg d.toNat)]
  | .regsWbase _ => [.of (.wbase l)]
  | .regsXacq _ => [.of (.flag l 0)]
  | .regsXqry d => [.reg d.toNat 1]
  | .cpl _ d a b _ c _ => [.reg d.toNat 1, .reg a.toNat 2, .reg b.toNat 1, .reg c.toNat 1]
  | .cpb _ d a _ _ => [.of (.sreg d.toNat), .of (.sreg a.toNat)]
  | .qpop _ w d => [.reg d.toNat (fmtRegs w.toNat), .of (.flag l 0)]
  | .qpush _ w a => [.reg a.toNat (fmtRegs w.toNat)]
  | .spldLoad a | .dfence a => [.of (.sreg a.toNat)]
  | .spldQry d => [.reg d.toNat 1]
  | .fadd t _ d a b | .fsub t _ d a b | .fmul t _ d a b | .ffma t _ d a b | .fmin t _ d a b | .fmax t _ d a b =>
    [.reg d.toNat (fRegs t), .reg a.toNat (fRegs t), .reg b.toNat (fRegs t)]
  | .fcmp t f a b => [.of (.flag l f.toNat), .reg a.toNat (fRegs t), .reg b.toNat (fRegs t)]
  | .fmod t o d a b =>
    .reg d.toNat (fRegs t) :: .reg a.toNat (fRegs t) :: (if o.toNat = 2 then [.reg b.toNat (fRegs t)] else [])
  | .frint t _ d a => [.reg d.toNat (fRegs t), .reg a.toNat (fRegs t)]
  | .f2i t _ d a k => [.reg d.toNat (if 2 ≤ k.toNat then 2 else 1), .reg a.toNat (fRegs t)]
  | .i2f t _ d a k => [.reg d.toNat (fRegs t), .reg a.toNat (if 2 ≤ k.toNat then 2 else 1)]
  | .fcvt v d a r _ p =>
    .reg d.toNat (cvDst v.toNat) :: .reg a.toNat (cvSrc v.toNat) :: (if r = 1 then [.reg p.toNat 1] else [])
  | .sfu _ _ d a _ => [.reg d.toNat 1, .reg a.toNat 1]
  | .welf t _ d a => [.reg d.toNat (3 * fRegs t), .reg a.toNat (fRegs t)]
  | .wmrg t _ d a => [.reg d.toNat (3 * fRegs t), .reg a.toNat (3 * fRegs t)]
  | .shfl _ d a b => [.reg d.toNat 1, .reg a.toNat 1, .reg b.toNat 1]
  | .shfli _ _ d a => [.reg d.toNat 1, .reg a.toNat 1]
  | .shpush c n d a b =>
    [.reg d.toNat 1, .reg a.toNat 1, .reg b.toNat 1] ++ (if c = 1 then [.of (.sreg (56 + n.toNat))] else [])
  | .vote f k d a b =>
    [.of (.flag l f.toNat), .reg a.toNat 1, .of (.sreg b.toNat)] ++ (if k.toNat = 3 then [.of (.sreg d.toNat)] else [])
  | .lred _ t d a b | .lscan _ t d a b =>
    [.reg d.toNat (if t.toNat = 3 then 2 else 1), .reg a.toNat (if t.toNat = 3 then 2 else 1), .of (.sreg b.toNat)]
  | .amo _ d a b _ _ o _ => [.reg d.toNat (1 + o.toNat), .reg a.toNat 2, .reg b.toNat (1 + o.toNat)]
  | .cas m d a b _ _ f _ =>
    [.reg d.toNat (1 + m.toNat), .reg a.toNat 2, .reg b.toNat (1 + m.toNat), .of (.flag l f.toNat)]
  | .mset .. => [.of .ms]
  | .mld _ d a b | .mst _ d a b => [.of .ms, .reg d.toNat (footprint W.ms), .reg a.toNat 2, .reg b.toNat 1]
  | .mmov d a => [.of .ms, .reg d.toNat (footprint W.ms), .reg a.toNat (footprint W.ms)]
  | .midn d => [.of .ms, .reg d.toNat (footprint W.ms)]
  | .mtrn d a => [.of .ms, .reg d.toNat (msM W.ms * msN W.ms), .reg a.toNat (msM W.ms * msN W.ms)]
  | .madd m d a b =>
    [.of .ms, .reg d.toNat (footprint W.ms), .reg a.toNat (footprint W.ms),
      .reg b.toNat (if m.toNat = 2 then 1 else footprint W.ms)]
  | .mmul _ _ _ d a b =>
    [.of .ms, .reg d.toNat (msM W.ms * msN W.ms), .reg a.toNat (msM W.ms * msK W.ms), .reg b.toNat (msK W.ms * msN W.ms)]
  | .mchol f d a b => [.of .ms, .reg d.toNat 1, .reg a.toNat (squareFoot W.ms), .of (.sreg b.toNat), .of (.flag l f.toNat)]
  | .mlup f d a b => [.of .ms, .reg d.toNat 2, .reg a.toNat (squareFoot W.ms), .of (.sreg b.toNat), .of (.flag l f.toNat)]
  | .mtrs p _ _ _ d a b =>
    [.of .ms, .reg d.toNat (msM W.ms * msN W.ms), .reg a.toNat (squareFoot W.ms)] ++ (if p = 1 then [.reg b.toNat 1] else [])
  | .msolv _ f d a b =>
    [.of .ms, .reg d.toNat (2 + msM W.ms * msN W.ms), .reg a.toNat (squareFoot W.ms), .of (.sreg b.toNat),
      .of (.flag l f.toNat)]
  | .mred _ d a => [.of .ms, .reg d.toNat 1, .reg a.toNat (footprint W.ms)]
  | .xmma m a b _ c _ =>
    let ms := if m.toNat = 1 || m.toNat = 2 then [c] else []
    ((a :: b :: ms).map fun r => Use.of (.sreg r.toNat)) ++ ((a :: b :: ms).map fun r => mapUses (W.s r.toNat)).flatten
  | .xaccZero a => [.of (.sreg a.toNat)]
  | .xaccRd d a b => [.reg d.toNat 1, .reg b.toNat 1, .of (.sreg a.toNat), .of (.flag l 0)]
  | .xaccWr d a b => [.reg d.toNat 1, .reg b.toNat 1, .of (.sreg a.toNat)]
  | .xaccTile d a => [.of (.sreg d.toNat), .of (.sreg a.toNat)]
  | .tgath d a b _ _ o c _ =>
    [.of (.sreg d.toNat), .of (.sreg (d.toNat + 1)), .reg a.toNat (keyRegs o.toNat), .of (.sreg b.toNat),
      .of (.sreg c.toNat), .of .gmiss]
  | .jmpr a => [.reg a.toNat 1]
  | .rejoin b _ => [.of (.sreg b.toNat)]
  | .fspawn d a _ => [.reg d.toNat 1, .reg a.toNat 1]
  | .call .. | .fenter _ => [.of (.sptr l), .of .slim]
  | .ret | .fleave _ => [.of (.sptr l)]
  | .rett => [.of (.flag l 0), .of (.flag l 1), .of (.flag l 2), .of (.flag l 3), .of .trappc]
  | .mwaitWatch a b | .syncDcwb a b | .syncDcinv a b => [.reg a.toNat 2, .reg b.toNat 1]
  | .mwaitWait d a => [.reg d.toNat 1, .reg a.toNat 1]
  | .syncIcinv a b => [.reg a.toNat 1, .reg b.toNat 1]
  | .lnch d a _ _ c => [.reg d.toNat 1, .reg a.toNat 2, .of (.sreg c.toNat), .of (.flag l 0)]
  | .ldl f d a b | .stl f d a b | .ldf f d a b | .stf f d a b =>
    [.reg d.toNat (fmtRegs f.toNat), .reg a.toNat 1, .reg b.toNat 1]
  | .ldr f d a b | .str f d a b => [.reg d.toNat (fmtRegs f.toNat), .reg a.toNat 2, .reg b.toNat 1]
  | .ldri f _ d a | .stri f _ d a => [.reg d.toNat (fmtRegs f.toNat), .reg a.toNat 2]
  | .ldli f _ d a | .stli f _ d a => [.reg d.toNat (fmtRegs f.toNat), .reg a.toNat 1]
  | .ldk f d a _ _ o c _ | .stk f d a _ _ o c _ =>
    [.reg d.toNat (fmtRegs f.toNat), .reg a.toNat (keyRegs o.toNat), .of (.sreg c.toNat), .of (.flag l 0)]
  | .frmLd n _ d => [.reg d.toNat (n.toNat + 1), .of (.sptr l), .of .slim]
  | .frmSt n _ a => [.reg a.toNat (n.toNat + 1), .of (.sptr l), .of .slim]
  | .tileDef d a => [.of (.sreg d.toNat), .of (.sreg a.toNat)]
  | .tileQry d a => [.reg d.toNat 1, .of (.sreg a.toNat)]
  | .tileSet _ a | .tileFree a => [.of (.sreg a.toNat)]
  | .tget d a _ _ o c | .tdel d a _ _ o c =>
    [.reg d.toNat 2, .reg a.toNat (keyRegs o.toNat), .of (.sreg c.toNat), .of (.flag l 0)]
  | .tins _ d a b _ _ o c _ =>
    [.reg d.toNat 2, .reg a.toNat (keyRegs o.toNat), .reg b.toNat 1, .of (.sreg c.toNat), .of (.flag l 0)]
  | .tupdVal d a b _ _ o c _ | .tupdFmt d a b _ _ o c =>
    [.reg d.toNat 1, .reg a.toNat (keyRegs o.toNat), .reg b.toNat 1, .of (.sreg c.toNat), .of (.flag l 0)]
  | .tseek _ _ d a _ _ o c => [.reg d.toNat 1, .reg a.toNat (keyRegs o.toNat), .of (.sreg c.toNat), .of (.flag l 0)]
  | .tcurStep d a b => [.reg d.toNat 2, .reg a.toNat 1, .late b.toNat (keyRegs kt), .of (.flag l 0)]
  | .tcurClose a => [.reg a.toNat 1]
  | .tcurKey d a => [.reg a.toNat 1, .late d.toNat (keyRegs kt), .of (.flag l 0)]
  | .rcall d a _ _ c _ => [.reg d.toNat 2, .reg a.toNat 8, .of (.sreg c.toNat)]
  | .rreadRead d a b _ _ c _ =>
    [.reg d.toNat 4, .reg a.toNat 8, .reg b.toNat 2, .of (.sreg c.toNat), .of (.flag l 0)]
  | .rreadWait d b _ _ c => [.reg d.toNat 4, .reg b.toNat 2, .of (.sreg c.toNat), .of (.flag l 0)]
  | .rreadStat d _ _ c => [.reg d.toNat 4, .of (.sreg c.toNat)]
  | _ => []

/-- The targets that a use touches in a lane. -/
def Use.tgts (W : Warp) (l : Nat) : Use → List Tgt
  | .reg n k | .late n k => (List.range k).map fun j => W.loc l (n + j)
  | .of t => [t]

/-- Whether a use passes the window check of 02 R38. -/
def Use.fits (W : Warp) (l : Nat) : Use → Bool
  | .reg n k => W.fits l n k
  | _ => true

/-- The fixed latency L of an instruction's results (04 R81; 08 R171 FSPAWN; 09 R190, R195); 0 where it has none. -/
def latency (i : Instr) : Nat :=
  match i with
  | .iadd .. | .isub .. | .iaddc .. | .imin .. | .imax .. | .iabs .. | .icmp .. | .andR .. | .orR .. | .xorR .. | .andnR ..
  | .shl .. | .shr .. | .sar .. | .rot .. | .popc .. | .clz .. | .brev .. | .bfx .. | .bfi .. | .iaddi .. | .andi ..
  | .ori .. | .xori .. | .shli .. | .shri .. | .sari .. | .icmpi .. | .movi .. | .mov .. | .sel .. | .srd .. | .srdCyc ..
  | .swr .. | .swrWstat .. | .swrSlim .. | .swrTrappc .. | .salu .. | .smovi .. | .regsWbase .. | .mset .. | .fspawn .. => 4
  | .imul .. | .imulh .. | .imad .. | .v2s .. | .shfl .. | .shfli .. | .shpush .. | .vote .. => 6
  | .fadd t .. | .fsub t .. | .fmul t .. | .ffma t .. | .fmin t .. | .fmax t .. | .fcmp t .. | .fmod t .. | .frint t ..
  | .f2i t .. | .i2f t .. => if t.toNat = 1 then 8 else 5
  | .fcvt v .. => if v.toNat ≤ 1 then 8 else 5
  | .sfu .. => 12
  | .welf t .. | .wmrg t .. => if t.toNat = 1 then 16 else 10
  | _ => 0

/-- A field that REP may step: bit 18 D, 17 A, 16 B of STEP (01 R22); an s-register field; the multiple that the advance
must be (01 R27, 09 R200). -/
structure Step where
  bit : Nat
  isS : Bool
  mult : Nat
  deriving DecidableEq, Repr, Inhabited

/-- A steppable lane-register field of `k` registers. -/
def stp (bit k : Nat) : Step := { bit := bit, isS := false, mult := k }
/-- A steppable s-register field. -/
def stpS (bit : Nat) : Step := { bit := bit, isS := true, mult := 1 }

/-- The fields that REP may step, or none where REP is not permitted (05 R90, 06 R123, 09 R200, 10 R213, 11 R244,
13 R260). A field of a next slot whose TY is reserved, or whose F2I or I2F code is not allowed, is taken for a pair, so an odd STRIDE + 1
is INSN.REP there and not that slot's own fault: the spec does not say which holds (DESIGN CHOICE, log 73). -/
def repFields (i : Instr) : Option (List Step) :=
  match i with
  | .nop => some []
  | .iadd u t .. | .isub u t .. | .iaddc u t .. | .imul u t .. | .imulh u t .. | .imad u t .. | .imin u t .. | .imax u t ..
  | .andR u t .. | .orR u t .. | .xorR u t .. | .andnR u t .. | .shl u t .. | .shr u t .. | .sar u t .. | .rot u t ..
  | .bfx u t .. | .bfi u t .. =>
    some [stp 2 (tyRegs t), stp 1 (tyRegs t), if u = 1 then stpS 0 else stp 0 (tyRegs t)]
  | .sel u .. => some [stp 2 1, stp 1 1, if u = 1 then stpS 0 else stp 0 1]
  | .iabs t .. | .popc t .. | .clz t .. | .brev t .. => some [stp 2 (tyRegs t), stp 1 (tyRegs t)]
  | .icmp u t .. => some [stp 1 (tyRegs t), if u = 1 then stpS 0 else stp 0 (tyRegs t)]
  | .iaddi t .. | .andi t .. | .ori t .. | .xori t .. | .shli t .. | .shri t .. | .sari t .. =>
    some [stp 2 (tyRegs t), stp 1 (tyRegs t)]
  | .icmpi t .. => some [stp 1 (tyRegs t)]
  | .movi .. | .srd .. | .srdCyc .. => some [stp 2 1]
  | .smovi .. => some [stpS 2]
  | .swr .. | .swrWstat .. | .swrSlim .. | .swrTrappc .. => some [stp 1 1]
  | .mov x y .. => some [stp 2 (if y = 1 then 2 else 1), if x = 1 then stpS 1 else stp 1 (if y = 1 then 2 else 1)]
  | .v2s m .. => some (if m.toNat = 2 then [stpS 2] else [stpS 2, stp 1 (if m.toNat = 1 then 2 else 1)])
  | .salu .. => some [stpS 2, stpS 1, stpS 0]
  | .fadd t .. | .fsub t .. | .fmul t .. | .ffma t .. | .fmin t .. | .fmax t .. =>
    some [stp 2 (fRegs t), stp 1 (fRegs t), stp 0 (fRegs t)]
  | .fcmp t .. => some [stp 1 (fRegs t), stp 0 (fRegs t)]
  | .fmod t o .. => some ([stp 2 (fRegs t), stp 1 (fRegs t)] ++ if o.toNat = 2 then [stp 0 (fRegs t)] else [])
  | .frint t .. | .welf t .. => some [stp 2 (fRegs t), stp 1 (fRegs t)]
  | .wmrg t .. => some [stp 2 (fRegs t), stp 1 (fRegs t), stp 0 1]
  | .f2i t _ _ _ k => some [stp 2 (if 2 ≤ k.toNat then 2 else 1), stp 1 (fRegs t)]
  | .i2f t _ _ _ k => some [stp 2 (fRegs t), stp 1 (if 2 ≤ k.toNat then 2 else 1)]
  | .fcvt v .. => some [stp 2 (if v.toNat = 1 then 2 else 1), stp 1 (if v.toNat = 0 then 2 else 1)]
  | .sfu .. => some [stp 2 1, stp 1 1]
  | .shfl .. | .shpush .. => some [stp 2 1, stp 1 1, stp 0 1]
  | .shfli .. => some [stp 2 1, stp 1 1]
  | .vote _ k .. => some ((if k.toNat = 3 then [stpS 2] else []) ++ [stp 1 1, stpS 0])
  | .lred _ t .. | .lscan _ t .. =>
    some [stp 2 (if t.toNat = 3 then 2 else 1), stp 1 (if t.toNat = 3 then 2 else 1), stpS 0]
  | .mld .. | .mst .. => some [stp 2 1, stp 1 2, stp 0 1]
  | .mmov .. | .mtrn .. | .mchol .. | .mlup .. | .msolv .. | .mred .. => some [stp 2 1, stp 1 1]
  | .midn .. => some [stp 2 1]
  | .madd .. | .mmul .. => some [stp 2 1, stp 1 1, stp 0 1]
  | .mtrs p .. => some ([stp 2 1, stp 1 1] ++ if p = 1 then [stp 0 1] else [])
  | .cpl .. => some [stp 2 1, stp 1 2, stp 0 1]
  | .xaccRd .. | .xaccWr .. => some [stp 2 1, stp 0 1]
  | .ldl f .. | .stl f .. | .ldf f .. | .stf f .. => some [stp 2 (fmtRegs f.toNat), stp 1 1, stp 0 1]
  | .ldli f .. | .stli f .. => some [stp 2 (fmtRegs (iFmt f.toNat)), stp 1 1]
  | .ldr f .. | .str f .. => some [stp 2 (fmtRegs f.toNat), stp 1 2, stp 0 1]
  | .ldri f .. | .stri f .. => some [stp 2 (fmtRegs (iFmt f.toNat)), stp 1 2]
  | _ => none

/-- Whether a major opcode has the I form (01 R35). -/
def iForm (maj : Nat) : Bool :=
  (0x18 ≤ maj && maj ≤ 0x20) || maj == 0x23 || maj == 0x24 || (0x27 ≤ maj && maj ≤ 0x28) || (0x2B ≤ maj && maj ≤ 0x2F) ||
  maj == 0x41 || maj == 0x48 || maj == 0x60 || maj == 0x61 || maj == 0x62 || maj == 0x65 ||
  (0x70 ≤ maj && maj ≤ 0x75)

/-- The lowest bit of the field that STEP bit `bit` names, in the form of a major opcode (01 R22). -/
def stepShift (maj bit : Nat) : Nat :=
  if iForm maj then (if bit = 2 then 7 else 0) else 7 * bit

/-- The word of repeat `j` of a repeated slot (01 R27): each stepped field advanced by (STRIDE + 1) x j. -/
def repWord (w : Word) (step stride j : Nat) : Word :=
  [0, 1, 2].foldl (fun v bit =>
    if step / 2 ^ bit % 2 = 1 then v + BitVec.ofNat 32 ((stride + 1) * j * 2 ^ stepShift (majOf w) bit) else v) w

/-- Whether a REP of this STEP, STRIDE and CNT may repeat an instruction in the word `w` (01 R27). -/
def repOk (i : Instr) (w : Word) (cnt step stride : Nat) : Bool :=
  match repFields i with
  | none => false
  | some fs => [0, 1, 2].all fun bit =>
      step / 2 ^ bit % 2 == 0 ||
        match fs.find? fun f => f.bit == bit with
        | none => false
        | some f =>
          (stride + 1) % f.mult == 0 &&
          decide ((fld w (stepShift (majOf w) bit) 7).toNat + (stride + 1) * cnt ≤ if f.isS then 63 else 127)

/-- The STEP bits that change what a repeat does: B of WMRG and of SALU `.mov`, which R90 lets REP step, is a field that the
instruction does not use, and a stepped one changes nothing (DEDUCED, log 29). -/
def stepsUsed (i : Instr) (step : Nat) : Nat :=
  match i with
  | .wmrg .. => step / 2 * 2
  | .salu m .. => if m.toNat = 13 then step / 2 * 2 else step
  | _ => step

/-- The major opcodes some of whose instructions REP may repeat. -/
def repMaj (m : Nat) : Bool :=
  m ≤ 0x27 || m == 0x29 || (0x30 ≤ m && m ≤ 0x3E) || (0x40 ≤ m && m ≤ 0x45) || (0x49 ≤ m && m ≤ 0x54) || m == 0x56 ||
  (0x68 ≤ m && m ≤ 0x6D) || (0x70 ≤ m && m ≤ 0x73)

/-- Whether a REP of this CNT, STEP and STRIDE in slot `k` of a quad meets a case of 01 R27: it faults INSN.REP before any other cause of its own and
before the repeated slot's causes. The fields of a next slot that names no row of the table cannot be judged, and its own
cause applies (DEDUCED, log 73). -/
def repBad (ws : List Word) (k cnt step stride : Nat) : Bool :=
  let w := ws.getD (k + 1) 0
  k == 3 || !repMaj (majOf w) ||
    match rowOf w (ws.getD (k + 2) 0) with
    | .error _ => false
    | .ok (i, _) => !repOk i w cnt step stride

end Sys2Proof.Machine
end

