-- ==== Sys2Proof/Machine/Translate.lean ====
section
/-! DEFINITION. Physical addresses, apertures, page walks and containment (20 R322 to R332, 24 R380, R381). -/

namespace Sys2Proof.Machine

/-- Whether a physical address lies in HBM4E (20 R322). -/
def inHbm (pa : Nat) : Bool := pa < 0x6000000000
/-- Whether a physical address lies in the capacity tier. -/
def inCapacity (pa : Nat) : Bool := 0x10000000000 ≤ pa && pa < 0x20000000000
/-- Whether a physical address lies in the peer window. -/
def inPeer (pa : Nat) : Bool := 0x40000000000 ≤ pa && pa < 0x80000000000
/-- Whether a physical address lies in the host window. -/
def inHost (pa : Nat) : Bool := 0x80000000000 ≤ pa && pa < 0x100000000000
/-- Whether a physical address lies in a hole. -/
def inHole (pa : Nat) : Bool := !(inHbm pa || inCapacity pa || inPeer pa || inHost pa)

/-- `n` bits of a number from bit `lo`. -/
def nfld (x lo n : Nat) : Nat := x / 2 ^ lo % 2 ^ n

/-- The cell of a physical address through an aperture (20 R330). Outside HBM4E the cell is the address itself. -/
def cellOf (aper pa : Nat) : Nat :=
  if !inHbm pa then pa
  else match aper with
    | 1 => pa - nfld pa 8 3 * 256 + (nfld pa 8 3 ^^^ nfld pa 12 3) * 256
    | 2 =>
      nfld pa 0 8 + nfld pa 23 9 * 2 ^ 8 + nfld pa 8 2 * 2 ^ 17 + nfld pa 21 2 * 2 ^ 19 + nfld pa 10 2 * 2 ^ 21 +
        nfld pa 12 9 * 2 ^ 23 + nfld pa 32 12 * 2 ^ 32
    | _ => pa

/-- The pseudo-channel of a DRAM address, 0 to 511, and the bank index within it (20 R332). -/
def pchOf (da : Nat) : Nat := (nfld da 8 3 * 32 + nfld da 11 5) * 2 + nfld da 16 1
def bankOf (da : Nat) : Nat := 4 * nfld da 19 2 + nfld da 17 2

/-- The stack of a DRAM address. -/
def stackOf (da : Nat) : Nat := nfld da 8 3

/-- The Perpel ports of a hub die (DESIGN CHOICE, log 4). -/
def hubPorts (h : Nat) : List Nat := (List.range 12).map fun i => 12 * h + i

/-- The agents that a link can lead to: dies, stacks, hubs and the remote devices of the peer windows. -/
def agentsOf (peers : List (Nat × Nat)) : List Agent :=
  (List.range 4).map .computeDie ++ (List.range 8).map .stack ++ (List.range 2).map .hub ++ peers.map fun p => .remote p.2

/-- Whether a cell lies in a peer window of a remote device. -/
def inWindow (peers : List (Nat × Nat)) (d cell : Nat) : Bool :=
  inPeer cell && peers.any fun p => p.2 == d && p.1 == (cell - 0x40000000000) / 2 ^ 36

/-- Whether a dead agent contains a cell (24 R380). A dead hub contains what is reached through its ports: the windows of the devices
behind them, of which the spec does not say which they are (DESIGN CHOICE, log 11). -/
def Agent.contains (peers : List (Nat × Nat)) (a : Agent) (cell : Nat) : Bool :=
  match a with
  | .computeDie k => inHbm cell && stackOf cell / 2 == k
  | .stack k => inHbm cell && stackOf cell == k
  | .hub h => (inCapacity cell && nfld cell 8 1 == h) || (inPeer cell && (hubPorts h).any fun l =>
      match (agentsOf peers)[Config.linkAgent l]? with
      | some (.remote d) => inWindow peers d cell
      | _ => false)
  | .remote d => inWindow peers d cell
  | _ => false

/-- Whether a range given by its first cell and its bytes holds a cell. -/
def inRange (r : Nat × Nat × Nat) (cell : Nat) : Bool := r.1 ≤ cell && cell < r.1 + r.2.1

/-- Whether a cell is contained: a dead agent contains it, and no CONTAIN.CLR since that agent's death covers it (24 R380
to R382). -/
def State.containedCell (s : State) (cell : Nat) : Bool :=
  s.dead.zipIdx.any fun a =>
    (Agent.contains s.peers a.1 cell || s.taken.any fun r => r.2.2 == a.2 && inRange r cell) &&
      !(s.cleared.any fun r => decide (a.2 < r.2.2) && inRange r cell)

/-- Whether a cell's 64-byte line is lost (24 R379). -/
def State.lostCell (s : State) (cell : Nat) : Bool := s.lost.contains (cell / 64)

/-- A translation fault: its code and the level at which the walk stopped (20 R327), and the lines that its walk retires (R346). -/
structure XFault where
  code : BitVec 8
  level : Nat
  retires : List Nat := []
  deriving DecidableEq, Repr, Inhabited

/-- The stale bytes of a cell and path whose writes a reader, a warp or another agent, does not see: the youngest ones, down to the first
whose write it sees (16 R287; DESIGN CHOICE, log 5). -/
def unseen (st : List Stale) (path : Path) (who : Option (Nat × Nat)) (cell : Nat) : List Stale :=
  (st.filter fun e => e.cell == cell && e.paths.getLsbD path).takeWhile fun e => !(who.map e.but.contains).getD false

/-- The warp whose issue is under way. -/
def State.reader (s : State) : Option (Nat × Nat) := s.cur.map fun c => (c.gang, c.warp)

/-- The byte that a read of a cell through a path returns: what the location holds through that path, for the warp whose issue is under
way or for another agent (16 R287, R294; DESIGN CHOICE, log 5). A read of the peer window goes to the remote device, whose answer is
free (20 R337; DESIGN CHOICE, log 79). -/
def State.readCell (s : State) (path : Path) (cell : Nat) : Byte :=
  if inPeer cell then Config.remoteByte s.tick cell
  else match (unseen s.stale path s.reader cell).getLast? with
  | some e => e.old
  | none => Memory.get s.mem cell

/-- The eight bytes at a physical address, as walkers read them, row-major (20 R328). -/
def State.qword (s : State) (pa : Nat) : Nat := leNat ((List.range 8).map fun i => s.readCell 0 (pa + i))

/-- One bit of a page-table entry. -/
def ebit (e k : Nat) : Bool := e.testBit k

/-- The physical address that an entry holds (20 R325). -/
def entryAddr (e : Nat) : Nat := nfld e 12 32 * 4096

/-- The key slot of the leaf that maps a physical address, below a page table of a level; 0 for none (20 R343). -/
def State.tableKey (s : State) (pa : Nat) : Nat → Nat → Nat
  | 0, _ => 0
  | lvl + 1, table => ((List.range 512).findSome? fun k =>
      let e := s.qword (table + 8 * k)
      let size := if lvl = 0 then 4096 else 2097152
      if !ebit e 0 then none
      else if ebit e 1 then
        if nfld e 48 8 ≠ 0 && decide (entryAddr e ≤ pa) && decide (pa < entryAddr e + size) then some (nfld e 48 8) else none
      else match s.tableKey pa lvl (entryAddr e) with
        | 0 => none
        | n => some n).getD 0

/-- The key slot of the protected region that holds a physical address; 0 for none. -/
def State.keyAt (s : State) (pa : Nat) : Nat :=
  if s.keys.isEmpty then 0
  else ((List.range 4096).findSome? fun a =>
    let e := s.qword (s.asidTable + 8 * a)
    if !ebit e 0 then none
    else match s.tableKey pa 4 (entryAddr e) with
      | 0 => none
      | n => some n).getD 0

/-- Whether a tag or tree check fails as an agent that names a line of a protected region by its physical address reads it (20 R346;
DESIGN CHOICE, log 69). -/
def State.paFails (s : State) (line : Nat) : Bool := s.keyAt (64 * line) != 0 && s.free 7 line

/-- An entry that a walk at a level reads. A walk meets containment, lost lines and failing checks as any access does (24 R379, R381;
20 R346): codes 6, 7 and 8 stand for CONTAIN.AGENT, MEM.UE and MEM.INTEG (DEDUCED, log 61). -/
def State.entry (s : State) (pa lvl : Nat) : Except XFault Nat :=
  if s.containedCell pa then .error ⟨6, lvl, []⟩
  else if s.lostCell pa then .error ⟨7, lvl, []⟩
  else if s.paFails (pa / 64) then .error ⟨8, lvl, [pa / 64]⟩
  else .ok (s.qword pa)

/-- The checks of a leaf of `size` bytes (20 R325, R327). -/
def leafCheck (e size lvl : Nat) : Option XFault :=
  if entryAddr e % size ≠ 0 || (nfld e 48 8 ≠ 0 && !(inHbm (entryAddr e) || inCapacity (entryAddr e))) then some ⟨2, lvl, []⟩
  else if inHole (entryAddr e) then some ⟨3, lvl, []⟩
  else none

/-- The must-be-zero bits of an entry at a level (20 R325). -/
def reservedBits (e lvl : Nat) : Bool :=
  nfld e 56 8 != 0 || nfld e 44 4 != 0 || nfld e 6 6 != 0 || (ebit e 5 && lvl != 1)

/-- The cached form of a leaf; a cache that keeps it puts its own name. -/
def leafTlb (asid vbase size pbase e : Nat) : Tlb :=
  { cache := .die 0, asid := asid, vbase := vbase, size := size, pbase := pbase, key := nfld e 48 8, r := ebit e 2, w := ebit e 3, x := ebit e 4 }

/-- The level-1 entry by which a member of a 64 KiB run translates: its own, or, for a run that breaks the conditions of
20 R326, that of any other member (DESIGN CHOICE, log 9). -/
def State.runEntry (s : State) (table va e : Nat) : Nat × Nat :=
  let own := nfld va 12 4
  let j := s.freeNat 19 (va / 4096) % 16
  let f := s.qword (table + (nfld va 12 9 - own + j) * 8)
  if ebit e 5 && ebit f 0 && ebit f 5 && ebit f 1 && !reservedBits f 1 && (leafCheck f 4096 1).isNone then (f, j) else (e, own)

/-- A walk from the table of a level down (20 R324, R327). -/
def State.walkFrom (s : State) (asid va : Nat) : Nat → Nat → Except XFault Tlb
  | 0, _ => .error ⟨1, 1, []⟩
  | lvl + 1, table =>
    match s.entry (table + nfld va (12 + 9 * lvl) 9 * 8) (lvl + 1) with
    | .error f => .error f
    | .ok e =>
    let leaf := ebit e 1
    if !ebit e 0 then .error ⟨1, lvl + 1, []⟩
    else if reservedBits e (lvl + 1) || (leaf && 2 ≤ lvl) || (!leaf && lvl = 0) || (!leaf && nfld e 48 8 ≠ 0) then
      .error ⟨2, lvl + 1, []⟩
    else if leaf then
      let size := if lvl = 0 then 4096 else 2097152
      match leafCheck e size (lvl + 1) with
      | some f => .error f
      | none =>
        if lvl = 0 then
          let (f, j) := s.runEntry table va e
          -- the caches may keep a run as one entry of 64 KiB (20 R326)
          if ebit e 5 && entryAddr f % 65536 = 4096 * j && s.free 5 (va / 4096) then
            .ok (leafTlb asid (va / 65536 * 65536) 65536 (entryAddr f - j * 4096) f)
          else .ok (leafTlb asid (va / 4096 * 4096) 4096 (entryAddr f + nfld va 12 4 * 4096 - j * 4096) f)
        else .ok (leafTlb asid (va / size * size) size (entryAddr e) e)
    else s.walkFrom asid va lvl (entryAddr e)

/-- A whole walk, from the ASID table (20 R323, R324). -/
def State.walk (s : State) (asid va : Nat) : Except XFault Tlb :=
  match s.entry (s.asidTable + 8 * asid) 5 with
  | .error f => .error f
  | .ok e =>
  if !ebit e 0 then .error ⟨1, 5, []⟩
  else if nfld e 1 11 ≠ 0 || nfld e 44 20 ≠ 0 then .error ⟨2, 5, []⟩
  else s.walkFrom asid va 4 (entryAddr e)

/-- The physical addresses of the entries that a walk reads, below the table of a level. -/
def State.walkReadsFrom (s : State) (va : Nat) : Nat → Nat → List Nat
  | 0, _ => []
  | lvl + 1, table =>
    let pa := table + nfld va (12 + 9 * lvl) 9 * 8
    pa :: match s.entry pa (lvl + 1) with
      | .error _ => []
      | .ok e =>
        if ebit e 0 && !reservedBits e (lvl + 1) && !ebit e 1 && lvl ≠ 0 && nfld e 48 8 = 0 then s.walkReadsFrom va lvl (entryAddr e)
        else []

/-- The physical addresses of the entries that a walk reads. -/
def State.walkReads (s : State) (asid va : Nat) : List Nat :=
  (s.asidTable + 8 * asid) :: match s.entry (s.asidTable + 8 * asid) 5 with
    | .error _ => []
    | .ok e => if ebit e 0 && nfld e 1 11 = 0 && nfld e 44 20 = 0 then s.walkReadsFrom va 4 (entryAddr e) else []

/-- Where an access is made: the core, for an access of a core's own, and the die, where the agent lies on a compute die. -/
structure Site where
  core : Option Nat
  die : Option Nat
  deriving DecidableEq, Repr, Inhabited

/-- The site of a core's accesses. -/
def Site.ofCore (k : Nat) : Site := { core := some k, die := some (k / 288) }
/-- The site of an engine, an index engine or another agent of a die. -/
def Site.ofDie (d : Nat) : Site := { core := none, die := some d }
/-- The site of an agent that lies on no compute die. -/
def Site.elsewhere : Site := { core := none, die := none }

/-- Whether a translation cache serves the accesses of a site: a core's own, its cluster's, and its die's; of the other agents of a die
the die's. The caches of the dies serve the agents that lie on none (20 R328; DESIGN CHOICE, log 20). -/
def XCache.serves (c : XCache) (site : Site) : Bool :=
  match c with
  | .core n => site.core == some n
  | .cluster n => site.core.map (· / 4) == some n
  | .die n => site.die == some n || site.die.isNone

/-- Whether a cached translation is of an address of an address space. -/
def Tlb.covers (t : Tlb) (asid va : Nat) : Bool := t.asid == asid && t.vbase ≤ va && va < t.vbase + t.size

/-- What the walk to which a miss attaches has found: of a page for which a walk of the core's die is in flight (20 R328). -/
def State.attachedTo (s : State) (site : Site) (asid va : Nat) : Option (Except XFault Tlb) :=
  (s.walks.find? fun w => w.started && site.die == some w.die && w.asid == asid && w.page == va / 4096).bind fun w =>
    match w.result, w.fault with
    | some t, _ => some (.ok t)
    | none, some f => some (.error ⟨f.1, f.2, []⟩)
    | none, none => none

/-- The translation of a virtual address for a core, or for another agent: a cached one, else what the walk that it attaches to
finds, else that of a walk of its own (20 R328; DESIGN CHOICE, log 20). -/
def State.translateAt (s : State) (site : Site) (asid va : Nat) : Except XFault Tlb :=
  if 2 ^ 48 ≤ va then .error ⟨1, 0, []⟩
  else match s.tlb.find? fun t => t.cache.serves site && t.covers asid va with
    | some t => .ok t
    | none =>
      match s.attachedTo site asid va with
      | some r => r
      | none => s.walk asid va

/-- The die of the agent whose turn it is, where it is an agent of a compute die: a core, an engine of a gang's core, or the index engine
of a table's home slice. -/
def State.turnDie (s : State) : Option Nat :=
  match s.mover with
  | .core id => some (id / 288)
  | .engine ctx .. => some (s.gang ctx).place.die
  | .event i =>
    match i with
    | .cplComplete ctx _ | .cpbComplete ctx _ | .dfenceComplete ctx _ | .smallMatrixComplete ctx _ | .xmmaComplete ctx _
    | .xaccTileComplete ctx _ | .tgathComplete ctx _ | .engineSideFault ctx _ | .rowAccessComplete ctx _ | .streamFetchComplete ctx
    | .syncComplete ctx _ _ | .fenceComplete ctx _ _ => some (s.gang ctx).place.die
    | .indexEngineOperation op =>
      (s.idx.find? fun o => o.id == op).bind fun o =>
        (s.tables.find? fun t => t.asid == (s.gang o.ctx).asid && t.slot == o.cells.getD 0 0).map fun t => t.desc.home / 32
    | _ => none
  | _ => none

/-- Where the access under way is made: at the core whose issue is under way, or on the die of the agent whose turn it is. -/
def State.site (s : State) : Site :=
  match s.cur with
  | some c => Site.ofCore c.core
  | none => { core := none, die := s.turnDie }

/-- The translation of a virtual address for the access under way. -/
def State.translate (s : State) (asid va : Nat) : Except XFault Tlb := s.translateAt s.site asid va

/-- What an access does to the bytes it names. -/
inductive Acc where
  | read
  | write
  | rmw
  | fetch
  deriving DecidableEq, Repr, Inhabited

/-- Whether a page's permissions allow an access (20 R327 XLAT.PERM). -/
def Tlb.allows (t : Tlb) : Acc → Bool
  | .read => t.r
  | .write => t.w
  | .rmw => t.r && t.w
  | .fetch => t.x

/-- The level of the leaf that a translation came from. -/
def Tlb.level (t : Tlb) : Nat := if t.size = 2097152 then 2 else 1

/-- The physical address of a virtual one in a page. -/
def Tlb.pa (t : Tlb) (va : Nat) : Nat := t.pbase + (va - t.vbase)

/-- The cell of one virtual address through an aperture, with the faults of 20 R327. -/
def State.cellAt (s : State) (asid aper va : Nat) (k : Acc) : Except XFault Nat :=
  match s.translate asid va with
  | .error f => .error f
  | .ok t =>
    if !t.allows k then .error ⟨4, t.level, []⟩
    else if aper ≠ 0 && !inHbm (t.pa va) then .error ⟨5, t.level, []⟩
    else .ok (cellOf aper (t.pa va))

/-- The cells of `n` bytes from a virtual address on. Bytes of one 4 KiB page share a translation. -/
def State.cellsAt (s : State) (asid aper va n : Nat) (k : Acc) : Except XFault (List Nat) :=
  match s.translate asid va with
  | .error f => .error f
  | .ok t =>
    if !t.allows k then .error ⟨4, t.level, []⟩
    else if aper ≠ 0 && !inHbm (t.pa va) then .error ⟨5, t.level, []⟩
    else if va % 4096 + n ≤ 4096 then .ok ((List.range n).map fun i => cellOf aper (t.pa (va + i)))
    else (List.range n).mapM fun i => s.cellAt asid aper (va + i) k

/-- The entries that a translation cache holds (20 R328). -/
def XCache.room : XCache → Nat
  | .core _ => Config.coreXlats
  | .cluster _ => Config.clusterXlats
  | .die _ => Config.dieXlats

/-- A translation cache as a number. -/
def XCache.code : XCache → Nat
  | .core k => 3 * k
  | .cluster k => 3 * k + 1
  | .die k => 3 * k + 2

/-- A translation cache keeps an entry; where it is full, a free one of its entries makes room (20 R328; DESIGN CHOICE, log 20). -/
def State.keepXlat (s : State) (c : XCache) (t : Tlb) : State :=
  let mine := s.tlb.filter fun e => e.cache == c
  if mine.any fun e => e.asid == t.asid && e.vbase < t.vbase + t.size && t.vbase < e.vbase + e.size then s
  else
    let out := mine.getD (s.freeNat 20 c.code % mine.length) default
    { s with tlb := (if c.room ≤ mine.length then s.tlb.filter fun e => e != out else s.tlb) ++ [{ t with cache := c }] }

/-- The caches of a core and its cluster keep an entry. -/
def State.keepFor (s : State) (t : Tlb) (core : Nat) : State := (s.keepXlat (.core core) t).keepXlat (.cluster (core / 4)) t

end Sys2Proof.Machine
end

