-- ==== Sys2Proof/Machine/Traffic.lean ====
section
/-! DEFINITION. What accesses leave in the caches, the coherence regions, the memory controllers and the counters of protected
pages (20 R331 to R346; 24 R386), the walks that they start (R328), and what accesses wait for. None of it changes a value that an
access returns. -/

namespace Sys2Proof.Machine

/-- A 128-byte block that an access touches (20 R333): its aperture and line, the first and the last byte touched, the physical
address of its first byte, and the key slot of its page. -/
structure Block where
  aper : Nat
  line : Nat
  lo : Nat
  hi : Nat
  pa : Nat
  key : Nat
  deriving DecidableEq, Repr, Inhabited

/-- The bytes of the smallest aligned granule that holds every byte touched in a block (20 R333). -/
def Block.size (b : Block) : Nat := (([16, 32, 64].find? fun n => b.lo / n == b.hi / n)).getD 128

/-- The 16-byte pieces of a block's granule. -/
def Block.mask (b : Block) : BitVec 8 := BitVec.ofNat 8 (2 ^ (b.size / 16) - 1) <<< (b.lo / b.size * b.size / 16)

/-- The bursts of 32 bytes that the DRAM makes for a granule. -/
def Block.bursts (b : Block) : Nat := (b.size + 31) / 32

/-- The first cells of the 64-byte halves of its line that a block touches. -/
def Block.halves (b : Block) : List Nat := (List.range (b.hi / 64 + 1 - b.lo / 64)).map fun k => 128 * b.line + 64 * (b.lo / 64 + k)

/-- Blocks with one more: what is touched in one block of an aperture is one request (20 R333). -/
def mergeBlock : List Block → Block → List Block
  | [], b => [b]
  | c :: r, b =>
    if c.aper = b.aper && c.line = b.line then { c with lo := min c.lo b.lo, hi := max c.hi b.hi } :: r
    else c :: mergeBlock r b

/-- The blocks of `n` bytes from a virtual address on. An access through the compressed view moves whole lines (20 R333). -/
def State.blocksAt (s : State) (asid aper view va n : Nat) : List Block :=
  (List.range ((va + n - 1) / 128 + 1 - va / 128)).filterMap fun k =>
    let v := (va / 128 + k) * 128
    match s.translate asid v with
    | .error _ => none
    | .ok t => some { aper := aper, line := cellOf aper (t.pa v) / 128, lo := if view = 1 then 0 else max va v - v,
                      hi := if view = 1 then 127 else min (va + n) (v + 128) - 1 - v, pa := t.pa v, key := t.key }

/-- The home die of a cell: of HBM4E the die beside its stack, of the capacity tier its hub (20 R332, R342). -/
def homeDie (cell : Nat) : Nat := if inHbm cell then stackOf cell / 2 else 4 + nfld cell 8 1

/-- The number of the host link; the links 0 to 23 are the Perpel ports (DESIGN CHOICE, log 4). -/
def hostLink : Nat := 24

/-- The logical L2 slice of a die that a line lies in: within its home die, and on a die that holds a copy (20 R332; DESIGN CHOICE, log
11). -/
def sliceOf (line : Nat) : Nat := Config.homeSlice (128 * line) % Config.slices

/-- The caches, the regions, the memory controllers' accesses, the banks and the protected pages of the machine, with the number of
the step, the time of the core's clock edge at which an access issues, the controllers' clocks and the keys that are swept, which accesses
only read. -/
structure Caches where
  tick : Nat
  edge : Nat := 0
  pchans : List PChan
  sweeps : List Nat
  l1 : List L1Line
  l2 : List L2Line
  regions : List Region
  hubLines : List Nat
  dram : List DramReq
  banks : List (Nat × BankSt)
  prot : List ProtPage
  tree : List (Nat × Nat)
  deriving DecidableEq, Repr, Inhabited

/-- The caches of the machine. -/
def State.caches (s : State) : Caches :=
  { tick := s.tick, pchans := s.pchans, sweeps := s.sweeps, l1 := s.l1, l2 := s.l2, regions := s.regions, hubLines := s.hubLines,
    dram := s.dram, banks := s.banks, prot := s.prot, tree := s.tree }

/-- The machine with its caches as accesses leave them. -/
def State.putCaches (s : State) (c : Caches) : State :=
  { s with l1 := c.l1, l2 := c.l2, regions := c.regions, hubLines := c.hubLines, dram := c.dram, banks := c.banks,
           prot := c.prot, tree := c.tree }

/-- A free number of the step for the caches. -/
def Caches.freeNat (c : Caches) (kind n : Nat) : Nat := Config.freeNat c.tick (freeKey kind n)

/-- The cycle of its controller in which an access enters a pseudo-channel: at the first edge of the controller at or after that of the core
(20 R338), which it has made already or makes next. -/
def Caches.clock (c : Caches) (p : Nat) : Nat :=
  match c.pchans.find? fun x => x.pch == p with
  | some x => if c.edge + 11 ≤ x.edge then x.clock else x.clock + 1
  | none => 1

/-- A line of the capacity tier that its hub's memory-side cache takes; where that is full, a free one of its lines makes room (20 R342;
DESIGN CHOICE, log 66). -/
def Caches.touchHub (c : Caches) (line : Nat) : Caches :=
  if !inCapacity (128 * line) || c.hubLines.contains line then c
  else
    let mine := c.hubLines.filter fun l => homeDie (128 * l) == homeDie (128 * line)
    let out := mine.getD (c.freeNat 22 line % mine.length) 0
    { c with hubLines := (if Config.hubLines ≤ mine.length then c.hubLines.filter fun l => l != out else c.hubLines) ++ [line] }

/-- An access sets out for the controller of a line: of the capacity tier for its hub (20 R342), and of HBM4E for its pseudo-channel
(R338), when a bank-private one takes 20 cycles; the others have no rated latency, and their times are free (DESIGN CHOICE, log 6). `acc`
is the outstanding work that waits for it. -/
def Caches.request (c : Caches) (ctx : Nat) (acc : Option Nat) (line bursts : Nat) (write priv : Bool) : Caches :=
  let da := 128 * line
  if !inHbm da then c.touchHub line
  else
    let t := c.clock (pchOf da)
    let id := (c.dram.map (·.id)).foldl max 0 + 1
    let r : DramReq := { id := id, ctx := ctx, acc := acc, pch := pchOf da, bank := bankOf da,
                         write := write, priv := priv, bursts := bursts, entered := t, phase := .travel,
                         ready := t + if priv then 20 else c.freeNat 16 id }
    { c with dram := c.dram ++ [r] }

/-- The number of a node of the counter tree: its level and its index in the level (20 R343). -/
def treeNode (lvl i : Nat) : Nat := lvl * 2 ^ 40 + i

/-- A counter in a parent node gains 1; one that would pass 2^56 - 1 stands at 2^56 until its key has rotated (20 R345). -/
def bump (tree : List (Nat × Nat)) (node : Nat) : List (Nat × Nat) :=
  (node, min ((tree.lookup node).getD 0 + 1) (2 ^ 56)) :: tree.filter fun p => p.1 != node

/-- The counter tree after a page's counter block is written for a line: its counter in the parent gains 1, and so on up for each node
that is written with it; how many are is free (20 R343; DESIGN CHOICE, log 25). -/
def Caches.bumpTree (c : Caches) (line : Nat) : List (Nat × Nat) :=
  let page := line / 64
  let ups := List.range (c.freeNat 21 line % 9)
  ups.foldl (fun t k => bump t (treeNode (k + 1) (page / 8 ^ (k + 1)))) (bump c.tree (treeNode 0 page))

/-- Whether a counter of a page, or of a tree node above it, would pass 2^56 - 1, so that its key must rotate (20 R345). -/
def ProtPage.spent (p : ProtPage) (tree : List (Nat × Nat)) : Bool :=
  decide (2 ^ 56 ≤ p.major) ||
    (List.range 9).any fun k => decide (2 ^ 56 ≤ (tree.lookup (treeNode k (p.page / 8 ^ k))).getD 0)

/-- The counters of a page after the write-back of one of its lines (20 R343, R344): the line's minor counter gains 1; past
2^28 - 1 the major counter gains 1, the minors become 0 and the page is re-encrypted. -/
def ProtPage.writeBack (p : ProtPage) (line : Nat) : ProtPage :=
  let m := (p.minors.lookup line).getD 0
  if m + 1 < 2 ^ 28 then { p with minors := (line, m + 1) :: p.minors.filter fun q => q.1 != line }
  else { p with major := p.major + 1, minors := [], busy := true }

/-- A page of a protected region as the controller knows it. -/
def Caches.page (c : Caches) (key page : Nat) : ProtPage :=
  (c.prot.find? fun q => q.page == page && q.key == key).getD
    { page := page, key := key, major := 0, minors := [], busy := false, waiting := [] }

/-- A 64-byte line of a protected page is written back: the controller advances its counters and writes the DRAM (20 R343; DESIGN CHOICE,
log 25); while the page is re-encrypted, or its key rotates, the write waits (R344, R345). `line` is its physical address in units of 64
bytes and `da` its DRAM address in such units. -/
def Caches.writeBack (c : Caches) (key line da bursts : Nat) (priv : Bool) : Caches :=
  let p := c.page key (line / 64)
  let rest := c.prot.filter fun q => q.page != line / 64
  if p.busy || c.sweeps.contains key || p.spent c.tree then
    { c with prot := { p with waiting := p.waiting ++ [{ line := line % 64, da := da, bursts := bursts, priv := priv }] } :: rest }
  else
    { c with prot := p.writeBack (line % 64) :: rest, tree := c.bumpTree line }.request 0 none (da / 2) bursts true priv

/-- The re-encryption of a page, or the sweep of its key, is over: the write-backs that waited are made, in their order (20 R344, R345). -/
def Caches.goOn (c : Caches) (p : ProtPage) : Caches :=
  p.waiting.foldl (fun d (w : LateWrite) => d.writeBack p.key (64 * p.page + w.line) w.da w.bursts w.priv)
    { c with prot := { p with busy := false, waiting := [] } :: c.prot.filter fun q => q.page != p.page }

/-- 16-byte pieces of a line go to memory: the DRAM is written, and the counters of a protected page advance for each 64-byte half (20
R331, R333, R343). -/
def Caches.writeDram (c : Caches) (key pa line : Nat) (pieces : BitVec 8) (priv : Bool) : Caches :=
  let bursts (lo n : Nat) : Nat := ((List.range n).filter fun k => pieces.extractLsb' (2 * (lo + k)) 2 != 0).length
  if key = 0 then c.request 0 none line (bursts 0 4) true priv
  else (List.range 2).foldl (fun (d : Caches) k =>
    if pieces.extractLsb' (4 * k) 4 = 0 then d
    else d.writeBack key (pa / 64 + k) (2 * line + k) (bursts (2 * k) 2) priv) c

/-- The pieces of a line that an L2 slice of a die holds. -/
def Caches.l2At (c : Caches) (die line : Nat) : BitVec 8 :=
  ((c.l2.find? fun e => e.die == die && e.line == line).map (·.valid)).getD 0

/-- Whether an L2 slice of a die holds a line. -/
def Caches.inL2 (c : Caches) (die line : Nat) : Bool := c.l2.any fun e => e.die == die && e.line == line

/-- Pieces of a line that an L2 slice of a die holds are valid, and some of them dirty. -/
def Caches.joinL2 (c : Caches) (die line : Nat) (valid dirty : BitVec 8) : Caches :=
  { c with l2 := c.l2.map fun e =>
      if e.die = die && e.line = line then { e with valid := e.valid ||| valid, dirty := e.dirty ||| dirty } else e }

/-- The dirty pieces of a line that a die gives up go to its home slice, where another die holds it there, else to memory. -/
def Caches.writeHome (c : Caches) (e : L2Line) : Caches :=
  let h := homeDie (128 * e.line)
  if e.dirty = 0 then c
  else if h ≠ e.die && c.inL2 h e.line then c.joinL2 h e.line e.dirty e.dirty
  else c.writeDram e.key e.pa e.line e.dirty false

/-- An L1 copy is dropped; a dirty one is first written to its die's L2, or, where that does not hold the line, further down (20 R334). -/
def Caches.dropL1 (c : Caches) (e : L1Line) : Caches :=
  let c1 := { c with l1 := c.l1.filter fun f => f != e }
  let d := e.core / 288
  if !(e.st = .m || e.st = .o) then c1
  else if c1.inL2 d e.line then c1.joinL2 d e.line e.valid e.valid
  else c1.writeHome { die := d, line := e.line, valid := e.valid, dirty := e.valid, pa := e.pa, key := e.key }

/-- An L2 slice of a die drops a line. Every L1 copy of it on the die is written back and invalidated first (20 R334); dirty pieces go
to the home slice where that holds the line, else to memory. -/
def Caches.dropL2 (c : Caches) (die line : Nat) : Caches :=
  let c1 := (c.l1.filter fun e => e.line == line && e.core / 288 == die).foldl Caches.dropL1 c
  match c1.l2.find? fun e => e.die == die && e.line == line with
  | none => c1
  | some e => { c1 with l2 := c1.l2.filter fun f => !(f.die == die && f.line == line) }.writeHome e

/-- A line fills its slice of the L2 of a compute die; where that holds all the lines that it has room for, a free one makes room (00 R3,
R5; DESIGN CHOICE, log 66). The hubs have no L2. -/
def Caches.fillL2 (c : Caches) (die : Nat) (b : Block) : Caches :=
  if 4 ≤ die then c
  else if c.inL2 die b.line then c.joinL2 die b.line b.mask 0
  else
    let mine := c.l2.filter fun e => e.die == die && sliceOf e.line == sliceOf b.line
    let out := mine.getD (c.freeNat 17 (8 * b.line + die) % mine.length) default
    let c1 := if Config.sliceLines ≤ mine.length then c.dropL2 die out.line else c
    { c1 with l2 := c1.l2 ++ [{ die := die, line := b.line, valid := b.mask, dirty := 0, pa := b.pa, key := b.key }] }

/-- The directory of L1 copies after an access of a core to a block (20 R333, R334): a write invalidates the other copies under the
tag and leaves the line in M, or clean where it is bank-private and so written through to the pieces that the copy has, of which it fills none (R331); a
read miss shares it. A core that holds as many lines as its L1 has room for gives up a free one (00 R3; DESIGN CHOICE, log 66). -/
def Caches.fillL1 (c : Caches) (core : Nat) (b : Block) (write : Bool) : Caches :=
  let same (e : L1Line) : Bool := e.line == b.line && e.aper == b.aper && e.core / 288 == core / 288
  let own := c.l1.find? fun e => same e && e.core == core
  let old := (own.map (·.valid)).getD 0
  let others := c.l1.filter fun e => same e && e.core != core
  let st : Moes := if write then (if b.aper = 2 then .e else .m)
    else match own with
      | some e => e.st
      | none => if others.isEmpty then .e else .s
  let kept := if write then [] else others.map fun (e : L1Line) => { e with st := match e.st with | .m | .o => .o | _ => .s }
  let mine := c.l1.filter fun e => e.core == core
  let out := mine.getD (c.freeNat 18 b.line % mine.length) default
  let c1 := if Config.l1Lines ≤ mine.length && !(mine.any same) then c.dropL1 out else c
  let valid := if write && b.aper = 2 then old else old ||| b.mask
  { c1 with l1 := (c1.l1.filter fun e => !same e) ++ kept ++
      if valid = 0 then [] else
      [{ core := core, line := b.line, aper := b.aper, st := st, valid := valid, pa := b.pa, key := b.key,
         behind := (own.map (·.behind)).getD false }] }

/-- Whether an access of a die conflicts with a region's state (20 R335). -/
def Region.conflicts (r : Region) (d : Nat) (write : Bool) : Bool :=
  match r.owner with
  | some o => o != d
  | none => write && r.sharers.any (· != d)

/-- The region's state once it grants an access of a die; the home die is not listed (20 R335, R336). -/
def Region.grant (r : Region) (d : Nat) (write : Bool) : Region :=
  if write then { r with sharers := [], owner := if d = r.home then none else some d }
  else if r.owner = some d then r
  else
    let keep := r.owner.toList ++ r.sharers.filter (· != d)
    { r with owner := none, sharers := if d = r.home then keep else keep ++ [d] }

/-- The dies that hold copies of a region. -/
def Region.holders (r : Region) : List Nat := r.owner.toList ++ r.sharers

/-- A conflict: a region of more than 64 bytes splits once, and the half with the cell is recalled (20 R336). -/
def Region.split (r : Region) : List Region :=
  if r.size ≤ 64 then [{ r with ops := 0 }]
  else [r.base, r.base + r.size / 2].map fun b => { r with base := b, size := r.size / 2, ops := 0 }

/-- Whether a region tracks a cell for its home. -/
def Region.holds (r : Region) (cell : Nat) : Bool := r.home == homeDie cell && decide (r.base ≤ cell) && decide (cell < r.base + r.size)

/-- Whether a line has bytes that a region tracks for its home. -/
def Region.holdsLine (r : Region) (line : Nat) : Bool :=
  r.home == homeDie (128 * line) && decide (r.base < 128 * line + 128) && decide (128 * line < r.base + r.size)

/-- The dirty L1 copies of a line on a die are written to its L2 and stay, shared, and the dirty L2 pieces go down (20 R336). -/
def Caches.downgrade (c : Caches) (die line : Nat) : Caches :=
  let dirty := c.l1.filter fun e => e.line == line && e.core / 288 == die && (e.st == .m || e.st == .o)
  let c1 := dirty.foldl (fun (d : Caches) e => d.joinL2 die line e.valid e.valid)
    { c with l1 := c.l1.map fun (e : L1Line) => if e.line = line && e.core / 288 = die then { e with st := .s } else e }
  match c1.l2.find? fun e => e.die == die && e.line == line with
  | none => c1
  | some e =>
    { c1 with l2 := c1.l2.map fun (f : L2Line) => if f.die = die && f.line = line then { f with dirty := 0 } else f }.writeHome e

/-- The recall of a region's copies on some dies: every copy is written back and dropped, or downgraded (20 R336). -/
def Caches.recall (c : Caches) (r : Region) (dies : List Nat) (drop : Bool) : Caches :=
  let lines := (((c.l1.filter fun e => dies.contains (e.core / 288)).map (·.line) ++
    (c.l2.filter fun e => dies.contains e.die).map (·.line)).eraseDups).filter r.holdsLine
  dies.foldl (fun c d => lines.foldl (fun c l => if drop then c.dropL2 d l else c.downgrade d l) c) c

/-- A new region of a home about a cell: of 64 KiB, or, where an entry already tracks a part of that, the largest that meets none (20
R335; DEDUCED, log 26). -/
def Caches.newRegion (c : Caches) (cell : Nat) : Region :=
  let home := homeDie cell
  let meets (r : Region) (n : Nat) : Bool :=
    r.home == home && decide (r.base < cell / n * n + n) && decide (cell / n * n < r.base + r.size)
  let n := (((List.range 11).map fun k => 65536 / 2 ^ k).find? fun n => !(c.regions.any fun r => meets r n)).getD 64
  { home := home, base := cell / n * n, size := n, sharers := [], owner := none, ops := 0 }

/-- The regions after an access of a die to a 64-byte half of a line (20 R335, R336). A conflict splits the region, recalls the half with
the cell and grants the access. -/
def Caches.regionAccess (c : Caches) (d cell : Nat) (write : Bool) : Caches :=
  match c.regions.find? fun r => r.holds cell with
  | none => if d = homeDie cell then c else { c with regions := c.regions ++ [(c.newRegion cell).grant d write] }
  | some r =>
    let rest := c.regions.filter fun q => q != r
    if r.conflicts d write then
      let parts := r.split
      let half := (parts.find? fun q => q.holds cell).getD r
      let c1 := { c with regions := rest ++ parts.map fun (q : Region) => if q.holds cell then q.grant d write else q }
      c1.recall half (half.holders.filter (· != d)) write
    else { c with regions := rest ++ [r.grant d write] }

/-- The L1 copies of a home die, under the tag of another die's access: a write drops them, and a read leaves what they hold shared (20
R334, R335). -/
def Caches.recallHome (c : Caches) (d : Nat) (b : Block) (write : Bool) : Caches :=
  let h := homeDie (128 * b.line)
  let mine (e : L1Line) : Bool := e.line == b.line && e.aper == b.aper && e.core / 288 == h
  if d = h then c
  else if write then (c.l1.filter mine).foldl Caches.dropL1 c
  else
    { c with l1 := c.l1.map fun (e : L1Line) =>
        if mine e then { e with st := match e.st with | .m | .o => .o | _ => .s } else e }

/-- The coherence across dies of an access of a die to a block (20 R335, R336): one directory operation at its home slice (DEDUCED, log
26), and each 64-byte half of the line that it touches on its own. -/
def Caches.regionTouch (c : Caches) (d : Nat) (b : Block) (write : Bool) : Caches :=
  let cell := 128 * b.line
  if !inHbm cell && !inCapacity cell then c
  else
    let c1 := { c with regions := c.regions.map fun r =>
      if r.home = homeDie cell && Config.homeSlice r.base = Config.homeSlice cell then { r with ops := r.ops + 1 } else r }
    (b.halves.foldl (fun (x : Caches) h => x.regionAccess d h write) c1).recallHome d b write

/-- An access to a bank that is frozen, or is freezing, makes it thaw (24 R386). -/
def banksAfter (bs : List (Nat × BankSt)) (bank : Nat) : List (Nat × BankSt) :=
  bs.map fun b =>
    if b.1 ≠ bank then b
    else match b.2 with
      | .frozen => (b.1, .thawing)
      | .freezing => (b.1, .freezingThenThaw)
      | st => (b.1, st)

/-- The banks after an access to a cell. -/
def Caches.wake (c : Caches) (cell : Nat) : Caches := { c with banks := banksAfter c.banks (Config.bankOf cell) }

/-- The copies of a line of the host window on the other dies: an access that writes drops them, and one that reads has what is dirty
written to the host (20 R337; DESIGN CHOICE, log 66). -/
def Caches.hostAccess (c : Caches) (die line : Nat) (write : Bool) : Caches :=
  ((List.range 4).filter (· != die)).foldl (fun (x : Caches) d => if write then x.dropL2 d line else x.downgrade d line) c

/-- What the L2 slices and the memory do for a block that an L1 of a die, or another agent at the die, does not have (20 R331, R333,
R335, R337). A bank-private read is served by the home slice where that holds it and else by the DRAM, and allocates nothing; a
bank-private write goes to the DRAM, and to the pieces of the slice's copy that are valid. `ctx` and `acc` name the work that waits for
the DRAM. -/
def Caches.below (c : Caches) (die ctx : Nat) (acc : Option Nat) (b : Block) (write : Bool) : Caches :=
  let cell := 128 * b.line
  let home := homeDie cell
  let c := if inHost cell then c.hostAccess die b.line write else c.regionTouch die b write
  let has (d : Nat) : Bool := b.mask &&& ~~~(c.l2At d b.line) == 0
  if b.aper = 2 then
    if write then c.writeDram b.key b.pa b.line b.mask true
    else if has home then c
    else c.request ctx acc b.line b.bursts false true
  else if has die then c
  else if inHost cell || has home then c.fillL2 die b
  else ((c.request ctx acc b.line b.bursts false false).fillL2 home b).fillL2 die b

/-- The caches after an access of a core to a block (20 R331, R333 to R337). A peer-window line is not cached. -/
def Caches.touch (c : Caches) (core ctx : Nat) (acc : Option Nat) (write : Bool) (b : Block) : Caches :=
  if inPeer (128 * b.line) then c
  else
    let c := c.wake (128 * b.line)
    let mine := c.l1.find? fun e => e.core == core && e.line == b.line && e.aper == b.aper
    if !write && mine.any (fun e => b.mask &&& ~~~e.valid == 0) then c
    else (c.below (core / 288) ctx acc b write).fillL1 core b write

/-- The caches after an access of an agent of a die that has no L1: an engine, an index engine, a walker or the control plane. A write
invalidates every L1 copy under its tag, and is a dirty piece of the die's L2, or, on a hub, goes to memory (20 R334, R342; DEDUCED, log
66). -/
def Caches.touchDie (c : Caches) (die : Nat) (write : Bool) (b : Block) : Caches :=
  if inPeer (128 * b.line) then c
  else
    let c := (c.wake (128 * b.line)).below die 0 none b write
    if !write then c
    else
      let c1 := (c.l1.filter fun e => e.line == b.line && e.aper == b.aper).foldl Caches.dropL1 c
      if b.aper = 2 then c1
      else if c1.inL2 die b.line then c1.joinL2 die b.line b.mask b.mask
      else c1.writeDram b.key b.pa b.line b.mask false

/-- The machine after accesses of a core to blocks, which some outstanding work may wait for. -/
def State.touch (s : State) (core ctx : Nat) (acc : Option Nat) (write : Bool) (bs : List Block) : State :=
  s.putCaches (bs.foldl (fun c b => c.touch core ctx acc write b) { s.caches with edge := (s.coreSt core).edge })

/-- The machine after accesses of another agent of a die to blocks. -/
def State.touchDie (s : State) (die : Nat) (write : Bool) (bs : List Block) : State :=
  s.putCaches (bs.foldl (fun c b => c.touchDie die write b) s.caches)

/-- Accesses to cells wake their banks (24 R386). -/
def State.wakeAll (s : State) (cells : List Nat) : State := s.putCaches (cells.foldl Caches.wake s.caches)

/-- Cells beyond the physical addresses stand for the bytes of a column's firn, which lies in banks of its own (24 R386). -/
def firnCell (die col off : Nat) : Nat := 2 ^ 44 + (die * 18 + col) * 2 ^ 27 + off

/-- Whether accesses to a cell wait: for the freeze or the thaw of its bank (24 R386), the swap of its slice or of its DRAM or firn row (24
R385), or the retraining of the host link (DESIGN CHOICE, log 64). -/
def State.heldBack (s : State) (cell : Nat) : Bool :=
  (s.banks.any fun b => b.1 == Config.bankOf cell) ||
  (s.swaps.any fun p => match p with
    | .slice d k => d == homeDie cell && s.slices.any fun e =>
        e.die == d && e.phys == k && e.logical == sliceOf (cell / 128)
    | .hbmRow st row => inHbm cell && stackOf cell == st && nfld cell 23 16 == row
    | .firnRow d k row => (s.cols.any fun c => c.die == d && c.phys == k && cell / 2 ^ 27 == 2 ^ 17 + d * 18 + c.logical) &&
        Config.firnRow (cell % 2 ^ 27) == row
    | .perpelLane .. => inPeer cell
    | _ => false) ||
  (inHost cell && s.retraining.contains hostLink)

/-- Whether a counter of a key's pages or of their tree nodes would pass 2^56 - 1 (20 R345). -/
def State.keySpent (s : State) (slot : Nat) : Bool := s.prot.any fun p => p.key == slot && p.spent s.tree

/-- Whether accesses to a page wait: all of them for the rotation of its key and the sweep, and writes, and a read of the line in hand,
for its re-encryption (20 R344, R345). -/
def State.keyHeld (s : State) (key page : Nat) (write : Bool) : Bool :=
  s.sweeps.contains key || s.keySpent key ||
    (s.prot.any fun p => p.page == page && p.key == key && p.busy && (write || s.free 4 page))

/-- Whether accesses to some pages of an address space wait for their key. -/
def State.pagesHeld (s : State) (asid : Nat) (pages : List Nat) (write : Bool) : Bool :=
  pages.any fun v => match s.translate asid (4096 * v) with
    | .ok t => t.key != 0 && s.keyHeld t.key (t.pa (4096 * v) / 4096) write
    | .error _ => false

/-- The block of the 8 bytes of a page-table entry. -/
def State.entryBlock (s : State) (pa : Nat) : Block :=
  { aper := 0, line := pa / 128, lo := pa % 128, hi := min (pa % 128 + 7) 127, pa := pa / 128 * 128, key := s.keyAt pa }

/-- Lines are retired: they are lost from here on (24 R379, 20 R346). -/
def State.retire (s : State) (lines : List Nat) : State :=
  { s with lost := s.lost ++ lines.filter fun l => !s.lost.contains l }

/-- A walk starts: what it finds is settled (20 R328; DESIGN CHOICE, log 20), and its reads of entries set out for memory (R338). A line of
them whose check fails is retired (R346). -/
def State.startWalk (s : State) (w : Walk) : State × Walk :=
  let va := 4096 * w.page
  let t := s.touchDie w.die false ((s.walkReads w.asid va).map s.entryBlock)
  let reqs := (t.dram.map (·.id)).filter fun i => !(s.dram.any fun r => r.id == i)
  match s.walk w.asid va with
  | .ok x => (t, { w with started := true, result := some x, reqs := reqs })
  | .error f => (t.retire f.retires, { w with started := true, fault := some (f.code, f.level), reqs := reqs })

/-- Walks that are waiting start, in arrival order, while their die has a free walker (20 R328). -/
def State.startWalks (s : State) : State :=
  (List.range s.walks.length).foldl (fun t k =>
    match t.walks[k]? with
    | none => t
    | some w =>
      if w.started || Config.walkers ≤ (t.walks.filter fun v => v.started && v.die == w.die).length then t
      else
        let x := t.startWalk w
        { x.1 with walks := x.1.walks.set k x.2 }) s

/-- Whether a walk of a page is in flight on a die. -/
def Walk.isOf (w : Walk) (die asid page : Nat) : Bool := w.die == die && w.asid == asid && w.page == page

/-- A walk that a miss of a core, or of another agent of a die, starts or joins on the die (20 R328). None begins for an address of 2^48 or
above (R327). -/
def State.noteWalk (s : State) (site : Site) (asid va : Nat) : State :=
  match site.die with
  | none => s
  | some d =>
    if 2 ^ 48 ≤ va || s.tlb.any fun t => t.cache.serves site && t.covers asid va then s
    else if s.walks.any fun w => w.isOf d asid (va / 4096) then
      { s with walks := s.walks.map fun w =>
          if w.isOf d asid (va / 4096) then { w with attached := (w.attached ++ site.core.toList).eraseDups } else w }
    else
      let w : Walk := { die := d, asid := asid, page := va / 4096, started := false, result := none, fault := none,
                        attached := site.core.toList, reqs := [] }
      { s with walks := s.walks ++ [w] }.startWalks

/-- The walks that an access to `n` bytes starts or joins, one for each page (20 R328). -/
def State.noteWalks (s : State) (site : Site) (asid va n : Nat) : State :=
  (List.range ((va + n - 1) / 4096 + 1 - va / 4096)).foldl (fun t k => t.noteWalk site asid ((va / 4096 + k) * 4096)) s

/-- The walks that some addresses start or join. -/
def State.noteMisses (s : State) (site : Site) (asid : Nat) (vas : List Nat) : State := vas.foldl (fun t va => t.noteWalk site asid va) s

/-- Whether an access of an agent of a die waits for the walk of a page: no cached translation serves it, and no walk of the page on the die
has found a fault, which every access attached to it takes (20 R328). -/
def State.missHeld (s : State) (site : Site) (asid va : Nat) : Bool :=
  match site.die with
  | none => false
  | some d => decide (va < 2 ^ 48) && !(s.tlb.any fun t => t.cache.serves site && t.covers asid va) &&
      !(s.walks.any fun w => w.isOf d asid (va / 4096) && w.fault.isSome)

/-- Whether a walk waits: its requests are outstanding, or an entry that it reads stands in a bank, a part or a region that makes accesses
wait (20 R338, R345; 24 R385, R386). -/
def State.walkHeld (s : State) (w : Walk) : Bool :=
  (s.dram.any fun r => w.reqs.contains r.id) || (s.walkReads w.asid (4096 * w.page)).any fun pa =>
    s.heldBack pa || (let k := s.keyAt pa; k != 0 && s.keyHeld k (pa / 4096) false)

end Sys2Proof.Machine
end

