-- ==== Sys2Proof/Machine/Rows.lean ====
section
/-! DEFINITION. Bytes of memory by cell and path, the checks of a row reference, the elements of a row, and the accesses of the
lanes of ISSUE (13 R252 to R261, R396; 16 R279, R282, R294; 10 R221; 20 R346; 24 R379). -/

namespace Sys2Proof.Machine

/-- The number of a path: its aperture and view (16 R279). -/
def pathOf (aper view : Nat) : Path := 2 * aper + view

/-- Every path that can reach a cell: only the row-major ones outside HBM4E (20 R322). -/
def allPaths (cell : Nat) : BitVec 6 := if inHbm cell then 0x3F else 0x03

/-- The older bytes that paths still return after a write through `path`. What a relaxed store hides from other agents (log 5) says nothing
of the other paths. -/
def staleAfter (m : List Host.Cell) (st : List Stale) (path : Path) (cell : Nat) : List Stale :=
  let one : BitVec 6 := (1 : BitVec 6) <<< (path : Nat)
  let mine := (st.filter fun e => e.cell == cell).map fun (e : Stale) => { e with paths := e.paths &&& ~~~one }
  let held := mine.foldl (fun a e => if e.but.isEmpty then a ||| e.paths else a) one
  let rest := allPaths cell &&& ~~~held
  (({ cell := cell, old := Memory.get m cell, paths := rest } : Stale) :: mine).filter (fun e => e.paths != 0) ++
    st.filter fun e => e.cell != cell

/-- How many writes of a cell a monitor's lane does not see. -/
def Monitor.blind (m : Monitor) (st : List Stale) (cell : Nat) : Nat := (unseen st m.path (some (m.ctx, m.warp)) cell).length

/-- The monitors after a write of a cell: the armed ones on its block fire where their lane sees it (08 R179). -/
def monitorsAt (ms : List Monitor) (st : List Stale) (cell : Nat) : List Monitor :=
  ms.map fun m => if m.block = cell / 64 * 64 && m.st = .armed && m.blind st cell = 0 then { m with st := .fired } else m

/-- The monitors once writes have become visible, or paths have been joined, which takes the stale bytes from `st` to `tu`: an armed one fires
where its lane sees a write of a cell of its block that it did not see before (08 R179). -/
def monitorsJoined (ms : List Monitor) (st tu : List Stale) : List Monitor :=
  ms.map fun m =>
    if m.st = .armed && st.any fun e => e.cell / 64 * 64 == m.block && decide (m.blind tu e.cell < m.blind st e.cell) then
      { m with st := .fired }
    else m

/-- A write of one byte through a path. It becomes the location's value through that path; the other paths keep what they
held (16 R294, 10 R221); monitors on its block fire (08 R179). A write of the peer window goes out to the remote device (20 R337). -/
def State.writeCell (s : State) (path : Path) (cell : Nat) (v : Byte) : State :=
  let st := staleAfter s.mem s.stale path cell
  if inPeer cell then { s with sent := s.sent ++ [(cell, v)], monitors := monitorsAt s.monitors s.stale cell }
  else { s with mem := Memory.put s.mem cell v, stale := st, monitors := monitorsAt s.monitors st cell }

/-- Writes bytes to cells, in order. -/
def State.writeCells (s : State) (path : Path) : List (Nat × Byte) → State
  | [] => s
  | (c, v) :: r => (s.writeCell path c v).writeCells path r

/-- The paths of some cells are joined: they all return the same byte from here on. -/
def State.joinCells (s : State) (p : Nat → Bool) (paths : BitVec 6) : State :=
  let st := (s.stale.map fun (e : Stale) => if p e.cell then { e with paths := e.paths &&& ~~~paths } else e).filter
    (fun e => e.paths != 0)
  { s with stale := st, monitors := monitorsJoined s.monitors s.stale st }

/-- The stale bytes once some of their writes are visible to every agent: those writes, and all that are older through the same path, leave
no older byte. `gone` are the cells and paths of which such a write stands further up. -/
def exposed (p : Stale → Bool) : List (Nat × BitVec 6) → List Stale → List Stale
  | _, [] => []
  | gone, e :: r =>
    let all := if p e then (e.cell, e.paths) :: gone else gone
    let left := all.foldl (fun (m : BitVec 6) g => if g.1 = e.cell then m &&& ~~~g.2 else m) e.paths
    (if left = 0 then [] else [{ e with paths := left }]) ++ exposed p all r

/-- The stale bytes replaced as writes become visible; monitors fire (08 R179). -/
def State.setStale (s : State) (st : List Stale) : State := { s with stale := st, monitors := monitorsJoined s.monitors s.stale st }

/-- Some hidden stores become visible to every agent. -/
def State.expose (s : State) (p : Stale → Bool) : State := s.setStale (exposed (fun e => !e.but.isEmpty && p e) [] s.stale)

/-- The size of the block of a cell that becomes visible as a whole (13 R396). -/
def State.unitOf (s : State) (cell : Nat) : Nat :=
  (s.stale.filter fun e => !e.but.isEmpty && e.cell / e.unit == cell / e.unit).foldl (fun n e => max n e.unit) 1

/-- Whether a cell becomes visible as a whole with one of some cells. -/
def State.goesWith (s : State) (cells : List Nat) (cell : Nat) : Bool := cells.any fun c => c / s.unitOf c == cell / s.unitOf c

/-- The hidden stores to some cells, through one path, become visible to every agent. -/
def State.publishCells (s : State) (path : Path) (cells : List Nat) : State :=
  s.expose fun e => e.paths.getLsbD path && s.goesWith cells e.cell

/-- The hidden stores to some cells become visible to a warp. -/
def State.showTo (s : State) (g w : Nat) (path : Path) (cells : List Nat) : State :=
  s.setStale (s.stale.map fun (e : Stale) =>
    if !e.but.isEmpty && e.paths.getLsbD path && s.goesWith cells e.cell && !e.but.contains (g, w) then { e with but := (g, w) :: e.but } else e)

/-- The relaxed stores of a warp, which have taken the machine from `s` to `t`, stay hidden from the other agents until they are published
(16 R287, 25 R390; DESIGN CHOICE, log 5). Each is a cell with the size of its unit. -/
def State.hide (s t : State) (g w : Nat) (path : Path) (xs : List (Nat × Nat)) : State :=
  let one : BitVec 6 := (1 : BitVec 6) <<< (path : Nat)
  let cs := ((xs.map (·.1)).filter fun c => !inPeer c).eraseDups
  let of (c : Nat) : List Stale :=
    { cell := c, old := Memory.get s.mem c, paths := one, but := [(g, w)], unit := (xs.filter fun x => x.1 == c).foldl (fun n x => max n x.2) 1 } ::
      (s.stale.filter fun e => e.cell == c && e.paths.getLsbD path).map fun (e : Stale) => { e with paths := one }
  let st := cs.flatMap of ++ t.stale
  { t with stale := st, monitors := xs.foldl (fun ms x => monitorsAt ms st x.1) s.monitors }

/-- The hidden store of a warp to a cell, with the rest of its element, becomes visible to every agent. -/
def State.publish (s : State) (g w cell : Nat) : State := s.expose fun e => e.but.contains (g, w) && s.goesWith [cell] e.cell

/-- Every hidden store becomes visible. -/
def State.publishAll (s : State) : State := s.expose fun _ => true

/-- The warps of the resident gangs in the instance of a scope around a warp (16 R280). -/
def State.instanceOf (s : State) (g w sc : Nat) : List (Nat × Nat) :=
  let k := s.coreOf g w
  (s.residents.flatMap fun h => (List.range (s.gang h).warps.length).map fun v => (h, v)).filter fun x =>
    let j := s.coreOf x.1 x.2
    match sc with
    | 2 => x.1 == g && (s.warp x.1 x.2).wg == (s.warp g w).wg
    | 3 => j / 4 == k / 4
    | 4 => j / 16 == k / 16
    | 5 => j / 288 == k / 288
    | _ => false

/-- A release at a scope by lanes of a warp: the stores that the warp sees become visible to the warps of the instance (16 R284 to R288), at
`.dev` and `.sys` to every agent. -/
def State.release (s : State) (g w sc : Nat) : State :=
  if 6 ≤ sc then s.expose fun e => e.but.contains (g, w)
  else
    let xs := s.instanceOf g w sc
    s.setStale (s.stale.map fun (e : Stale) =>
      if e.but.contains (g, w) then { e with but := e.but ++ xs.filter fun x => !e.but.contains x } else e)

/-- The table in a directory slot (13 R249). -/
def State.table? (s : State) (asid slot : Nat) : Option Table := s.tables.find? fun t => t.asid == asid && t.slot == slot

/-- The state with the table in a slot changed. -/
def State.mapTable (s : State) (asid slot : Nat) (f : Table → Table) : State :=
  { s with tables := s.tables.map fun t => if t.asid = asid && t.slot = slot then f t else t }

/-- The table that a handle names, if it is valid (13 R250). -/
def State.handle? (s : State) (asid : Nat) (h : Word) : Option Table :=
  (s.table? asid (fld h 0 16).toNat).filter fun t => t.desc.inc == (fld h 16 16).toNat

/-- The current generation of a row (13 R254). -/
def Table.genOf (t : Table) (row : Nat) : Nat :=
  if t.desc.tkind = 0 then t.desc.gen else (t.gens.lookup row).getD 1

/-- The fields of a row reference (13 R253). -/
def refSlot (r : DWord) : Nat := (fld r 48 16).toNat
def refGen (r : DWord) : Nat := (fld r 32 16).toNat
def refRow (r : DWord) : Nat := (fld r 0 32).toNat

/-- The reference of a row at its current generation (13 R266). -/
def Table.ref (t : Table) (row : Nat) : DWord :=
  BitVec.ofNat 64 (t.slot * 2 ^ 48 + t.genOf row * 2 ^ 32 + row)

/-- A fault of a row's checks, with its TRAPAUX and FADDR, the addresses that its access has missed, and the 64-byte lines that it
retires (20 R328, R346). -/
structure RowFault where
  cls : BitVec 8
  code : BitVec 8
  aux : Word
  faddr : Word
  misses : List Nat := []
  retires : List Nat := []
  deriving DecidableEq, Repr, Inhabited

/-- The fault of a row for one lane. -/
def RowFault.at (f : RowFault) (l : Nat) : Flt :=
  { cls := f.cls, code := f.code, words := [(l, f.aux, f.faddr)], misses := f.misses, retires := f.retires }

/-- A TABLE fault of a reference. FADDR holds the low 32 bits of an offset of 2^32 or more (06 R125; DEDUCED, log 81). -/
def tableFault (code : BitVec 8) (slot faddr : Nat) : RowFault :=
  { cls := 0x0B, code := code, aux := BitVec.ofNat 32 slot, faddr := BitVec.ofNat 32 faddr }

/-- The first three checks of 13 R255. -/
def State.refCheck (s : State) (asid : Nat) (r : DWord) : Except RowFault Table :=
  match s.table? asid (refSlot r) with
  | none => .error (tableFault 1 (refSlot r) (refRow r))
  | some t =>
    if t.desc.cap ≤ refRow r then .error (tableFault 2 (refSlot r) (refRow r))
    else if refGen r = 0 || refGen r ≠ t.genOf (refRow r) then .error (tableFault 3 (refSlot r) (refRow r))
    else .ok t

/-- All the checks of 13 R255, for an element of `e` bytes at byte offset `o`. -/
def State.elemCheck (s : State) (asid : Nat) (r : DWord) (o e : Nat) : Except RowFault Table :=
  match s.refCheck asid r with
  | .error f => .error f
  | .ok t =>
    if t.desc.width < o + e then .error (tableFault 4 (refSlot r) o)
    else if o % e ≠ 0 then .error (tableFault 5 (refSlot r) o)
    else .ok t

/-- The virtual address of a byte of a row (20 R323). -/
def Table.va (t : Table) (row o : Nat) : Nat := t.desc.rowbase + row * t.desc.width + o

/-- A translation fault of a row (20 R327), or what its walk met in the tables themselves. -/
def xlatFault (f : XFault) (slot row : Nat) : RowFault :=
  if f.code = 6 then { cls := 0x10, code := 1, aux := 0, faddr := BitVec.ofNat 32 row }
  else if f.code = 7 then { cls := 0x0E, code := 1, aux := 0, faddr := BitVec.ofNat 32 row }
  else if f.code = 8 then { cls := 0x0E, code := 2, aux := 0, faddr := BitVec.ofNat 32 row, retires := f.retires }
  else { cls := 0x0D, code := f.code, aux := BitVec.ofNat 32 (slot + f.level * 65536), faddr := BitVec.ofNat 32 row }

/-- The cells of `n` bytes of a row, with the translation faults and CONTAIN that follow the checks of 13 R255. -/
def State.rowCells (s : State) (t : Table) (row o n : Nat) (k : Acc) : Except RowFault (List Nat) :=
  match s.cellsAt t.asid t.desc.aper (t.va row o) n k with
  | .error f => .error { xlatFault f t.slot row with misses := [t.va row o, t.va row o + n - 1] }
  | .ok cs =>
    if cs.any s.containedCell then .error { cls := 0x10, code := 1, aux := 0, faddr := BitVec.ofNat 32 row } else .ok cs

/-- The fault of a lost line (24 R379). -/
def lostFault (row : Nat) : RowFault := { cls := 0x0E, code := 1, aux := 0, faddr := BitVec.ofNat 32 row }

/-- The fault of lines whose tag or tree check fails (20 R346). -/
def integFault (row : Nat) (lines : List Nat) : RowFault :=
  { cls := 0x0E, code := 2, aux := 0, faddr := BitVec.ofNat 32 row, retires := lines }

/-- Whether a tag or tree check fails as a 64-byte line of a protected page is read (20 R346): what stands in the DRAM is outside
the model, and the outcome is free, one for each line (DESIGN CHOICE, log 69). -/
def State.lineFails (s : State) (asid vline : Nat) : Bool :=
  (match s.translate asid (64 * vline) with
    | .ok t => t.key != 0
    | .error _ => false) && s.free 3 vline

/-- The lines whose checks fail as the cells of some bytes from a virtual address on are read. -/
def State.failedLines (s : State) (asid va : Nat) (cells : List Nat) : List Nat :=
  let bad := ((List.range ((va + cells.length - 1) / 64 + 1 - va / 64)).map (va / 64 + ·)).filter (s.lineFails asid)
  if bad.isEmpty then []
  else ((cells.zipIdx.filter fun c => bad.contains ((va + c.2) / 64)).map fun c => c.1 / 64).eraseDups

/-- The fault of an access to cells of a row in a lost line (24 R379) or, where it reads, in a line whose check fails (20 R346). -/
def State.lineFault (s : State) (asid va row : Nat) (cells : List Nat) (k : Acc) : Option RowFault :=
  if cells.any s.lostCell then some (lostFault row)
  else if k = .write then none
  else match s.failedLines asid va cells with
    | [] => none
    | ls => some (integFault row ls)

/-- The length that a format code implies in a row of n elements (14 R272). -/
def rowLen (code n : Nat) : Nat :=
  match code with
  | 1 => 2 + 4 * n
  | 2 | 3 => 2 + 2 * n
  | 4 | 5 | 7 => 2 + n
  | 6 => 2 + (n + 1) / 2
  | _ => 2

/-- Whether rows of a table describe themselves (13 R257). -/
def Table.mixed (t : Table) : Bool := t.desc.tflags.getLsbD 0
/-- Whether a table keeps CRCs (10 R220). -/
def Table.sealed (t : Table) : Bool := t.desc.tflags.getLsbD 1
/-- Elements of a row of a mixed-width table (14 R272). -/
def Table.elems (t : Table) : Nat := (t.desc.width - 2) / 4

/-- The length of a row that accesses by reference see: WIDTH, or the current length of a mixed-width row (13 R257). -/
def State.curLen (s : State) (t : Table) (row view : Nat) : Nat :=
  if t.mixed then
    match s.rowCells t row 0 1 .read with
    | .ok [c] => rowLen (s.readCell (pathOf t.desc.aper view) c).toNat t.elems
    | _ => 2
  else t.desc.width

/-- The bytes of a row that a load returns: 0 at and beyond its current length (13 R257). -/
def State.loadBytes (s : State) (t : Table) (row o view : Nat) (cells : List Nat) : List Byte :=
  let len := s.curLen t row view
  cells.mapIdx fun i c => if o + i < len then s.readCell (pathOf t.desc.aper view) c else 0

/-- A store of bytes to a row, which discards those at and beyond its current length (13 R257). -/
def State.storeBytes (s : State) (t : Table) (row o view : Nat) (cells : List Nat) (bs : List Byte) : State :=
  let len := s.curLen t row view
  s.writeCells (pathOf t.desc.aper view) ((cells.zip bs).take (len - o))

/-- Element size of a memory format (09 R199). -/
def esize (f : Nat) : Nat :=
  match f with
  | 0 => 4 | 1 => 8 | 2 => 16 | 3 | 4 | 9 | 10 => 1 | _ => 2

/-- The float format of a converting memory format (01 R31). -/
def fmtOf (f : Nat) : Num.Fmt :=
  match f with
  | 7 => .bf16 | 8 => .f16 | 9 => .e4m3 | _ => .e5m2

/-- Memory form to register form (01 R31, 03 R67). -/
def loadConv (f raw : Nat) : QWord :=
  match f with
  | 3 => ((BitVec.ofNat 8 raw).signExtend 32).setWidth 128
  | 5 => ((BitVec.ofNat 16 raw).signExtend 32).setWidth 128
  | 7 | 8 | 9 | 10 => BitVec.ofNat 128 (Num.conv (fmtOf f) .f32 .rne false raw)
  | _ => BitVec.ofNat 128 raw

/-- Register form to memory form (01 R31, 09 R199): float stores round to nearest even without saturation. -/
def storeConv (f : Nat) (v : QWord) : Nat :=
  match f with
  | 7 | 8 | 9 | 10 => Num.conv .f32 (fmtOf f) .rne false (v.toNat % 2 ^ 32)
  | _ => v.toNat % 2 ^ (8 * esize f)

/-- The value of a data register of a memory format. -/
def Warp.data (W : Warp) (l n f : Nat) : QWord :=
  if f = 2 then W.get128 l n else if f = 1 then (W.get64 l n).setWidth 128 else (W.get l n).setWidth 128

/-- The blocks that an access to bytes of a row touches. -/
def State.rowBlocks (s : State) (t : Table) (row o n view : Nat) : List Block :=
  s.blocksAt t.asid t.desc.aper view (t.va row o) n

/-- The registers that receive a value of `k` words. -/
def Warp.putWords (W : Warp) (l n k : Nat) (v : QWord) : List (Tgt × DWord) :=
  (List.range k).map fun j => W.put l (n + j) (v.extractLsb' (32 * j) 32)

/-- The cells of an access by reference of one lane: the checks of 13 R255, translation and CONTAIN. -/
def State.laneRow (s : State) (asid : Nat) (l : Nat) (rr : DWord) (o e : Nat) (k : Acc) : Except Flt (Table × List Nat) :=
  match s.elemCheck asid rr o e with
  | .error f => .error (f.at l)
  | .ok t =>
    match s.rowCells t (refRow rr) o e k with
    | .error f => .error (f.at l)
    | .ok cs => .ok (t, cs)

/-- One lane's access to a row: the lane, the table, the cells, the row number and the virtual address. -/
structure LaneAcc where
  lane : Nat
  tab : Table
  cells : List Nat
  row : Nat
  va : Nat
  deriving DecidableEq, Repr, Inhabited

/-- The checked accesses of the lanes of ISSUE, or the first fault of the lowest faulting lane (13 R255, R260). -/
def State.laneAccs (s : State) (c : Cur) (e : Nat) (k : Acc) (ref : Nat → DWord) (off : Nat → Nat) : Except Flt (List LaneAcc) :=
  c.issue.mapM fun l =>
    (s.laneRow (s.gang c.gang).asid l (ref l) (off l) e k).map fun r =>
      { lane := l, tab := r.1, cells := r.2, row := refRow (ref l), va := r.1.va (refRow (ref l)) (off l) }

/-- The size of the blocks in which an element becomes visible as a whole: its own where it is aligned in address, and a byte otherwise
(13 R396). -/
def LaneAcc.unit (a : LaneAcc) : Nat := if a.va % a.cells.length = 0 then a.cells.length else 1

/-- The path of an access by reference. -/
def LaneAcc.path (a : LaneAcc) : Path := pathOf a.tab.desc.aper 0

/-- The number of a free choice for a byte of an access. -/
def LaneAcc.byteKey (a : LaneAcc) (cell : Nat) : Nat := 64 * cell + a.lane

/-- What a load leaves at the stores that other warps hide: an element that is not aligned in address is read byte by byte, so that such a
store may become visible to the warp meanwhile (13 R396; DESIGN CHOICE, log 5). -/
def State.meanwhile (s : State) (g w : Nat) (as : List LaneAcc) : State :=
  (as.filter fun a => a.unit = 1).foldl (fun t a => t.showTo g w a.path (a.cells.filter fun c => s.free 8 (a.byteKey c))) s

/-- The bytes that a load of an element at offset `o` returns: those that its warp sees, each of an element that is not aligned in address
as it was before or after what became visible meanwhile, which has taken the machine from `s` to `t` (13 R396). -/
def State.elemBytes (s t : State) (a : LaneAcc) (o : Nat) : List Byte :=
  let bs := s.loadBytes a.tab a.row o 0 a.cells
  if a.unit = 1 then
    (a.cells.zip (bs.zip (t.loadBytes a.tab a.row o 0 a.cells))).map fun x => if s.free 9 (a.byteKey x.1) then x.2.2 else x.2.1
  else bs

/-- The cells of an element that is not aligned in address at which a store comes, by a free choice, before a store of another warp that is
hidden from its own (13 R396; DESIGN CHOICE, log 5). -/
def State.beaten (s : State) (g w : Nat) (a : LaneAcc) : List Nat :=
  if a.unit = 1 then
    a.cells.filter fun c => s.free 10 (a.byteKey c) && (unseen s.stale a.path (some (g, w)) c).any fun e => !e.but.isEmpty
  else []

/-- The cells that a store of an element at offset `o` writes: those below the row's current length (13 R257), where no other store comes
after it. -/
def State.written (s : State) (g w : Nat) (a : LaneAcc) (o : Nat) : List Nat :=
  (a.cells.take (s.curLen a.tab a.row 0 - o)).filter fun c => !(s.beaten g w a).contains c

/-- A store of an element at offset `o` by a warp. -/
def State.storeElem (s : State) (g w : Nat) (a : LaneAcc) (o : Nat) (bs : List Byte) : State :=
  let xs := (a.cells.zip bs).filter fun x => (s.written g w a o).contains x.1
  (s.showTo g w a.path (s.beaten g w a)).writeCells a.path xs

/-- The fault of a lane whose line is lost (24 R379) or, where the access reads, whose line's check fails (20 R346). -/
def LaneAcc.lineFault (a : LaneAcc) (s : State) (k : Acc) : Option RowFault := s.lineFault a.tab.asid a.va a.row a.cells k

/-- Whether an access meets a lost line (24 R379). -/
def LaneAcc.isLost (a : LaneAcc) (s : State) : Bool := a.cells.any s.lostCell

/-- MEM.UE of the lowest lane whose line is lost. -/
def lostLane (s : State) (as : List LaneAcc) : Option Flt := (as.find? fun a => a.isLost s).map fun a => (lostFault a.row).at a.lane

/-- Whether an access that reads its line gets no value: the line is lost, or its check fails. -/
def LaneAcc.isBad (a : LaneAcc) (s : State) : Bool := (a.lineFault s .read).isSome

/-- MEM.UE or MEM.INTEG of the lowest lane that gets no value (24 R379, 20 R346). -/
def badLane (s : State) (as : List LaneAcc) : Option Flt :=
  as.findSome? fun a => (a.lineFault s .read).map fun f => f.at a.lane

/-- The lines whose checks have failed are retired (24 R379, 20 R346). -/
def State.retireLines (s : State) (as : List LaneAcc) : State :=
  s.retire ((as.filterMap fun a => (a.lineFault s .read).map (·.retires)).flatten.eraseDups)

/-- The blocks that accesses touch: what the lanes of ISSUE touch in one block of an aperture is one request (20 R333). -/
def State.laneBlocks (s : State) (as : List LaneAcc) : List Block :=
  (as.flatMap fun a => s.blocksAt a.tab.asid a.tab.desc.aper 0 a.va a.cells.length).foldl mergeBlock []

/-- What accesses leave in the caches and at the memory controllers, where the outstanding work `acc` may wait for them, and the
translation walks that they start (20 R328, R331 to R341). -/
def State.noteAccs (s : State) (c : Cur) (acc : Option Nat) (as : List LaneAcc) (write : Bool) : State :=
  as.foldl (fun t a => t.noteWalks (Site.ofCore c.core) a.tab.asid a.va a.cells.length)
    (s.touch c.core c.gang acc write (s.laneBlocks as))

/-- The pages that accesses touch. -/
def pagesOf (as : List LaneAcc) : List Nat := (as.flatMap fun a => [a.va / 4096, (a.va + a.cells.length - 1) / 4096]).eraseDups

end Sys2Proof.Machine
end

