-- ==== Sys2Proof/Machine/Index.lean ====
section
/-! DEFINITION. Keys and indexes: the operations of an index engine on one key (13 R252 to R258, R262 to R270). -/

namespace Sys2Proof.Machine

/-- A key as a number in its type's order (13 R256). -/
def keyNum (kt : Nat) (v : QWord) : Int :=
  match kt with
  | 0 => (v.setWidth 32).toInt
  | 1 => (v.setWidth 32).toNat
  | 2 => (v.setWidth 64).toInt
  | 3 => (v.setWidth 64).toNat
  | _ => beNat ((List.range 16).map fun j => v.extractLsb' (8 * j) 8)

/-- A key's number as the registers that hold it (13 R256). -/
def keyWord (kt : Nat) (k : Int) : QWord :=
  match kt with
  | 0 | 1 => (BitVec.ofInt 32 k).setWidth 128
  | 2 | 3 => (BitVec.ofInt 64 k).setWidth 128
  | _ =>
    (List.range 16).foldl (fun a j => a ||| ((BitVec.ofNat 128 (k.toNat / 256 ^ (15 - j) % 256)) <<< (8 * j))) 0

/-- The value of a key's registers in a lane. -/
def Warp.keyVal (W : Warp) (l n kt : Nat) : QWord :=
  if kt = 4 then W.get128 l n else if 2 ≤ kt then (W.get64 l n).setWidth 128 else (W.get l n).setWidth 128

/-- The entry of a key. -/
def Table.find (t : Table) (k : Int) : Option KeyRow := t.keys.find? fun e => e.key == k

/-- The table with the entry of a key changed. -/
def Table.mapKey (t : Table) (k : Int) (f : KeyRow → KeyRow) : Table :=
  { t with keys := t.keys.map fun e => if e.key = k then f e else e }

/-- A hit: the key's counter gains 1 and stays at 255 (13 R258). -/
def Table.hit (t : Table) (k : Int) : Table := t.mapKey k fun e => { e with hits := min (e.hits + 1) 255 }

/-- The lowest free row number (13 R266). -/
def Table.freeRow (t : Table) : Nat :=
  ((List.range (t.keys.length + 1)).find? fun r => !(t.keys.any fun e => e.row == r)).getD 0

/-- A key put in its place in ascending order. -/
def insertKey (e : KeyRow) : List KeyRow → List KeyRow
  | [] => [e]
  | f :: r => if f.key < e.key then f :: insertKey e r else e :: f :: r

/-- The table with a key inserted at a row (13 R266). -/
def Table.insert (t : Table) (k : Int) (row : Nat) : Table :=
  { t with keys := insertKey { key := k, row := row, hits := 0 } t.keys, desc := { t.desc with live := t.desc.live + 1 } }

/-- The generation after a delete: 0xFFFF is followed by 1 (13 R254). -/
def nextGen (g : Nat) : Nat := if g = 0xFFFF then 1 else g + 1

/-- The table with a key removed and its row's generation advanced (13 R254, R266). -/
def Table.remove (t : Table) (k : Int) (row : Nat) : Table :=
  { t with keys := t.keys.filter fun e => e.key != k,
           desc := { t.desc with live := t.desc.live - 1 },
           gens := (row, nextGen (t.genOf row)) :: t.gens.filter fun g => g.1 != row }

/-- The key that follows a cursor's position in its direction (13 R269). -/
def Table.after (t : Table) (c : Cursor) : Option KeyRow :=
  if c.rev then t.keys.reverse.find? fun e => if c.incl then e.key ≤ c.key else e.key < c.key
  else t.keys.find? fun e => if c.incl then c.key ≤ e.key else c.key < e.key

/-- The exact values of a valid mixed-width row, and none for a reserved code (14 R273). -/
def rowVals (n : Nat) (bs : List Byte) : Option (List Num.Val) :=
  let code := (bs.getD 0 0).toNat
  let x := bs.getD 1 0
  let pay := bs.drop 2
  let sc : Num.Val := Num.value .e8m0 x.toNat
  let el (c : Nat) : Num.Val :=
    match code with
    | 1 => Num.value .f32 (leNat ((pay.drop (4 * c)).take 4))
    | 2 => Num.value .bf16 (leNat ((pay.drop (2 * c)).take 2))
    | 3 => Num.value .f16 (leNat ((pay.drop (2 * c)).take 2))
    | 4 => Num.value .e4m3 (pay.getD c 0).toNat
    | 5 => Num.value .e5m2 (pay.getD c 0).toNat
    | 6 => Num.value .e2m1 ((pay.getD (c / 2) 0).toNat / 16 ^ (c % 2) % 16)
    | _ => Num.intVal (pay.getD c 0).toInt
  if 1 ≤ code && code ≤ 7 then some ((List.range n).map fun c => Num.mul sc (el c)) else none

/-- The least `e8m0` code X with M / 2^(X - 127) at most `top` (14 R274). -/
def leastScale (m : Num.Val) (top : Num.Val) : Nat :=
  ((List.range 255).find? fun (x : Nat) =>
    Num.cmp (Num.mul m (.num false (.dy 1 (127 - (x : Int))))) top != .gt).getD 254

/-- A value as an `.i8`: rounded to nearest even and clamped; NaN gives 0 (14 R274, R277). -/
def valI8 (v : Num.Val) : Byte := BitVec.ofInt 8 (Num.toInt .rne (-128) 127 v)

/-- Values packed into the payload bytes of a format code. -/
def packVals (code : Nat) (f : Num.Val → Nat) (vs : List Num.Val) : List Byte :=
  match code with
  | 1 => (vs.map fun v => leBytes 4 (f v)).flatten
  | 2 | 3 => (vs.map fun v => leBytes 2 (f v)).flatten
  | 6 =>
    (List.range ((vs.length + 1) / 2)).map fun j =>
      BitVec.ofNat 8 (f (vs.getD (2 * j) (.zero false)) +
        if 2 * j + 1 < vs.length then 16 * f (vs.getD (2 * j + 1) (.zero false)) else 0)
  | _ => vs.map fun v => BitVec.ofNat 8 (f v)

/-- The float format of a row's format code (14 R272). -/
def codeFmt (code : Nat) : Num.Fmt :=
  match code with
  | 1 => .f32 | 2 => .bf16 | 3 => .f16 | 4 => .e4m3 | 5 => .e5m2 | _ => .e2m1

/-- A row's bytes re-encoded to a format code, up to WIDTH (14 R274). -/
def reencode (m width : Nat) (vs : List Num.Val) : List Byte :=
  let fin := vs.filter fun v => match v with | .num .. => true | _ => false
  let abs := fin.map fun v => match v with | .num _ k => Num.Val.num false k | w => w
  let top := abs.foldl (fun a v => match a with
    | .zero _ => v
    | b => if Num.cmp b v = .lt then v else b) (.zero false)
  let lim : Num.Val := if m = 7 then Num.intVal 127 else Num.value (codeFmt m) (Num.maxCode (codeFmt m))
  let x := if m ≤ 3 || abs.isEmpty then 0x7F else leastScale top lim
  let sc : Num.Val := .num false (.dy 1 (127 - (x : Int)))
  let el (v : Num.Val) : Nat :=
    if m ≤ 3 then Num.round (codeFmt m) .rne true v
    else if m = 7 then (valI8 (Num.mul v sc)).toNat
    else Num.round (codeFmt m) .rne true (Num.mul v sc)
  let bs := BitVec.ofNat 8 m :: BitVec.ofNat 8 x :: packVals m el vs
  bs ++ List.replicate (width - bs.length) 0

/-- What one lane's keyed operation answers: the value of D and its flags (13 R266), or a fault of its row's access. -/
structure KeyRes where
  d : Option QWord
  flags : BitVec 4
  deriving DecidableEq, Repr, Inhabited

/-- The row bytes that a keyed operation reads or writes at byte offset `o`. -/
def State.keyCells (s : State) (t : Table) (row o n : Nat) (k : Acc) : Except RowFault (List Nat) :=
  match s.rowCells t row o n k with
  | .error f => .error f
  | .ok cs =>
    match s.lineFault t.asid (t.va row o) row cs k with
    | some f => .error f
    | none => .ok cs

/-- All ones, the reference that names no table. -/
def noRef : QWord := BitVec.ofNat 128 (2 ^ 64 - 1)

/-- One lane's keyed operation, atomically (13 R262, R263, R266): the state after it and its answer. `b` is the value
register and `e` the captured data. -/
def State.keyOp (s : State) (i : Instr) (asid slot : Nat) (k : Int) (dv bv : QWord) : State × Except RowFault KeyRes :=
  match s.table? asid slot with
  | none => (s, .ok { d := none, flags := 0 })
  | some t =>
    let upd (f : Table → Table) (s : State) : State := s.mapTable asid slot f
    match i with
    | .tget .. =>
      match t.find k with
      | some e => (upd (·.hit k) s, .ok { d := some ((t.ref e.row).setWidth 128), flags := nzcv false true true false })
      | none => (s, .ok { d := some noRef, flags := 0 })
    | .ldk f _ _ _ _ _ _ x =>
      match t.find k with
      | none => (s, .ok { d := some 0, flags := 0 })
      | some e =>
        match s.keyCells t e.row x.toNat (esize f.toNat) .read with
        | .error g => (s, .error g)
        | .ok cs =>
          (upd (·.hit k) s, .ok { d := some (loadConv f.toNat (leNat (s.loadBytes t e.row x.toNat 0 cs))),
                                  flags := nzcv false true true false })
    | .stk f _ _ _ _ _ _ x =>
      match t.find k with
      | none => (s, .ok { d := none, flags := 0 })
      | some e =>
        match s.keyCells t e.row x.toNat (esize f.toNat) .write with
        | .error g => (s, .error g)
        | .ok cs =>
          (upd (·.hit k) (s.storeBytes t e.row x.toNat 0 cs (leBytes (esize f.toNat) (storeConv f.toNat dv))),
            .ok { d := none, flags := nzcv false true true false })
    | .tins m _ _ _ _ _ _ _ x =>
      match t.find k with
      | some e =>
        if m = 0 then (s, .ok { d := some ((t.ref e.row).setWidth 128), flags := nzcv false false true false })
        else
          match s.keyCells t e.row x.toNat 4 .write with
          | .error g => (s, .error g)
          | .ok cs =>
            (s.storeBytes t e.row x.toNat 0 cs (leBytes 4 (bv.toNat % 2 ^ 32)),
              .ok { d := some ((t.ref e.row).setWidth 128), flags := nzcv false true true false })
      | none =>
        if t.desc.live < t.desc.cap then
          let row := t.freeRow
          match s.keyCells t row 0 t.desc.width .write, s.keyCells t row x.toNat 4 .write with
          | .ok all, .ok cs =>
            let path := pathOf t.desc.aper 0
            let s1 := s.writeCells path (all.map fun c => (c, 0))
            let s2 := s1.storeBytes t row x.toNat 0 cs (leBytes 4 (bv.toNat % 2 ^ 32))
            (upd (fun t => t.insert k row) s2,
              .ok { d := some ((t.ref row).setWidth 128), flags := nzcv false true false false })
          | .error g, _ | _, .error g => (s, .error g)
        else (s, .ok { d := some noRef, flags := nzcv false false false true })
    | .tdel .. =>
      match t.find k with
      | some e =>
        (upd (fun t => t.remove k e.row) s, .ok { d := some ((t.ref e.row).setWidth 128), flags := nzcv false true true false })
      | none => (s, .ok { d := some noRef, flags := 0 })
    | .tupdVal _ _ _ _ _ _ _ x =>
      match t.find k with
      | none => (s, .ok { d := some 0, flags := 0 })
      | some e =>
        match s.keyCells t e.row x.toNat 4 .rmw with
        | .error g => (s, .error g)
        | .ok cs =>
          (s.storeBytes t e.row x.toNat 0 cs (leBytes 4 (bv.toNat % 2 ^ 32)),
            .ok { d := some (BitVec.ofNat 128 (leNat (s.loadBytes t e.row x.toNat 0 cs))),
                  flags := nzcv false true true false })
    | .tupdFmt .. =>
      match t.find k with
      | none => (s, .ok { d := some 0, flags := 0 })
      | some e =>
        match s.keyCells t e.row 0 t.desc.width .rmw with
        | .error g => (s, .error g)
        | .ok cs =>
          let path := pathOf t.desc.aper 0
          let bs := cs.map (s.readCell path)
          let m := bv.toNat % 256
          let reset := upd (fun t => t.mapKey k fun e => { e with hits := 0 }) s
          let d := some (BitVec.ofNat 128 e.hits)
          match rowVals t.elems bs with
          | none => (reset, .ok { d := d, flags := nzcv false false true false })
          | some vs =>
            if m = (bs.getD 0 0).toNat then (reset, .ok { d := d, flags := nzcv false true true false })
            else if t.desc.width < rowLen m t.elems then (reset, .ok { d := d, flags := nzcv false false true true })
            else
              (reset.writeCells path (cs.zip (reencode m t.desc.width vs)),
                .ok { d := d, flags := nzcv false true true false })
    | _ => (s, .ok { d := none, flags := 0 })

end Sys2Proof.Machine
end

