-- ==== Sys2Proof/Machine/Effects.lean ====
section
/-! DEFINITION. What an engine operation does when it completes, as a list of small writes: lane copies, bulk copies, the
gather, the matrix unit (10 R213 to R222, 11 R231 to R246, 14 R277). The same list, taken word by word by free bits, is
what a discarded operation leaves (10 R212, 24 R377). -/

namespace Sys2Proof.Machine

/-- One write of an engine: at most an aligned 32-bit word of memory or of a share, or one accumulator element. Writes of an operation whose
`grp` is the same number, not 0, are made together when they are made before its completion: their words are made of parts of the same
words or elements of the source. -/
inductive EngWrite where
  | row (path : Nat) (cells : List (Nat × Byte)) (grp : Nat)
  | cmem (off : Nat) (bytes : List Byte) (grp : Nat)
  | firn (off : Nat) (bytes : List Byte) (grp : Nat)
  | acc (wg elem : Nat) (v : Word)
  | sat (wg line : Nat) (set : Bool)
  deriving DecidableEq, Repr, Inhabited

/-- The accumulator store with an element written; zeros are not listed. -/
def Wg.putAcc (G : Wg) (e : Nat) (v : Word) : Wg :=
  { G with acc := (if v = 0 then [] else [(e, v)]) ++ G.acc.filter fun p => p.1 != e }

/-- An element of the accumulator store (11 R231, R232). -/
def Wg.getAcc (G : Wg) (e : Nat) : Word := (G.acc.lookup e).getD 0

/-- The SAT bit of a line set or cleared (11 R232). -/
def Wg.putSat (G : Wg) (line : Nat) (b : Bool) : Wg :=
  { G with sat := (if b then [line] else []) ++ G.sat.filter fun l => l != line }

/-- The gang with one workgroup changed. -/
def Gang.mapWg (G : Gang) (w : Nat) (f : Wg → Wg) : Gang := { G with wgs := G.wgs.modify w f }

/-- One write of an engine of gang `g`. -/
def State.engWrite (s : State) (g : Nat) (e : EngWrite) : State :=
  match e with
  | .row p cs _ => s.writeCells p cs
  | .cmem o bs _ => s.mapGang g fun G => { G with cmem := Memory.putBytes G.cmem o bs }
  | .firn o bs _ => s.mapGang g fun G => { G with firn := Memory.putBytes G.firn o bs }
  | .acc w k v => s.mapGang g fun G => G.mapWg w fun W => W.putAcc k v
  | .sat w l b => s.mapGang g fun G => G.mapWg w fun W => W.putSat l b

/-- Bytes at an offset, cut into aligned words. -/
def chunks (o : Nat) (bs : List Byte) : List (Nat × List Byte) :=
  ((List.range (bs.length / 4 + 2)).filterMap fun k =>
    let lo := o / 4 * 4 + 4 * k
    let a := max lo o
    let b := min (lo + 4) (o + bs.length)
    if a < b then some (a, (bs.drop (a - o)).take (b - a)) else none)

/-- Writes to a share, word by word. -/
def cmemWrites (grp o : Nat) (bs : List Byte) : List EngWrite := (chunks o bs).map fun c => .cmem c.1 c.2 grp

/-- Writes to a row, by the words of its cells, which are aligned in address whatever the row's (13 R396): a page begins at a multiple of
four. -/
def rowWrites (path grp : Nat) (cells : List Nat) (bs : List Byte) : List EngWrite :=
  let o := cells.headD 0 % 4
  (chunks o bs).map fun c => .row path ((((cells.drop (c.1 - o)).take c.2.length)).zip c.2) grp

/-- Fields of a tile descriptor (09 R202). -/
def tileBase (d : DWord) : Nat := 64 * (fld d 32 16).toNat
def tileTf (d : DWord) : Nat := (fld d 28 4).toNat
def tileCols (d : DWord) : Nat := (fld d 10 10).toNat + 1
def tileRows (d : DWord) : Nat := (fld d 0 10).toNat + 1

/-- Bits per element of a tile format (09 R203). -/
def tfBits (tf : Nat) : Nat :=
  match tf with
  | 0 => 32 | 1 | 2 => 16 | 3 | 4 | 5 => 8 | 6 => 4 | _ => 2

/-- Bytes of a tile row, and of a tile, rounded up to 64 (09 R202). -/
def tileRowBytes (d : DWord) : Nat := tileCols d * tfBits (tileTf d) / 8
def tileBytes (d : DWord) : Nat := ((tileRows d * tileCols d * tfBits (tileTf d) + 7) / 8 + 63) / 64 * 64

/-- The tile of a number in a gang. -/
def Gang.tile? (G : Gang) (n : Nat) : Option Tile := G.tiles.find? fun t => t.num == n

/-- The gang with a tile's state changed. -/
def Gang.setTile (G : Gang) (n : Nat) (st : TileState) : Gang :=
  { G with tiles := G.tiles.map fun t => if t.num = n then { t with st := st } else t }

/-- The engine-side fault of a row (10 R212): FADDR holds the row number. -/
def engFault (cls code : BitVec 8) (row : Nat) : RowFault := { cls := cls, code := code, aux := 0, faddr := BitVec.ofNat 32 row }

/-- A row-side fault charged by an engine: only the row number goes to FADDR (10 R212). -/
def RowFault.eng (f : RowFault) (row : Nat) : RowFault := { f with faddr := BitVec.ofNat 32 row }

/-- The cells of a row for an engine, with MEM.UE for a lost line and MEM.INTEG for one whose check fails. -/
def State.engCells (s : State) (t : Table) (row o n : Nat) (k : Acc) : Except RowFault (List Nat) :=
  match s.rowCells t row o n k with
  | .error f => .error (f.eng row)
  | .ok cs =>
    match s.lineFault t.asid (t.va row o) row cs k with
    | some f => .error f
    | none => .ok cs

/-- The effect of one lane of CPL (10 R214, R215). A lane whose row bytes are not aligned as its 32 bytes of the share are reads no word of
its source in two parts (10 R216; DESIGN CHOICE, log 19). -/
def State.cplLane (s : State) (asid : Nat) (G : Gang) (op off : Nat) (a : Arg) : Except RowFault (List EngWrite) :=
  let v := a.b.toNat % 2 ^ 32
  let lo := a.d.toNat % 2 ^ 32
  let ro := a.c.toNat % 2 ^ 32 + off
  let rr : DWord := a.a.setWidth 64
  let grp (cs : List Nat) : Nat := if (cs.headD 0) % 4 = 0 then 0 else lo / 32 + 1
  let local' (g : Nat) (bs : List Byte) : List EngWrite :=
    if op = 0 then cmemWrites g lo bs else (chunks lo bs).map fun c => .firn c.1 c.2 g
  let out := op % 2 = 1
  if !out && v = 0 then .ok (local' 0 (List.replicate 32 0))
  else match s.refCheck asid rr with
    | .error f => .error (f.eng (refRow rr))
    | .ok t =>
      if t.desc.width < ro + (if out then 32 else v) then .error (engFault 0x0A 4 (refRow rr))
      else match s.engCells t (refRow rr) ro (if out then 32 else v) (if out then .write else .read) with
        | .error f => .error f
        | .ok cs =>
          if out then
            let src := Memory.bytes (if op = 1 then G.cmem else G.firn) lo v
            let keep := s.curLen t (refRow rr) 0 - ro
            .ok (rowWrites (pathOf t.desc.aper 0) (grp cs) (cs.take keep) ((src ++ List.replicate (32 - v) 0).take keep))
          else .ok (local' (grp cs) (s.loadBytes t (refRow rr) ro 0 cs ++ List.replicate (32 - v) 0))

/-- An element of FMT in a row to the element of a tile (10 R218). -/
def toTile (f tf raw : Nat) : Nat :=
  if f ≤ 2 then raw
  else if tf = 0 then (loadConv f raw).toNat % 2 ^ 32
  else raw

/-- An element of a tile to the element of FMT in a row (10 R218). -/
def fromTile (f tf v : Nat) : Nat :=
  if f ≤ 2 then v else if tf = 0 then storeConv f (BitVec.ofNat 128 v) else v

/-- Bytes of a table row that a tile row occupies (10 R218). -/
def cpbRow (f : Nat) (d : DWord) : Nat := if f ≤ 2 then tileRowBytes d else tileCols d * esize f

/-- One step of the ECMA-182 CRC-64 over a byte (10 R220). -/
def crcByte (c : DWord) (b : Byte) : DWord :=
  (List.range 8).foldl (fun c _ => if c.msb then (c <<< 1) ^^^ 0x42F0E1EBA9EA3693 else c <<< 1) (c ^^^ (b.setWidth 64 <<< 56))

/-- CRC-64 of bytes: initial value 0, no reflection, no final inversion. -/
def crc64 (bs : List Byte) : DWord := bs.foldl crcByte 0

/-- The first byte of a run of a table whose translation fails, as the fault of its row (20 R327, 10 R212). -/
def State.runFault (s : State) (t : Table) (lo n : Nat) (k : Acc) : RowFault :=
  let bad (j : Nat) : Bool := match s.cellAt t.asid t.desc.aper (t.desc.rowbase + lo + j) k with
    | .ok _ => false
    | .error _ => true
  let j := ((List.range n).find? bad).getD 0
  let row := if t.desc.width = 0 then 0 else (lo + j) / t.desc.width
  match s.cellAt t.asid t.desc.aper (t.desc.rowbase + lo + j) k with
  | .error f => (xlatFault f t.slot row).eng row
  | .ok _ => engFault 0x0D 1 row

/-- The cells of `n` bytes of a dense table's rows taken as one run, from byte `lo` on, as an engine accesses them. -/
def State.runCells (s : State) (t : Table) (lo n : Nat) (k : Acc) : Except RowFault (List Nat) :=
  let row := if t.desc.width = 0 then 0 else lo / t.desc.width
  match s.cellsAt t.asid t.desc.aper (t.desc.rowbase + lo) n k with
  | .error _ => .error { s.runFault t lo n k with misses := [t.desc.rowbase + lo, t.desc.rowbase + lo + n - 1] }
  | .ok cs =>
    if cs.any s.containedCell then .error (engFault 0x10 1 row)
    else match s.lineFault t.asid (t.desc.rowbase + lo) row cs k with
      | some f => .error f
      | none => .ok cs

/-- Block k of a table's run of bytes, the last padded with zeros (10 R220), through a view. -/
def State.crcBlock (s : State) (t : Table) (view k : Nat) : Except RowFault (List Byte) :=
  let n := min 4096 (t.desc.width * t.desc.cap - 4096 * k)
  (s.runCells t (4096 * k) n .read).map fun cs => cs.map (s.readCell (pathOf t.desc.aper view)) ++ List.replicate (4096 - n) 0

/-- The cells of the sidecar entry of block k, as an engine reads or writes it: eight bytes, least significant first, row-major at
CRCBASE + 8 k. What its access meets is a fault of the row (DEDUCED, log 14). -/
def State.crcCells (s : State) (t : Table) (k row : Nat) (acc : Acc) : Except RowFault (List Nat) :=
  match s.cellsAt t.asid 0 (t.desc.crcbase + 8 * k) 8 acc with
  | .error f => .error { (xlatFault f t.slot row).eng row with misses := [t.desc.crcbase + 8 * k] }
  | .ok cs =>
    if cs.any s.containedCell then .error (engFault 0x10 1 row)
    else match s.lineFault t.asid (t.desc.crcbase + 8 * k) row cs acc with
      | some f => .error f
      | none => .ok cs

/-- What the write of the sidecar entry of block k leaves in the caches and at the memory controllers. -/
def State.touchCrc (s : State) (die : Nat) (t : Table) (k : Nat) : State :=
  s.touchDie die true (s.blocksAt t.asid 0 0 (t.desc.crcbase + 8 * k) 8)

/-- The blocks that `rows` rows from row n touch at bytes ro to ro + rb - 1. -/
def crcBlocks (t : Table) (n rows ro rb : Nat) : List Nat :=
  (((List.range rows).map fun r =>
    let a := (n + r) * t.desc.width + ro
    (List.range ((a + rb - 1) / 4096 - a / 4096 + 1)).map fun j => a / 4096 + j).flatten).eraseDups

/-- The CRC of every block of a list recomputed into the sidecar by an engine of a die (10 R220). -/
def State.recrc (s : State) (die : Nat) (t : Table) (view row : Nat) (ks : List Nat) : State :=
  ks.foldl (fun s k =>
    match s.crcCells t k row .write, s.crcBlock t view k with
    | .ok cs, .ok bs => (s.touchCrc die t k).writeCells 0 (cs.zip (leBytes 8 (crc64 bs).toNat))
    | _, _ => s) s

/-- What the engine finds in the CRC blocks of a sealed table that a bulk copy touches: a block that it cannot read, an entry that it
cannot read, or, for a bulk write, write, or, for a bulk read, a block whose CRC differs (10 R220; DEDUCED, log 14). -/
def State.crcFault (s : State) (t : Table) (view row : Nat) (read : Bool) (ks : List Nat) : Option RowFault :=
  ks.findSome? fun k =>
    match s.crcBlock t view k, s.crcCells t k row (if read then .read else .write) with
    | .error f, _ | _, .error f => some f
    | .ok bs, .ok cs => if read && cs.map (s.readCell 0) != leBytes 8 (crc64 bs).toNat then some (engFault 0x0A 7 row) else none

/-- The effect of CPB (10 R217 to R220): a tile from or to consecutive rows. `m` is MIN, `f` FMT. `chk` is false once a bulk read has
checked its blocks, which it does before it writes any byte of the tile. A row of which words or elements do not lie one on another on the two
sides is read at once (09 R206, 10 R216; DESIGN CHOICE, log 19). The rows' bytes up to WIDTH are copied as they stand, also beyond the
length L of a mixed-width row, of which the spec speaks for loads and stores (13 R257; DESIGN CHOICE, log 92). -/
def State.cpbEffect (s : State) (asid : Nat) (G : Gang) (m f ro : Nat) (tile : Nat) (rr : DWord) (chk : Bool) :
    Except RowFault (List EngWrite) :=
  match s.refCheck asid rr with
  | .error e => .error (e.eng (refRow rr))
  | .ok t =>
    let n := refRow rr
    let d := ((G.tile? tile).map (·.desc)).getD 0
    let rb := cpbRow f d
    let view := m / 2
    let path := pathOf t.desc.aper view
    let tb := tileRowBytes d
    let eb := tfBits (tileTf d) / 8
    if t.desc.tkind ≠ 0 then .error (engFault 0x0A 5 n)
    else if t.desc.cap < n + tileRows d || t.desc.width < ro + rb then .error (engFault 0x0A 4 n)
    else
      let rows : Except RowFault (List (List EngWrite)) := (List.range (tileRows d)).mapM fun r =>
        match s.engCells t (n + r) ro rb (if m % 2 = 0 then .read else .write) with
        | .error e => .error e
        | .ok cs =>
          let same := (f ≤ 2 || eb == esize f) && (tileBase d + r * tb) % 4 == (cs.headD 0) % 4
          let grp := if same then 0 else r + 1
          if m % 2 = 0 then
            let bs := cs.map (s.readCell path)
            let out := if f ≤ 2 then bs else ((List.range (tileCols d)).map fun c =>
              leBytes eb (toTile f (tileTf d) (leNat ((bs.drop (c * esize f)).take (esize f))))).flatten
            .ok (cmemWrites grp (tileBase d + r * tb) out)
          else
            let bs := Memory.bytes G.cmem (tileBase d + r * tb) tb
            let out := if f ≤ 2 then bs else ((List.range (tileCols d)).map fun c =>
              leBytes (esize f) (fromTile f (tileTf d) (leNat ((bs.drop (c * eb)).take eb)))).flatten
            .ok (rowWrites path grp cs out)
      match rows with
      | .error e => .error e
      | .ok ws =>
        match if chk && t.sealed then s.crcFault t view n (m % 2 == 0) (crcBlocks t n (tileRows d) ro rb) else none with
        | some e => .error e
        | none => .ok ws.flatten

/-- Fields of an operand map (11 R233). -/
def mapCls (m : DWord) : Nat := (fld m 62 2).toNat
def mapMf (m : DWord) : Nat := (fld m 58 4).toNat
def mapSs (m : DWord) : Nat := (fld m 56 2).toNat
def mapRows (m : DWord) : Nat := (fld m 46 10).toNat + 1
def mapCols (m : DWord) : Nat := (fld m 36 10).toNat + 1
def mapSloc (m : DWord) : Nat := (fld m 16 8).toNat
def mapLoc (m : DWord) : Nat := (fld m 0 8).toNat

/-- Bits of a matrix format, and the tile format it needs (11 R234). -/
def mfBits (mf : Nat) : Nat :=
  match mf with
  | 0 | 1 => 16 | 6 | 9 => 4 | 8 => 2 | _ => 8
def mfTf (mf : Nat) : Nat :=
  match mf with
  | 0 => 1 | 1 => 2 | 2 | 4 => 3 | 3 | 5 => 4 | 6 | 9 => 6 | 7 => 5 | _ => 7
def mfIsMx (mf : Nat) : Bool := mf == 4 || mf == 5 || mf == 6

/-- The float format of a matrix format. -/
def mfFmt (mf : Nat) : Num.Fmt :=
  match mf with
  | 0 => .bf16 | 1 => .f16 | 2 | 4 => .e4m3 | 3 | 5 => .e5m2 | _ => .e2m1

/-- The rows of a source, as bytes: a tile, or consecutive rows of a dense table (11 R236, R237). -/
def State.source (s : State) (asid : Nat) (G : Gang) (isTile : Bool) (tile : Nat) (rr : DWord) (rows rb : Nat) :
    Except RowFault (List (List Byte)) :=
  if isTile then
    let d := ((G.tile? tile).map (·.desc)).getD 0
    .ok ((List.range rows).map fun r => Memory.bytes G.cmem (tileBase d + r * rb) rb)
  else match s.refCheck asid rr with
    | .error e => .error (e.eng (refRow rr))
    | .ok t =>
      if t.desc.tkind ≠ 0 then .error (engFault 0x0A 5 (refRow rr))
      else if t.desc.cap < refRow rr + rows || t.desc.width < rb then .error (engFault 0x0A 4 (refRow rr))
      else (List.range rows).mapM fun r =>
        (s.engCells t (refRow rr + r) 0 rb .read).map fun cs => cs.map (s.readCell (pathOf t.desc.aper 0))

/-- Element c of `bits` bits of a row of bytes (03 R60). -/
def elemAt (bits : Nat) (bs : List Byte) (c : Nat) : Nat :=
  if 8 ≤ bits then leNat ((bs.drop (c * (bits / 8))).take (bits / 8))
  else (bs.getD (c * bits / 8) 0).toNat / 2 ^ (c * bits % 8) % 2 ^ bits

/-- The scale codes of an operand (11 R237): `short` when an L2 scale table is too narrow. -/
def State.scales (s : State) (asid : Nat) (G : Gang) (m : DWord) (rr : DWord) (nb : Nat) : Except RowFault (List (List Byte)) :=
  if mapSs m = 0 then .ok []
  else if mapSs m = 1 then s.source asid G true (mapSloc m) 0 (mapRows m) nb
  else match s.refCheck asid rr with
    | .error e => .error (e.eng (refRow rr))
    | .ok t =>
      if t.desc.width < nb then .error (engFault 6 5 (refRow rr))
      else s.source asid G false 0 rr (mapRows m) nb

/-- Where the stored elements of a row of A stand in dense K (11 R238): the dense positions in stored order. -/
def sparsePos (mode : Nat) (codes : List Nat) : List Nat :=
  (codes.mapIdx fun g c =>
    let c0 := c % 4
    let c1 := c / 4
    if mode = 1 then [4 * g + c0, 4 * g + c1]
    else [8 * g + 2 * c0, 8 * g + 2 * c0 + 1, 8 * g + 2 * c1, 8 * g + 2 * c1 + 1]).flatten

/-- An element's exact value with its block's scale (03 R60, 11 R237). -/
def scaledElem (mf : Nat) (scales : List Byte) (code k : Nat) : Num.Val :=
  let v := Num.value (mfFmt mf) code
  if mfIsMx mf then Num.mul (Num.value .e8m0 (scales.getD (k / 32) 0x7F).toNat) v else v

/-- The exact sum of a block's products, in ascending K (03 R72). -/
def exactSum (ps : List Num.Val) : Num.Val :=
  match ps with
  | [] => .zero false
  | p :: r => r.foldl (Num.add false) p

/-- One element of a float product: the blocks of K in order, one rounding each (03 R72, 11 R241). `as` are the pairs of
dense position and value of a row of A. -/
def floatAcc (blk kd : Nat) (as : List (Nat × Num.Val)) (b : Nat → Num.Val) (acc : Nat) : Nat :=
  (List.range ((kd + blk - 1) / blk)).foldl (fun acc n =>
    let ps := (as.filter fun p => p.1 / blk == n).map fun p => Num.mul p.2 (b p.1)
    Num.round .f32 .rne false (Num.add false (Num.value .f32 acc) (exactSum ps))) acc

/-- The signed value of a `t2` code (03 R60). -/
def t2Val (c : Nat) : Int := if c = 1 then 1 else if c = 3 then -1 else 0

/-- One element of a ternary product with saturation, and whether it clamped (03 R73). -/
def ternAcc (kd : Nat) (a : Nat → Nat) (b : Nat → Int) (acc : Int) : Int × Bool :=
  (List.range ((kd + 31) / 32)).foldl (fun st n =>
    let sum := ((List.range 32).map fun j => if 32 * n + j < kd then t2Val (a (32 * n + j)) * b (32 * n + j) else 0).foldl
      (· + ·) (0 : Int)
    let x := st.1 + sum
    let y := min (max x (-(2 ^ 31))) (2 ^ 31 - 1)
    (y, st.2 || x != y)) (acc, false)

/-- The lines that a region touches (11 R232). -/
def regionLines (line elems : Nat) : List Nat := (List.range ((4 * elems + 63) / 64)).map fun j => line + j

/-- What a metadata code must be (11 R238): c0 below c1. -/
def metaBad (c : Nat) : Bool := c / 4 ≤ c % 4

/-- The effect of XMMA (11 R241, R242). `um` are the captured maps A, B and metadata and the row references of their
sources and scales, in that order. Where several faults apply, those of the row sides come first, in the order of A, B, the metadata, the
scales of A and the scales of B: the spec orders only META before TERN (DESIGN CHOICE, log 90). -/
def State.xmmaEffect (s : State) (asid : Nat) (G : Gang) (wg mode op line : Nat) (um : List DWord) :
    Except RowFault (List EngWrite) :=
  let ma := um.getD 0 0
  let mb := um.getD 1 0
  let mm := um.getD 2 0
  let sparse := mode = 1 || mode = 2
  let kd := if sparse then 2 * mapCols ma else mapCols ma
  let nb := (kd + 31) / 32
  let rowB (m : DWord) : Nat := mapCols m * mfBits (mapMf m) / 8
  let src (m rr : DWord) := s.source asid G (mapCls m == 0) (mapLoc m) rr (mapRows m) (rowB m)
  match src ma (um.getD 3 0), src mb (um.getD 4 0), (if sparse then src mm (um.getD 5 0) else .ok []),
      s.scales asid G ma (um.getD 6 0) nb, s.scales asid G mb (um.getD 7 0) nb with
  | .ok ra, .ok rb, .ok rm, .ok sa, .ok sb =>
    let M := mapRows ma
    let N := mapRows mb
    let groups := mapCols mm
    let codes (i : Nat) : List Nat := (List.range groups).map fun g => elemAt 4 (rm.getD i []) g
    if sparse && (List.range M).any fun i => (codes i).any metaBad then .error (engFault 6 7 0)
    else if mode = 3 && (List.range M).any fun i => (List.range kd).any fun k => elemAt 2 (ra.getD i []) k == 2 then
      .error (engFault 6 8 0)
    else
      let W := G.wgs.getD wg default
      let base := 16 * line
      let clear : List EngWrite := if op = 0 then (regionLines line (M * N)).map fun l => .sat wg l false else []
      let blk := if mapMf ma ≤ 1 then 16 else 32
      let elems := (List.range M).map fun i =>
        let row := ra.getD i []
        let pos := if sparse then sparsePos mode (codes i) else List.range kd
        let as := pos.mapIdx fun j k => (k, scaledElem (mapMf ma) (sa.getD i []) (elemAt (mfBits (mapMf ma)) row j) k)
        (List.range N).map fun j =>
          let col := rb.getD j []
          let e := i * N + j
          let old := if op = 0 then 0 else (W.getAcc (base + e)).toNat
          if mode = 3 then
            let (v, c) := ternAcc kd (fun k => elemAt 2 row k) (fun k => (BitVec.ofNat 8 (elemAt 8 col k)).toInt)
              (BitVec.ofNat 32 old).toInt
            EngWrite.acc wg (base + e) (BitVec.ofInt 32 v) :: if c then [.sat wg (line + e / 16) true] else []
          else
            let b (k : Nat) := scaledElem (mapMf mb) (sb.getD j []) (elemAt (mfBits (mapMf mb)) col k) k
            [.acc wg (base + e) (BitVec.ofNat 32 (floatAcc blk kd as b old))]
      .ok (clear ++ elems.flatten.flatten)
  | .error e, _, _, _, _ | _, .error e, _, _, _ | _, _, .error e, _, _ | _, _, _, .error e, _ | _, _, _, _, .error e => .error e

/-- An accumulator element converted to a tile format (11 R245). -/
def accToTile (tf : Nat) (v : Word) : Nat :=
  match tf with
  | 0 => v.toNat
  | 1 => Num.conv .f32 .bf16 .rne false v.toNat
  | 2 => Num.conv .f32 .f16 .rne false v.toNat
  | 3 => Num.conv .f32 .e4m3 .rne false v.toNat
  | 4 => Num.conv .f32 .e5m2 .rne false v.toNat
  | _ => (BitVec.ofInt 8 (max (-128) (min 127 v.toInt))).toNat

/-- Fields of a region word (11 R244). -/
def regCols (r : DWord) : Nat := (fld r 22 10).toNat + 1
def regRows (r : DWord) : Nat := (fld r 12 10).toNat + 1
def regLine (r : DWord) : Nat := (fld r 0 12).toNat

/-- The effect of XACC `.tile` (11 R245). -/
def xaccTileEffect (G : Gang) (wg tile : Nat) (r : DWord) : List EngWrite :=
  let d := ((G.tile? tile).map (·.desc)).getD 0
  let W := G.wgs.getD wg default
  let eb := tfBits (tileTf d) / 8
  ((List.range (regRows r * regCols r)).map fun e =>
    cmemWrites 0 (tileBase d + e * eb) (leBytes eb (accToTile (tileTf d) (W.getAcc (16 * regLine r + e))))).flatten

/-- The effect of TGATH's tile writes (14 R277): the converted rows that the lookups left in `cells`, then zero rows. -/
def tgathEffect (G : Gang) (tile row lanes : Nat) (bytes : List Nat) : List EngWrite :=
  let d := ((G.tile? tile).map (·.desc)).getD 0
  let bs := bytes.map fun b => BitVec.ofNat 8 b
  let full := bs ++ List.replicate (lanes * tileRowBytes d - bs.length) 0
  cmemWrites 0 (tileBase d + row * tileRowBytes d) full

/-- The effect of an engine operation as it stands, or the fault that its engine finds (10 R212). -/
def State.opEffect (s : State) (o : Work) : Except RowFault (List EngWrite) :=
  let G := s.gang o.ctx
  let wg := (G.warp o.warp).wg
  match o.instr with
  | .cpl _ _ _ _ op _ x => (o.args.mapM fun a => s.cplLane G.asid G op.toNat x.toNat a).map List.flatten
  | .cpb m _ _ f x => s.cpbEffect G.asid G m.toNat f.toNat x.toNat (o.tiles.getD 0 0) (o.uni.getD 1 0) (o.mark == 0)
  | .xmma m _ _ op _ x => s.xmmaEffect G.asid G wg m.toNat op.toNat (x.toNat % 4096) o.uni
  | .xaccTile .. => .ok (xaccTileEffect G wg (o.tiles.getD 0 0) (o.uni.getD 1 0))
  | .xaccZero _ =>
    let r := o.uni.getD 0 0
    .ok (((List.range (regRows r * regCols r)).map fun e => .acc wg (16 * regLine r + e) 0) ++
      (regionLines (regLine r) (regRows r * regCols r)).map fun l => .sat wg l false)
  | .xaccWr .. =>
    .ok (o.args.map fun a => .acc wg (16 * regLine (o.uni.getD 0 0) + a.b.toNat % 2 ^ 32) (a.d.setWidth 32))
  | .tgath _ _ _ _ _ _ _ x => .ok (tgathEffect G (o.tiles.getD 0 0) x.toNat o.args.length o.cells)
  | _ => .ok []

/-- All the writes of an operation, in order. -/
def State.engWrites (s : State) (g : Nat) (ws : List EngWrite) : State := ws.foldl (fun s e => s.engWrite g e) s

/-- Bytes of a row that an engine operation reads or writes. -/
structure Span where
  tab : Table
  row : Nat
  off : Nat
  len : Nat
  view : Nat
  write : Bool
  deriving DecidableEq, Repr, Inhabited

/-- The spans of consecutive rows from a reference on; none where the reference names no row. -/
def State.spansOf (s : State) (asid : Nat) (rr : DWord) (rows off len view : Nat) (write : Bool) : List Span :=
  match s.refCheck asid rr with
  | .error _ => []
  | .ok t =>
    if len = 0 then []
    else (List.range rows).map fun r => { tab := t, row := refRow rr + r, off := off, len := len, view := view, write := write }

/-- The spans of rows that an engine operation reads and writes (10 R215, R219; 11 R236, R237). -/
def State.opSpans (s : State) (o : Work) : List Span :=
  let asid := (s.gang o.ctx).asid
  match o.instr with
  | .cpl _ _ _ _ op _ x => o.args.flatMap fun a =>
    let out := op.toNat % 2 == 1
    s.spansOf asid (a.a.setWidth 64) 1 (a.c.toNat % 2 ^ 32 + x.toNat) (if out then 32 else a.b.toNat % 2 ^ 32) 0 out
  | .cpb m _ _ f x =>
    let d := (((s.gang o.ctx).tile? (o.tiles.getD 0 0)).map (·.desc)).getD 0
    s.spansOf asid (o.uni.getD 1 0) (tileRows d) x.toNat (cpbRow f.toNat d) (m.toNat / 2) (m.toNat % 2 == 1)
  | .xmma .. =>
    let m (k : Nat) : DWord := o.uni.getD k 0
    let kd := if m 2 = 0 then mapCols (m 0) else 2 * mapCols (m 0)
    ((List.range 3).flatMap fun k =>
      if mapCls (m k) = 1 then s.spansOf asid (m (3 + k)) (mapRows (m k)) 0 (mapCols (m k) * mfBits (mapMf (m k)) / 8) 0 false
      else []) ++
    (List.range 2).flatMap fun k =>
      if mapSs (m k) = 2 then s.spansOf asid (m (6 + k)) (mapRows (m k)) 0 ((kd + 31) / 32) 0 false else []
  | _ => []

/-- The cells of spans, of those that can be translated. -/
def State.spanCells (s : State) (xs : List Span) : List Nat :=
  xs.flatMap fun x => match s.cellsAt x.tab.asid x.tab.desc.aper (x.tab.va x.row x.off) x.len (if x.write then .write else .read) with
    | .ok cs => cs
    | .error _ => []

/-- The cells of the firn that a lane copy reads or writes (10 R215, 24 R386). -/
def State.opFirn (s : State) (o : Work) : List Nat :=
  match o.instr with
  | .cpl _ _ _ _ op _ _ =>
    let P := (s.gang o.ctx).place
    if op.toNat ≤ 1 then [] else o.args.flatMap fun a => (List.range 32).map fun j => firnCell P.die P.col (a.d.toNat % 2 ^ 32 + j)
  | _ => []

/-- The bytes that a bulk copy of rows of a sealed table reads or writes beside them: the CRC blocks, and their sidecar entries, as rows of
a table of their own (10 R220). -/
def State.crcSpans (s : State) (asid : Nat) (rr : DWord) (rows ro rb view : Nat) (write : Bool) : List Span :=
  match s.refCheck asid rr with
  | .error _ => []
  | .ok t =>
    if !t.sealed || t.desc.width = 0 then []
    else
      let side : Table := { t with desc := { t.desc with rowbase := t.desc.crcbase, aper := 0 } }
      (crcBlocks t (refRow rr) rows ro rb).flatMap fun k =>
        [{ tab := t, row := 0, off := 4096 * k, len := min 4096 (t.desc.width * t.desc.cap - 4096 * k), view := view, write := false },
          { tab := side, row := 0, off := 8 * k, len := 8, view := 0, write := write }]

/-- The CRC blocks and sidecar entries of an operation. -/
def State.opCrc (s : State) (o : Work) : List Span :=
  match o.instr with
  | .cpb m _ _ f x =>
    let d := (((s.gang o.ctx).tile? (o.tiles.getD 0 0)).map (·.desc)).getD 0
    s.crcSpans (s.gang o.ctx).asid (o.uni.getD 1 0) (tileRows d) x.toNat (cpbRow f.toNat d) (m.toNat / 2) (m.toNat % 2 == 1)
  | _ => []

/-- The bytes of rows that writes of an engine, of those of an operation, touch. -/
def State.writeSpans (s : State) (o : Work) (ws : List EngWrite) : List Span :=
  ((s.opSpans o).filter (·.write)).flatMap fun x =>
    let cells := s.spanCells [x]
    ws.filterMap fun w => match w with
      | .row _ cs _ => (cells.idxOf? (cs.headD (0, 0)).1).map fun i => { x with off := x.off + i, len := cs.length }
      | _ => none

/-- The addresses at which spans begin and end. -/
def spanEnds (xs : List Span) : List (Nat × Nat) :=
  xs.flatMap fun x => [(x.tab.asid, x.tab.va x.row x.off), (x.tab.asid, x.tab.va x.row x.off + x.len - 1)]

/-- Whether accesses to spans wait: for a walk (20 R328), or for a bank, a swap, a sweep or a re-encryption (R344, R345; 24 R385, R386). -/
def State.spansHeld (s : State) (xs : List Span) : Bool :=
  ((spanEnds xs).any fun p => s.missHeld s.site p.1 p.2) || (s.spanCells xs).any s.heldBack || xs.any fun x =>
    s.pagesHeld x.tab.asid [x.tab.va x.row x.off / 4096, (x.tab.va x.row x.off + x.len - 1) / 4096] x.write

/-- What accesses of an agent of a die to spans leave in the caches and at the memory controllers, and the walks that they start (20 R328,
R331 to R341). -/
def State.noteSpans (s : State) (site : Site) (xs : List Span) : State :=
  let t := xs.foldl (fun u x => u.touchDie (site.die.getD 0) x.write (s.rowBlocks x.tab x.row x.off x.len x.view)) s
  xs.foldl (fun u x => u.noteWalks site x.tab.asid (x.tab.va x.row x.off) x.len) t

/-- Accesses to spans that wait: their walks start (20 R328), and they arrive at their banks, which thaw for them (24 R386). -/
def State.wakeSpans (s : State) (xs : List Span) : State :=
  ((spanEnds xs).foldl (fun t p => t.noteWalk s.site p.1 p.2) s).wakeAll (s.spanCells xs)

/-- Whether an engine operation waits for what its accesses wait for. -/
def State.opHeld (s : State) (o : Work) : Bool := s.spansHeld (s.opSpans o ++ s.opCrc o) || (s.opFirn o).any s.heldBack

/-- An engine operation's accesses arrive at their banks. -/
def State.wakeOp (s : State) (o : Work) : State := (s.wakeSpans (s.opSpans o ++ s.opCrc o)).wakeAll (s.opFirn o)

/-- What the accesses of an engine operation leave, with the writes `ws` of those that it makes. One that has begun, whose `mark` is 1, has
made its reads. -/
def State.noteOp (s : State) (o : Work) (ws : List EngWrite) : State :=
  let core := s.coreOf o.ctx o.warp
  let site := Site.ofDie (core / 288)
  let u := if o.mark = 1 then s else s.noteSpans site ((s.opSpans o ++ s.opCrc o).filter fun x => !x.write)
  (u.noteSpans site (s.writeSpans o ws)).wakeAll (s.opFirn o)

/-- The lines of the accumulator store that an operation reads or writes (11 R246). -/
def Work.accLines (o : Work) : List Nat :=
  match o.instr with
  | .xmma _ _ _ _ _ x => regionLines (x.toNat % 4096) (mapRows (o.uni.getD 0 0) * mapRows (o.uni.getD 1 0))
  | .xaccZero _ | .xaccRd .. | .xaccWr .. =>
    regionLines (regLine (o.uni.getD 0 0)) (regRows (o.uni.getD 0 0) * regCols (o.uni.getD 0 0))
  | .xaccTile .. => regionLines (regLine (o.uni.getD 1 0)) (regRows (o.uni.getD 1 0) * regCols (o.uni.getD 1 0))
  | _ => []

/-- Whether an instruction acts on the accumulator store (11 R246). -/
def onAcc (i : Instr) : Bool :=
  match i with
  | .xmma .. | .xaccZero _ | .xaccRd .. | .xaccWr .. | .xaccTile .. => true
  | _ => false

/-- The accumulator operations of a workgroup that have not taken effect, in the order they issued (11 R246). -/
def Gang.accOps (G : Gang) (wg : Nat) : List Work := G.ops.filter fun o => onAcc o.instr && (G.warp o.warp).wg == wg

/-- The accumulator operations that precede an operation in its workgroup's order. -/
def Gang.accBefore (G : Gang) (o : Work) : List Work := (G.accOps (G.warp o.warp).wg).takeWhile fun p => p.id != o.id

/-- Whether an engine is done with an operation: it has met a fault, or stands on the accumulator store behind one that has, with which
it will be discarded (11 R242). -/
def Gang.opOver (G : Gang) (o : Work) : Bool :=
  o.fault.isSome || (onAcc o.instr && (G.accBefore o).any fun p => p.fault.isSome)

/-- Whether a discarded operation may have begun to write: it has met no fault, and, on the accumulator store, none that precedes it
has, or touches a line of its (11 R242, R246). -/
def Gang.begun (G : Gang) (o : Work) : Bool :=
  o.fault.isNone && (!onAcc o.instr || (G.accBefore o).all fun p =>
    p.fault.isNone && !(p.accLines.any fun l => o.accLines.contains l))

/-- The aligned 32-bit word of memory or of a share that a write of an engine lies in, or its accumulator element (10 R212). -/
def EngWrite.word (w : EngWrite) : Nat :=
  match w with
  | .row _ cs _ => 5 * ((cs.headD (0, 0)).1 / 4)
  | .cmem o _ _ => 5 * (o / 4) + 1
  | .firn o _ _ => 5 * (o / 4) + 2
  | .acc g e _ => 5 * Nat.pair g e + 3
  | .sat g l _ => 5 * Nat.pair g l + 4

/-- What a discarded operation leaves: each aligned word of its destination with every write that the operation makes to it, or none (10
R212, 24 R377). One that has met a fault, or cannot have begun, makes none; a matrix operation that faulted with META has left its region
at +0 (11 R242). -/
def State.discardWrites (s : State) (g k : Nat) (o : Work) : State :=
  if !(s.gang g).begun o then s
  else match s.opEffect o with
    | .error _ => s
    | .ok ws => (ws.filter fun w => s.free 2 (Nat.pair k w.word)).foldl (fun s w => s.engWrite g w) s

end Sys2Proof.Machine
end

