-- ==== Sys2Proof/Machine/Regions.lean ====
section
/-! DEFINITION. Region control blocks, queue descriptors and launch records as the control plane reads them, and what
the resident gangs use (22 R349 to R355, R358). -/

namespace Sys2Proof.Machine

/-- The bytes of a row from byte `o` on with those that writes of the control plane which still wait will leave there. -/
def State.awaitedBytes (s : State) (asid : Nat) (r : DWord) (o : Nat) (bs : List Byte) : List Byte :=
  s.ctlWrites.foldl (fun bs w => match w with
    | .row a q off new =>
      if a = asid && refSlot q == refSlot r && refRow q == refRow r then
        bs.mapIdx fun k b => if decide (off ≤ o + k) && decide (o + k < off + new.length) then new.getD (o + k - off) b else b
      else bs
    | _ => bs) bs

/-- `n` bytes of a row of an address space from byte `o` on, as the control plane and the front-ends read them, or none
where a check of 13 R255 or the translation fails. The control plane sees the writes that it has made itself. -/
def State.rowRead (s : State) (asid : Nat) (r : DWord) (o n : Nat) : Option (List Byte) :=
  match s.refCheck asid r with
  | .error _ => none
  | .ok t =>
    if t.desc.width < o + n then none
    else match s.rowCells t (refRow r) o n .read with
      | .error _ => none
      | .ok cs =>
        if (s.lineFault t.asid (t.va (refRow r) o) (refRow r) cs .read).isSome then none
        else some (s.awaitedBytes asid r o (s.loadBytes t (refRow r) o 0 cs))

/-- What an access of the control plane or of a front-end to bytes of a row leaves: its own accesses to memory, at the home of the
row's line, those of its walk where no cached translation serves it, and the lines whose checks fail, which are retired (20 R328, R338,
R346; DEDUCED, log 86). -/
def State.noteRow (s : State) (x : Span) : State :=
  let va := x.tab.va x.row x.off
  let acc : Acc := if x.write then .write else .read
  let walked := !(s.tlb.any fun t => t.cache.serves s.site && t.covers x.tab.asid va)
  let s1 := if walked then (s.walkReads x.tab.asid va).foldl (fun t pa => t.touchDie (homeDie pa) false [s.entryBlock pa]) s else s
  match s.rowCells x.tab x.row x.off x.len acc with
  | .error f => s1.retire f.retires
  | .ok cs =>
    let s2 := s1.touchDie (homeDie (cs.headD 0)) x.write (s.rowBlocks x.tab x.row x.off x.len x.view)
    match s.lineFault x.tab.asid va x.row cs acc with
    | some f => s2.retire f.retires
    | none => s2

/-- What accesses of the control plane to rows leave. -/
def State.noteRows (s : State) (xs : List Span) : State := xs.foldl State.noteRow s

/-- Bytes written to a row by the control plane. A row that cannot be written keeps what it holds. -/
def State.rowPut (s : State) (asid : Nat) (r : DWord) (o : Nat) (bs : List Byte) : State :=
  match s.refCheck asid r with
  | .error _ => s
  | .ok t =>
    if t.desc.width < o + bs.length then s
    else match s.rowCells t (refRow r) o bs.length .write with
      | .error _ => s
      | .ok cs =>
        (s.noteRow { tab := t, row := refRow r, off := o, len := bs.length, view := 0, write := true }).storeBytes
          t (refRow r) o 0 cs bs

/-- A write of the control plane to a row: it is made at once, unless what it touches makes writes wait, or an earlier one waits (20 R344,
R345; 24 R385, R386; DEDUCED, log 86). -/
def State.rowWrite (s : State) (asid : Nat) (r : DWord) (o : Nat) (bs : List Byte) : State :=
  let xs := s.spansOf asid r 1 o bs.length 0 true
  if !s.ctlWrites.isEmpty || s.spansHeld xs then
    { s.wakeSpans xs with ctlWrites := s.ctlWrites ++ [.row asid r o bs] }
  else s.rowPut asid r o bs

/-- The stores hidden at the 64-bit word at byte 0 of a row become visible: an AMO acts on the youngest write (16 R282). -/
def State.publishRow (s : State) (asid : Nat) (r : DWord) : State :=
  match s.refCheck asid r with
  | .error _ => s
  | .ok t => s.publishCells (pathOf t.desc.aper 0) (s.spanCells (s.spansOf asid r 1 0 8 0 true))

/-- The 64-bit word at byte 0 of a row gains 1, as by an AMO `.add` (22 R357, 24 R382). -/
def State.putOne (s : State) (asid : Nat) (r : DWord) : State :=
  let t := s.publishRow asid r
  match { t with ctlWrites := [] }.rowRead asid r 0 8 with
  | none => t
  | some bs => t.rowPut asid r 0 (leBytes 8 (leNat bs + 1))

/-- The AMO on a DONE word: at once, unless the word makes accesses wait, or an earlier write of the control plane does. -/
def State.addOne (s : State) (asid : Nat) (r : DWord) : State :=
  let xs := s.spansOf asid r 1 0 8 0 true
  if !s.ctlWrites.isEmpty || s.spansHeld xs then { s.wakeSpans xs with ctlWrites := s.ctlWrites ++ [.inc asid r] }
  else s.putOne asid r

/-- Bytes o to o + n - 1 of a row's bytes as a number. -/
def lef (bs : List Byte) (o n : Nat) : Nat := leNat ((bs.drop o).take n)

/-- A region control block (22 R349). -/
structure Rcb where
  parent : DWord
  cores : Nat
  firnk : Nat
  cmemk : Nat
  xshare : Nat
  qdepth : Nat
  prio : Nat
  rflags : Nat
  diemask : Nat
  regid : Word
  asid : Nat
  zeros : Bool
  deriving DecidableEq, Repr, Inhabited

/-- An RCB from the 64 bytes of its row. -/
def Rcb.ofBytes (bs : List Byte) : Rcb :=
  { parent := BitVec.ofNat 64 (lef bs 0 8), cores := lef bs 8 4, firnk := lef bs 12 4, cmemk := lef bs 16 4,
    xshare := lef bs 20 2, qdepth := lef bs 22 2, prio := lef bs 24 1, rflags := lef bs 25 1, diemask := lef bs 26 1,
    regid := BitVec.ofNat 32 (lef bs 28 4), asid := lef bs 32 4,
    zeros := lef bs 27 1 == 0 && lef bs 36 4 == 0 && lef bs 56 8 == 0 }

/-- The RCB that a reference names in ASID 0. -/
def State.rcb? (s : State) (r : DWord) : Option Rcb := (s.rowRead 0 r 0 64).map Rcb.ofBytes

/-- The path from a region up to the root, at most `fuel` levels (22 R349, R350). -/
def State.pathFrom (s : State) : Nat → DWord → Option (List (DWord × Rcb))
  | 0, _ => none
  | k + 1, r =>
    match s.rcb? r with
    | none => none
    | some b => if b.parent = 0 then some [(r, b)] else (s.pathFrom k b.parent).map fun p => (r, b) :: p

/-- A region's path to the root; none where it lies deeper than level 8 or an RCB of it cannot be read. -/
def State.regionPath (s : State) (r : DWord) : Option (List (DWord × Rcb)) := s.pathFrom 8 r

/-- The first own value on a path that does not mean "inherit", else the root's value (22 R350). -/
def inherit (p : List (DWord × Rcb)) (own : Rcb → Option Nat) (root : Nat) : Nat :=
  ((p.filterMap fun x => own x.2).head?).getD root

/-- The effective values of a region (22 R350). A budget of none is no limit. -/
def effPrio (p : List (DWord × Rcb)) : Nat := inherit p (fun b => if b.prio = 0xFF then none else some b.prio) 0
def effFd (p : List (DWord × Rcb)) : Nat := inherit p (fun b => if b.rflags % 4 = 0 then none else some (b.rflags % 4)) 1
def effDies (p : List (DWord × Rcb)) : Nat := inherit p (fun b => if b.diemask = 0 then none else some b.diemask) 15
def effAsid (p : List (DWord × Rcb)) : Nat := inherit p (fun b => if b.asid = 0xFFFFFFFF then none else some b.asid) 0
def effStop (p : List (DWord × Rcb)) : Bool := p.any fun x => x.2.rflags / 4 % 2 == 1
def effQdepth (p : List (DWord × Rcb)) : Option Nat :=
  (p.filterMap fun x => if x.2.qdepth = 0xFFFF then none else some x.2.qdepth).head?

/-- Whether a region is valid (22 R350): no reserved value among its effective fields, of which its must-be-zero fields are its own
alone. -/
def pathValid (p : List (DWord × Rcb)) : Bool :=
  effPrio p < 8 && effFd p < 3 && effDies p < 16 && effAsid p < 4096 &&
    ((p.head?.map fun x => x.2.zeros && decide (x.2.rflags < 8)).getD false)

/-- Whether two references name one row. -/
def sameRow (a b : DWord) : Bool := refSlot a == refSlot b && refRow a == refRow b

/-- Whether a region lies in the subtree of another. -/
def State.inSubtree (s : State) (r top : DWord) : Bool :=
  match s.regionPath r with
  | none => sameRow r top
  | some p => p.any fun x => sameRow x.1 top

/-- The resident gangs of a subtree. -/
def State.subtree (s : State) (top : DWord) : List Nat := s.residents.filter fun g => s.inSubtree (s.gang g).region top

/-- The cores that a gang holds. -/
def Gang.cores (G : Gang) : List Nat := (List.range G.wgs.length).map fun w => G.place.id + w

/-- What a subtree uses (22 R350). -/
def State.useCores (s : State) (top : DWord) : List Nat := (((s.subtree top).map fun g => (s.gang g).cores).flatten).eraseDups
def State.useFirn (s : State) (top : DWord) : Nat := (s.subtree top).foldl (fun a g => a + (s.gang g).launch.firn) 0
def State.useCmem (s : State) (top : DWord) : Nat := (s.subtree top).foldl (fun a g => a + (s.gang g).launch.cmem) 0
def Gang.blocks (G : Gang) : Nat := G.warps.foldl (fun a W => a + if W.retired then 0 else W.x) 0
def State.useX (s : State) (top : DWord) : Nat := (s.subtree top).foldl (fun a g => a + (s.gang g).blocks) 0

/-- A queue of the queue table. -/
def State.queue? (s : State) (q : Nat) : Option Queue := s.queues.find? fun e => e.num == q

/-- The state with an entry of the queue table changed. -/
def State.mapQueue (s : State) (q : Nat) (f : Queue → Queue) : State :=
  { s with queues := s.queues.map fun e => if e.num = q then f e else e }

/-- A queue descriptor (22 R353). -/
structure QDesc where
  rcb : DWord
  ring : DWord
  size : Nat
  head : Nat
  tail : Nat
  qstat : Nat
  deriving DecidableEq, Repr, Inhabited

/-- The descriptor of a queue, read from its row in ASID 0. -/
def State.qdesc? (s : State) (d : DWord) : Option QDesc :=
  (s.rowRead 0 d 0 64).map fun bs =>
    { rcb := BitVec.ofNat 64 (lef bs 0 8), ring := BitVec.ofNat 64 (lef bs 8 8), size := lef bs 16 4, head := lef bs 24 8,
      tail := lef bs 32 8, qstat := lef bs 40 4 }

/-- The reference of a row of the ring: row 0's slot and generation with another row number. -/
def QDesc.ringRef (d : QDesc) (i : Nat) : DWord :=
  BitVec.ofNat 64 (d.ring.toNat / 2 ^ 32 * 2 ^ 32 + (if d.size = 0 then 0 else i % d.size))

/-- The rows that the control plane reads of a region: the RCBs of its path, as far as they can be read (22 R349). -/
def State.pathRows (s : State) : Nat → DWord → List Span
  | 0, _ => []
  | k + 1, r => s.spansOf 0 r 1 0 64 0 false ++ match s.rcb? r with
    | none => []
    | some b => if b.parent = 0 then [] else s.pathRows k b.parent

/-- The rows that the control plane or a front-end reads of a queue: its descriptor, the record at its head, and its region's RCBs (22
R353, R354). -/
def State.queueRows (s : State) (q : Nat) : List Span :=
  match s.queue? q with
  | none => []
  | some e => s.spansOf 0 e.desc 1 0 64 0 false ++ match s.qdesc? e.desc with
    | none => []
    | some d =>
      (if d.tail = d.head then [] else s.spansOf 0 (d.ringRef d.head) 1 0 64 0 false) ++ s.pathRows 8 d.rcb

/-- The rows that the scheduler reads: the RCBs of its regions and the descriptors of its queues. -/
def State.schedulerRows (s : State) : List Span :=
  ((s.gangs.map (·.region)).eraseDups.flatMap (s.pathRows 8) ++ s.queues.flatMap fun e => s.spansOf 0 e.desc 1 0 64 0 false).eraseDups

/-- Whether the control plane waits: a write of its own waits, or what a row that it reads stands in makes accesses wait (20 R344, R345; 24
R385, R386; DEDUCED, log 86). -/
def State.ctlHeld (s : State) (xs : List Span) : Bool := !s.ctlWrites.isEmpty || s.spansHeld xs

/-- Records that the queues of a region hold (22 R349 USEQ). -/
def State.useQ (s : State) (top : DWord) : Nat :=
  s.queues.foldl (fun a e =>
    match s.qdesc? e.desc with
    | some d => if sameRow d.rcb top then a + (d.tail - d.head) else a
    | none => a) 0

/-- The USE fields of every RCB on a path are written (22 R351). -/
def State.putUse (s : State) (region : DWord) : State :=
  match s.regionPath region with
  | none => s
  | some p => p.foldl (fun t x =>
      let r := x.1
      t.rowPut 0 r 40 (leBytes 4 (s.useCores r).length ++ leBytes 4 ((s.useFirn r + 1023) / 1024) ++
        leBytes 4 ((s.useCmem r + 1023) / 1024) ++ leBytes 2 (s.useX r) ++ leBytes 2 (s.useQ r))) s

/-- The rows that LNCH to a queue's region, or a write of USE, reads: the RCBs of the path, and the queues' descriptors. -/
def State.useRows (s : State) (region : DWord) : List Span :=
  (s.pathRows 8 region ++ s.queues.flatMap fun e => s.spansOf 0 e.desc 1 0 64 0 false).eraseDups

/-- What a write of USE reads and writes. -/
def State.useSpans (s : State) (region : DWord) : List Span :=
  s.useRows region ++ (s.pathRows 8 region).map fun x => { x with off := 40, len := 16, write := true }

/-- The control plane writes the USE fields of a path: at once, unless a row that this reads or writes makes accesses wait, or an earlier
write of the control plane does (20 R344, R345; DEDUCED, log 86). -/
def State.writeUse (s : State) (region : DWord) : State :=
  let xs := s.useSpans region
  if !s.ctlWrites.isEmpty || s.spansHeld xs then { s.wakeSpans xs with ctlWrites := s.ctlWrites ++ [.use region] }
  else s.putUse region

/-- The oldest access of the control plane that waits is made, once it need wait no more. -/
def State.controlStep (s : State) : State :=
  match s.ctlWrites with
  | [] => s
  | w :: rest =>
    let xs := match w with
      | .row asid r o bs => s.spansOf asid r 1 o bs.length 0 true
      | .use region => s.useSpans region
      | .inc asid r => s.spansOf asid r 1 0 8 0 true
    if s.spansHeld xs then s.wakeSpans xs
    else
      let t := { s with ctlWrites := rest }
      match w with
      | .row asid r o bs => t.rowPut asid r o bs
      | .use region => t.putUse region
      | .inc asid r => t.putOne asid r

/-- A queue enters error with a code in its descriptor's QSTAT (22 R355, 24 R378). -/
def State.queueError (s : State) (q code : Nat) : State :=
  match s.queue? q with
  | none => s
  | some e =>
    match s.qdesc? e.desc with
    | none => s
    | some d => s.rowWrite 0 e.desc 40 (leBytes 4 (d.qstat % 2 + 2 + 256 * code))

/-- Whether a queue's front-end places gangs: it is enabled, and its descriptor shows no error (22 R355, 24 R378). -/
def State.queuePlaces (s : State) (q : Nat) : Bool :=
  match s.queue? q with
  | none => false
  | some e => e.enabled && ((s.qdesc? e.desc).map fun d => d.qstat / 2 % 2 == 0).getD false

/-- A launch record from its 64 bytes (22 R354). -/
def launchOf (bs : List Byte) : LaunchRec :=
  { entry := BitVec.ofNat 32 (lef bs 0 4), gangs := lef bs 4 4, wgs := lef bs 8 1, warps := lef bs 9 1, cond := lef bs 10 1,
    lflags := lef bs 11 1, stack := lef bs 12 4, cmem := lef bs 16 4, firn := lef bs 20 4,
    const := BitVec.ofNat 64 (lef bs 24 8), sem := BitVec.ofNat 64 (lef bs 32 8), sval := BitVec.ofNat 64 (lef bs 40 8),
    stream := BitVec.ofNat 32 (lef bs 48 4), done := BitVec.ofNat 64 (lef bs 56 8) }

/-- The dependence test (22 R354). -/
def launchTest (cond : Nat) (v w : DWord) : Bool :=
  match cond with
  | 1 => v == w
  | 2 => v != w
  | 3 => decide (w.toInt ≤ v.toInt)
  | 4 => decide (v.toInt < w.toInt)
  | 5 => decide (w.toNat ≤ v.toNat)
  | 6 => decide (v.toNat < w.toNat)
  | _ => true

/-- The physical column that serves a logical one (24 R370, R385). -/
def State.colOf (s : State) (die col : Nat) : ColSt :=
  (s.cols.find? fun c => c.die == die && c.logical == col && c.st != 2 && c.st != 3).getD
    { die := die, phys := col, logical := col, st := 2, corrected := 0, uncorrected := 0 }

/-- The heat code of a logical column (00 R7, 24 R387). -/
def State.heatOf (s : State) (die col : Nat) : Nat := (s.heat.lookup (die * 18 + col)).getD 0

/-- The logical columns of the device. -/
def columns : List (Nat × Nat) := (List.range 72).map fun n => (n / 18, n % 18)

end Sys2Proof.Machine
end

