-- ==== Sys2Proof/Machine/Fetch.lean ====
section
/-! DEFINITION. Code: quads as a core fetches them, the decoding of a slot, and the checks of a transfer's target
(01 R14 to R18, R26, R34; 08 R167, R184, R185). A code address is a virtual address of the gang's ASID, read row-major
(DEDUCED, log 15). -/

namespace Sys2Proof.Machine

/-- The address of the quad of a pc. -/
def quadOf (pc : Word) : Nat := pc.toNat / 16 * 16

/-- The slot number of a pc. -/
def slotOf (pc : Word) : Nat := pc.toNat % 16 / 4

/-- Four words from sixteen bytes. -/
def quadWords (bs : List Byte) : List Word := (List.range 4).map fun k => BitVec.ofNat 32 (leNat ((bs.drop (4 * k)).take 4))

/-- The fault of a fetch: TRAPAUX holds the level and FADDR the code address (20 R327); and the lines that it retires (R346). -/
structure FetchFault where
  cls : BitVec 8
  code : BitVec 8
  aux : Word
  retires : List Nat := []
  deriving DecidableEq, Repr, Inhabited

/-- The cells of a quad, which lies in one page, as a core, or another agent, translates its address (20 R327). -/
def State.quadCells (s : State) (site : Site) (asid q : Nat) : Except XFault (List Nat) :=
  match s.translateAt site asid q with
  | .error f => .error f
  | .ok t => if !t.x then .error ⟨4, t.level, []⟩ else .ok ((List.range 16).map fun i => cellOf 0 (t.pa (q + i)))

/-- A quad as memory holds it. -/
def State.readQuad (s : State) (site : Site) (asid q : Nat) : Except FetchFault (List Word) :=
  match s.quadCells site asid q with
  | .error f => let x := xlatFault f 0 0; .error { cls := x.cls, code := x.code, aux := x.aux, retires := x.retires }
  | .ok cs =>
    if cs.any s.containedCell then .error { cls := 0x10, code := 1, aux := 0 }
    else match s.lineFault asid q 0 cs .fetch with
      | some x => .error { cls := x.cls, code := x.code, aux := 0, retires := x.retires }
      | none => .ok (quadWords (cs.map (s.readCell 0)))

/-- The loop buffer of a core. -/
def State.loopOf (s : State) (core : Nat) : LoopBuf :=
  (s.loops.find? fun b => b.core == core).getD { core := core, quads := [], stale := false }

/-- The state with a core's loop buffer replaced. -/
def State.setLoop (s : State) (b : LoopBuf) : State := { s with loops := b :: s.loops.filter fun e => e.core != b.core }

/-- A quad as a core fetches it: from its loop buffer, from its instruction cache, or from memory (DEDUCED, log 15). -/
def State.fetchQuad (s : State) (core asid q : Nat) : Except FetchFault (List Word) :=
  match (s.loopOf core).quads.find? fun l => l.asid == asid && l.quad == q with
  | some l => .ok l.words
  | none =>
    match s.icache.find? fun l => l.core == core && l.asid == asid && l.quad == q with
    | some l => .ok l.words
    | none => s.readQuad (Site.ofCore core) asid q

/-- Whether a core has a quad in its loop buffer or its instruction cache. -/
def State.hasQuad (s : State) (core asid q : Nat) : Bool :=
  ((s.loopOf core).quads.any fun l => l.asid == asid && l.quad == q) ||
    s.icache.any fun l => l.core == core && l.asid == asid && l.quad == q

/-- Whether the fetch of a quad waits: for the walk of its page (20 R328), or for a bank, a swap, a sweep or a re-encryption (R344, R345; 24
R385, R386). -/
def State.fetchHeld (s : State) (core asid q : Nat) : Bool :=
  !s.hasQuad core asid q && (s.missHeld (Site.ofCore core) asid q ||
    (match s.quadCells (Site.ofCore core) asid q with
      | .ok cs => cs.any s.heldBack
      | .error _ => false) || s.pagesHeld asid [q / 4096] false)

/-- A fetch that its core wants and that waits: its walk starts, and its access arrives at its bank, which thaws for it (20 R328; 24
R386). -/
def State.wantQuad (s : State) (core asid q : Nat) : State :=
  if s.hasQuad core asid q then s
  else
    let t := s.noteWalk (Site.ofCore core) asid q
    match s.quadCells (Site.ofCore core) asid q with
    | .ok cs => if cs.any s.heldBack then t.wakeAll cs else t
    | .error _ => t

/-- The instruction cache of a core with one more quad: where it already holds the 4,096 quads of its 64 KiB, a free one of them
makes room (00 R3; DESIGN CHOICE, log 41). -/
def State.cacheCode (s : State) (line : CodeLine) : State :=
  let mine := s.icache.filter fun l => l.core == line.core
  let full := Config.icacheQuads ≤ mine.length
  let out := mine.getD (s.freeNat 4 line.quad % mine.length) default
  { s with icache := (if full then s.icache.filter fun l => l != out else s.icache) ++ [line] }

/-- What a fetch leaves in the core's caches: the instruction cache keeps a quad that it has fetched, and none that the loop
buffer served (08 R184), and the fetch leaves what an access to memory leaves (20 R328, R331 to R341, R346); whether the loop buffer takes a quad, from a loop head on, is free (DESIGN CHOICE, log 41). -/
def State.noteFetch (s : State) (core asid q : Nat) : State :=
  match s.fetchQuad core asid q with
  | .error f => (s.noteWalk (Site.ofCore core) asid q).retire f.retires
  | .ok ws =>
    let line : CodeLine := { core := core, asid := asid, quad := q, words := ws }
    let b := s.loopOf core
    if b.quads.any fun l => l.asid == asid && l.quad == q then s
    else
      let has := s.icache.any fun l => l.core == core && l.asid == asid && l.quad == q
      let s := if has then s
        else ((s.touchDie (core / 288) false (s.blocksAt asid 0 0 q 16)).noteWalk (Site.ofCore core) asid q).cacheCode line
      let head := fld (ws.getD 0 0) 30 2 = 1
      if !b.stale && b.quads.length < 512 && (head || !b.quads.isEmpty) && s.free 1 q then
        s.setLoop { b with quads := b.quads ++ [line] }
      else s

/-- A stale loop buffer is dropped at a backward transfer to a quad it holds (08 R185). -/
def State.backTransfer (s : State) (core asid : Nat) (src dst : Word) : State :=
  let b := s.loopOf core
  if b.stale && dst.toNat ≤ src.toNat && b.quads.any fun l => l.asid == asid && l.quad == quadOf dst then
    s.setLoop { core := core, quads := [], stale := false }
  else s

/-- Backward transfers of some fibres of a core, as their old and new pcs. -/
def State.backTransfers (s : State) (core asid : Nat) (ps : List (Word × Word)) : State :=
  ps.foldl (fun t p => t.backTransfer core asid p.1 p.2) s

/-- Barriers that have completed order their participants' stores, as releases at the scope of their kind (08 R178): the machine was `s` before.
A lane of a stuck warp has stood up, and is not released (R177). -/
def State.releaseBars (t s : State) (g : Nat) : State :=
  let ws := List.range (s.gang g).warps.length
  let done := (ws.flatMap fun w => laneIds.filterMap fun l =>
    match ((s.warp g w).lane l).barrier with
    | some b => if ((t.warp g w).lane l).slot == .live && (t.warp g w).cause == (s.warp g w).cause then some (w, b.1) else none
    | none => none).eraseDups
  done.foldl (fun u b => ((s.gang g).members b.1 b.2).foldl (fun v w => v.release g w (b.2 + 1)) u) t

/-- The tests of 08 R173 to R177 for the gang of the issue under way (DEDUCED, log 27). A release of REJOIN to a lower target is
a backward transfer (08 R185); a fibre of a stuck warp that stands up at the pc at which it was parked takes no transfer. -/
def State.settle (s : State) (g : Nat) : State :=
  let t := (s.mapGang g fun G => G.settle (s.now g)).releaseBars s g
  (List.range (s.gang g).warps.length).foldl (fun u v =>
    u.backTransfers (s.coreOf g v) (s.gang g).asid (laneIds.filterMap fun l =>
      if ((s.warp g v).lane l).mask.isSome && ((t.warp g v).lane l).slot == .live && (t.warp g v).cause == (s.warp g v).cause then
        some (((s.warp g v).lane l).fib.pc, ((t.warp g v).lane l).fib.pc)
      else none)) t

/-- Whether slot k of a quad is the second word of a pair (01 R26). -/
def secondWord (ws : List Word) (k : Nat) : Bool :=
  let p (j : Nat) : Bool := pairedMaj (majOf (ws.getD j 0))
  (k == 2 && p 1) || (k == 3 && !p 1 && p 2)

/-- What slot k of a quad decodes to, or the first fault of 01 R34. -/
def decodeSlot (ws : List Word) (k : Nat) : Except InsnCode Instr :=
  let w := ws.getD k 0
  if 2 ≤ (fld (ws.getD 0 0) 30 2).toNat then .error .quad
  else if secondWord ws k || (k = 3 && pairedMaj (majOf w)) then .error .pair
  else decodeWord w (ws.getD (k + 1) 0)

/-- STALL, FSEL and GC of slot k in a header (01 R17). -/
def stallOf (h : Word) (k : Nat) : Nat := (fld h (36 - 10 * k) 4).toNat
def fselOf (h : Word) (k : Nat) : Nat := (fld h (34 - 10 * k) 2).toNat
def gcOf (h : Word) (k : Nat) : Nat := (fld h (30 - 10 * k) 4).toNat

/-- The fault code of a transfer to a target, if it has one (08 R167): a target that is no slot, or the second word of a
pair. A target whose quad cannot be fetched faults when it issues. -/
def State.targetCode (s : State) (core asid : Nat) (pc : Word) : Option (BitVec 8) :=
  if !namesSlot pc then some 4
  else match s.fetchQuad core asid (quadOf pc) with
    | .ok ws => if secondWord ws (slotOf pc) then some 2 else none
    | .error _ => none

end Sys2Proof.Machine
end

