-- ==== Sys2Proof/Machine/Stream.lean ====
section
/-! DEFINITION. The operations of stream programs: their fields, the scan of a program, and its table (10 R224, R226; 07 R147). -/

namespace Sys2Proof.Machine

/-- Fields of a stream operation (10 R224). -/
def sopOf (w : DWord) : Nat := (fld w 60 4).toNat
def sopK (w : DWord) : Nat := (fld w 58 2).toNat
def sopQ (w : DWord) : Nat := (fld w 55 3).toNat
def sopW (w : DWord) : Nat := (fld w 53 2).toNat
def sopF (w : DWord) : Nat := (fld w 49 4).toNat
def sopKt (w : DWord) : Nat := (fld w 52 3).toNat

/-- Bits hi down to lo. -/
def span (hi lo : Nat) : DWord := BitVec.ofNat 64 ((2 ^ (hi - lo + 1) - 1) * 2 ^ lo)

/-- The fields that an operation has (10 R224). -/
def sopFields (w : DWord) : DWord :=
  span 63 60 ||| match sopOf w with
  | 1 => span 59 58 ||| span 57 57 ||| if w.getLsbD 57 then span 37 32 else span 31 0
  | 2 => span 59 58
  | 3 => span 59 58 ||| span 57 52 ||| span 43 0
  | 4 => span 59 58 ||| span 57 56 ||| span 31 0
  | 5 | 6 => span 59 58 ||| span 57 55 ||| span 54 53 ||| span 52 49
  | 7 => span 59 58 ||| span 57 55 ||| span 54 52 ||| span 51 46
  | 8 => span 57 55 ||| span 31 0
  | _ => 0

/-- Whether an operation is offending where it stands (10 R226): `opn` are the open levels, the innermost first, and
`src` the streams that have had a `src`. -/
def sopBad (w : DWord) (opn src : List Nat) : Bool :=
  decide (8 < sopOf w) || w &&& ~~~(sopFields w) != 0 ||
    match sopOf w with
    | 1 => opn.contains (sopK w)
    | 2 => opn.head? != some (sopK w)
    | 5 | 6 => !(src.contains (sopK w)) || sopW w == 3 || (decide (sopF w ≤ 2) && sopF w != sopW w) || decide (11 ≤ sopF w)
    | 7 => !(src.contains (sopK w)) || decide (5 ≤ sopKt w)
    | _ => false

/-- The index of the first offending operation of a program (10 R226). `fin` says that an `end` has been met, in an open loop: an
`end` outside every loop ends the scan, and one anywhere in the first 256 operations bounds their number. -/
def streamScan : List DWord → Nat → List Nat → List Nat → Bool → Option Nat
  | [], _, _, _, _ => none
  | w :: r, n, opn, src, fin =>
    if 256 ≤ n then (if fin then none else some n)
    else if sopBad w opn src then some n
    else match sopOf w with
      | 0 => if opn.isEmpty then none else streamScan r (n + 1) opn src true
      | 1 => streamScan r (n + 1) (sopK w :: opn) src fin
      | 2 => streamScan r (n + 1) (opn.drop 1) src fin
      | 3 => streamScan r (n + 1) opn (sopK w :: src) fin
      | _ => streamScan r (n + 1) opn src fin

/-- The s-register that an operation names (10 R224). -/
def sopReg (w : DWord) : Option Nat :=
  match sopOf w with
  | 1 => if w.getLsbD 57 then some (fld w 32 6).toNat else none
  | 3 => some (fld w 52 6).toNat
  | 7 => some (fld w 46 6).toNat
  | _ => none

/-- A handle that names a stream program: a dense table of 8-byte rows (07 R147). -/
def State.streamTable (s : State) (asid : Nat) (h : Word) : Option Table :=
  (s.handle? asid h).filter fun t => t.desc.tkind == 0 && t.desc.width == 8

/-- The words of a stream program: the 8-byte rows of its table, at most one more than the 256 it may hold (10 R224). -/
def State.streamWords (s : State) (t : Table) : Except RowFault (List DWord) :=
  (List.range (min t.desc.cap 257)).mapM fun r =>
    (s.engCells t r 0 8 .read).map fun cs => BitVec.ofNat 64 (leNat (cs.map (s.readCell (pathOf t.desc.aper 0))))

/-- The rows of its table from which a program is read, as accesses of an engine. -/
def Table.program (t : Table) : List Span :=
  (List.range (min t.desc.cap 257)).map fun r => { tab := t, row := r, off := 0, len := 8, view := 0, write := false }

/-- The s-registers that the program of a table names: SPLD `.load` captures them (10 R225, R227). -/
def State.programRegs (s : State) (t : Table) : List Nat :=
  match s.streamWords t with
  | .error _ => []
  | .ok ws => (ws.take 256).filterMap sopReg

end Sys2Proof.Machine
end

