-- ==== Sys2Proof/Machine/Room.lean ====
section
/-! DEFINITION. What a gang needs of a place and what a place has free, the room that pre-emption holds, and the request queues for
register blocks (22 R358, R364; 09 R191, R192). -/

namespace Sys2Proof.Machine

/-- Cursor entries in use on a core (13 R267). -/
def State.cursorsOn (s : State) (core : Nat) : Nat :=
  s.residents.foldl (fun n g =>
    n + ((s.gang g).wgs.zipIdx.filter fun p => (s.gang g).place.id + p.2 == core).foldl (fun m p => m + p.1.cursors.length) 0) 0

/-- What a gang needs of a place (22 R358): per workgroup its warps, cursors and extended blocks; the stores, the producer
slot, the shares and tile entries. -/
structure Demand where
  wgs : List (Nat × Nat × Nat)
  mx : List Bool
  stream : Bool
  cmem : Nat
  firn : Nat
  tiles : Nat
  deriving DecidableEq, Repr, Inhabited

/-- The demand of a new gang, from its record. -/
def LaunchRec.demand (r : LaunchRec) : Demand :=
  { wgs := List.replicate r.wgs (r.warps, 0, 0), mx := List.replicate r.wgs (r.lflags / 4 % 2 == 1),
    stream := r.lflags % 2 == 1, cmem := r.cmem, firn := r.firn, tiles := 0 }

/-- The warps of a workgroup that have not retired. -/
def Gang.liveWarps (G : Gang) (w : Nat) : List Warp := G.warps.filter fun W => W.wg == w && !W.retired

/-- The demand of a gang: that of its record, and, of a saved one, the cursors, blocks and tiles that it holds (22 R358, R365). -/
def Gang.demand (G : Gang) : Demand :=
  if G.phase = .saved then
    { wgs := G.wgs.mapIdx fun w g => (G.launch.warps, g.cursors.length, (G.liveWarps w).foldl (fun a W => a + W.x) 0),
      mx := G.wgs.map (·.hold), stream := G.producer.isSome, cmem := G.launch.cmem, firn := G.launch.firn,
      tiles := G.tiles.length }
  else G.launch.demand

/-- Free warp slots of a core. -/
def State.freeSlots (s : State) (core : Nat) : Nat := Config.warpSlots - (s.onCore core).length

/-- Whether some resident workgroup holds a core's accumulator store (11 R231). -/
def State.storeHeld (s : State) (core : Nat) : Bool :=
  s.residents.any fun g => (s.gang g).wgs.zipIdx.any fun p => p.1.hold && (s.gang g).place.id + p.2 == core

/-- Whether some resident gang holds a core's producer slot (10 R223). -/
def State.producerHeld (s : State) (core : Nat) : Bool :=
  s.residents.any fun g => (s.gang g).producer.isSome && (s.gang g).place.id == core

/-- Bytes of cluster memory, and of a column's firn, that resident gangs hold. -/
def State.cmemUsed (s : State) (cluster : Nat) : Nat :=
  (s.residents.filter fun g => (s.gang g).place.id / 4 == cluster).foldl (fun n g => n + (s.gang g).launch.cmem) 0
def State.firnUsed (s : State) (column : Nat) : Nat :=
  (s.residents.filter fun g => (s.gang g).place.id / 16 == column).foldl (fun n g => n + (s.gang g).launch.firn) 0
def State.tilesIn (s : State) (cluster : Nat) : Nat :=
  (s.residents.filter fun g => (s.gang g).place.id / 4 == cluster).foldl (fun n g => n + (s.gang g).tiles.length) 0

/-- Whether a place has room for a demand (22 R358). -/
def State.room (s : State) (d : Demand) (p : Place) : Bool :=
  decide (p.core + d.wgs.length ≤ 4) &&
  (d.wgs.zipIdx.all fun x =>
    let core := p.id + x.2
    decide (x.1.1 ≤ s.freeSlots core) && decide (s.cursorsOn core + x.1.2.1 ≤ Config.cursorEntries) &&
      decide (x.1.2.2 ≤ s.poolFree core)) &&
  (d.mx.zipIdx.all fun x => !(x.1 && s.storeHeld (p.id + x.2))) &&
  !(d.stream && s.producerHeld p.id) &&
  decide (s.cmemUsed (p.id / 4) + d.cmem ≤ Config.clusterBytes) &&
  decide (s.firnUsed (p.id / 16) + d.firn ≤ Config.firnBytes) &&
  decide (s.tilesIn (p.id / 4) + d.tiles ≤ Config.tileEntries)

/-- The state without some gangs on the device. -/
def State.without (s : State) (gs : List Nat) : State :=
  gs.foldl (fun t g => t.mapGang g fun G => { G with phase := .saved }) s

/-- Whether the cluster of a hold has room for the gang that it is held for. -/
def State.heldRoom (s : State) (r : Nat × Nat) : Bool :=
  (List.range 4).any fun c => s.room (s.gang r.2).demand { Place.ofId (4 * r.1) with core := c }

/-- Whether what takes the machine from `s` to `t` leaves the room of a column that pre-emption holds for gangs other than `g`, whatever their
priority, until they commit (22 R364). A hold covers the firn of its cluster's column too. With the gangs that still drain gone, each gang
that would fit in the cluster held for it still fits (DEDUCED, log 56). -/
def State.keepsRoom (s t : State) (g col : Nat) : Bool :=
  let gone (u : State) := u.without (u.residents.filter fun h => (u.gang h).phase == .draining)
  let held := s.reserved.filter fun r => r.2 != g && r.1 / 4 == col &&
    ((s.gang r.2).phase == .waiting || (s.gang r.2).phase == .saved)
  held.isEmpty ||
    let before := gone s
    let after := gone t
    held.all fun r => !before.heldRoom r || after.heldRoom r

/-- A request is settled: f0 is written in its lanes, which become live (09 R191). -/
def State.settleXacq (s : State) (core : Nat) (r : Nat × Nat × Nat × Nat) (f0 : BitVec 4) : State :=
  let (id, g, w, _) := r
  let k := s.coreSt core
  let now := k.cycle
  let s1 := s.setCore { k with xacq := k.xacq.filter fun q => q.1 != id }
  let s2 := s1.mapGang g fun G => { G with accs := G.accs.filter fun o => o.id != id }
  s2.mapWarp g w fun W => W.mapAll fun _ L =>
    if L.slot = .parked (.xacq id) then
      (L.resume now).mapFib fun f => { f with flags := setFlag f.flags 0 f0 }
    else L

/-- Blocks that a warp's request may count on: the pool's, and no more than the least remaining XSHARE on the region's
path (22 R352). -/
def State.blocksFor (s : State) (core g : Nat) : Nat :=
  match s.regionPath (s.gang g).region with
  | none => s.poolFree core
  | some p => p.foldl (fun n x => if x.2.xshare = 0xFFFF then n else min n (x.2.xshare - s.useX x.1)) (s.poolFree core)

/-- Whether the RCBs that a grant to a gang reads make accesses wait. -/
def State.blocksHeld (s : State) (g : Nat) : Bool := s.spansHeld (s.pathRows 8 (s.gang g).region)

/-- The warp with `n` more extended blocks, which read 0 (02 R40, 09 R188). -/
def Warp.grow (W : Warp) (n : Nat) : Warp :=
  { W.mapAll (fun _ L => { L with regs := L.regs ++ List.replicate (32 * n) 0 }) with x := W.x + n }

/-- The oldest requests of a core are granted while the pool has room (09 R191). One whose warp holds so many blocks meanwhile that it
would hold more than 12 is refused as it would have been at issue (DEDUCED, log 80). Blocks that pre-emption holds for a gang stay free
for it (22 R364). A grant waits while the RCBs that it reads make accesses wait (20 R345). -/
def State.grantXacq (s : State) (core : Nat) : Nat → State
  | 0 => s
  | k + 1 =>
    match (s.coreSt core).xacq with
    | [] => s
    | r :: _ =>
      if 12 < (s.warp r.2.1 r.2.2.1).x + r.2.2.2 then (s.settleXacq core r (nzcv false false false true)).grantXacq core k
      else if s.blocksHeld r.2.1 then s.wakeSpans (s.pathRows 8 (s.gang r.2.1).region)
      else
        let s1 := s.mapWarp r.2.1 r.2.2.1 fun W => W.grow r.2.2.2
        if r.2.2.2 ≤ s.blocksFor core r.2.1 && s.keepsRoom s1 r.2.1 (core / 16) then
          ((s1.settleXacq core r (nzcv false true false false)).writeUse (s1.gang r.2.1).region).grantXacq core k
        else s

/-- Whether the deadlock rule applies on a core (09 R192). It does not while a request waits for memory alone. -/
def State.xacqStuck (s : State) (core : Nat) : Bool :=
  !(s.coreSt core).xacq.isEmpty && !((s.coreSt core).xacq.any fun r => s.blocksHeld r.2.1) && (s.onCore core).all fun p => laneIds.all fun l =>
    match ((s.warp p.1 p.2).lane l).slot with
    | .live | .parked (.waitc ..) | .parked (.mwait ..) | .parked (.sync _) => false
    | _ => true

/-- The request queue of a core examined: what can be granted is granted, and then the deadlock rule refuses the youngest request where
it applies (09 R191, R192). -/
def State.examine (s : State) (core : Nat) : State :=
  let s1 := s.grantXacq core (s.coreSt core).xacq.length
  if s1.xacqStuck core then
    match (s1.coreSt core).xacq.getLast? with
    | none => s1
    | some r => s1.settleXacq core r 0
  else s1

/-- The request queues of some cores examined: blocks of theirs have returned, or fibres on them have changed their state. -/
def State.examineAll (s : State) (cores : List Nat) : State := cores.foldl State.examine s

end Sys2Proof.Machine
end

