-- ==== Sys2Proof/Machine/Ops.lean ====
section
/-! DEFINITION. The shared operations: the in-flight discard, the halt of a gang, taking an exception and returning from
one (24 R370 to R378, 22 R352), starting outstanding work, the waits that entries name, and the issue of one slot. -/

namespace Sys2Proof.Machine

/-- Whether a gang is privileged (24 R370). -/
def Gang.privileged (G : Gang) : Bool := G.asid == 0

/-- The gang after its engine work is discarded: counters read 0, filling and draining tiles are empty, the producer
stops and its queues are emptied (24 R377). -/
def Gang.discard (G : Gang) : Gang :=
  { G with
    ops := [],
    tiles := G.tiles.map fun t => if t.st = .filling || t.st = .draining then { t with st := .empty } else t,
    producer := G.producer.map fun p => { p with running := false, fetching := none, pending := [] },
    queues := G.queues.map fun _ => [] }

/-- The in-flight discard rule (24 R377): each aligned word of a discarded operation's destination is left old or new;
the gathers' lookups still in an index engine go with them. -/
def State.discard (s : State) (g : Nat) : State :=
  let s := ((s.gang g).ops.zipIdx).foldl (fun t p => t.discardWrites g p.2 p.1) s
  let s := { s with idx := s.idx.filter fun o => !(o.ctx == g && match o.instr with | .tgath .. => true | _ => false) }
  s.mapGang g Gang.discard

/-- One gang halts (24 R378): it stops, its in-flight work is discarded, its resources are freed, its queue enters error
0x10, its record's DONE is not incremented and the record's unplaced gangs are not placed, so that HEAD stays at it. -/
def State.halt (s : State) (g : Nat) (cls code : BitVec 8) (pc : Word) : State :=
  let s := s.discard g
  let G := s.gang g
  let s := s.mapGang g fun G =>
    { G with phase := .halted, producer := none, tiles := [], accs := [], haltClass := cls, haltCode := code, haltPc := pc }
  let s := { s with
    gangs := s.gangs.map fun (H : Gang) =>
      if H.queue = G.queue && H.opened = G.opened && H.phase = Phase.waiting then { H with phase := .retired } else H,
    monitors := s.monitors.map fun (m : Monitor) => if m.ctx = g && m.st ≠ Mon.fired then { m with st := .lost } else m,
    cores := s.cores.map fun (c : CoreSt) => { c with xacq := c.xacq.filter fun r => r.2.1 != g },
    recs := s.recs.map fun (r : RecAcct) => if r.queue = G.queue && r.opened = G.opened then { r with halted := true } else r,
    queues := s.queues.map fun (e : Queue) =>
      if e.num = G.queue then { e with placing := e.placing.filter fun p => p.opened != G.opened } else e }
  (s.queueError G.queue 0x10).writeUse G.region

/-- The gangs that halt with a gang under the fault-domain rule (22 R352). -/
def State.domain (s : State) (g : Nat) : List Nat :=
  match s.regionPath (s.gang g).region with
  | none => []
  | some p =>
    if effFd p ≠ 2 then []
    else match p.find? fun x => x.2.rflags % 4 == 2 with
      | none => []
      | some top => (List.range s.gangs.length).filter fun h =>
          h != g && ((s.gang h).phase == .running || (s.gang h).phase == .draining || (s.gang h).phase == .saved ||
            (s.gang h).phase == .waiting) && s.inSubtree (s.gang h).region top.1

/-- A gang halts, and with it its fault domain when the cause is of a class other than SOFT and starts the rule. Their blocks return, and
the request queues of their cores are examined (09 R191, R192). -/
def State.haltGang (s : State) (g : Nat) (cls code : BitVec 8) (pc : Word) (starts : Bool) : State :=
  let others := if starts && cls ≠ 0x11 then s.domain g else []
  (others.foldl (fun t h => t.halt h cls code 0) (s.halt g cls code pc)).examineAll
    ((g :: others).flatMap fun h => (s.gang h).cores)

/-- HENTRY of an address space: bytes 0 to 3 of its row of the context table (24 R371). -/
def State.hentry (s : State) (asid : Nat) : Word :=
  match s.table? 0 0xFF01 with
  | none => 0
  | some t => BitVec.ofNat 32 (((s.rowRead 0 (t.ref asid) 0 4).map leNat).getD 0)

/-- The TRAPAUX and FADDR that a cause gives a lane: its own, or 0 (24 R372). -/
def Cause.word (c : Cause) (l : Nat) : Word × Word := (c.words.lookup l).getD (0, 0)

/-- A fibre enters the handler: its resume pc and flags go to its trap save, its flags become 0 and it stands at HENTRY
(24 R372). A fault at issue resumes at the faulting slot, everything else at the fibre's own pc. -/
def Fibre.enter (f : Fibre) (c : Cause) (hentry : Word) : Fibre :=
  { f with saved := some (if c.atIssue then c.pc else f.pc, f.flags, f.rep), flags := 0, pc := hentry, rep := none,
           inH := true }

/-- The warp once its handler set has entered the handler (24 R372, 08 R175, R177). -/
def Warp.enter (W : Warp) (c : Cause) (hentry : Word) : Warp :=
  let V := W.mapAll fun l L =>
    if c.lanes.contains l then
      let b := if c.stuck then
          let m := (c.masks.lookup l).getD 0
          (L.bank.set 14 (m.setWidth 32)).set 15 (m.extractLsb' 32 32)
        else L.bank
      { L with slot := .live, fib := L.fib.enter c hentry, trapaux := (c.word l).1, faddr := (c.word l).2, bank := b }
    else L
  let V := { V with trapc := BitVec.ofNat 32 (c.cls.toNat * 256 + c.code.toNat), trappc := c.pc, trappcWritten := false,
                    handler := true, cause := none }
  if c.stuck then { V with rejoinTab := [], rejoinOut := [], serial := false } else V.trimRejoin

/-- The request for blocks, or the wait at MWAIT, at which a lane is parked. -/
def Lane.parkedOn (L : Lane) : Option Nat :=
  match L.slot with
  | .parked (.mwait _ id) | .parked (.xacq id) => some id
  | _ => none

/-- What lanes that a trap unparks had asked for is withdrawn: the wait at MWAIT ends with no reason, and the request leaves its core's
queue. Their instruction issues again after RETT (08 R180, 09 R191; DEDUCED, log 87). -/
def State.withdraw (s : State) (g w : Nat) (ls : List Nat) : State :=
  let ids := ls.filterMap fun l => ((s.warp g w).lane l).parkedOn
  if ids.isEmpty then s
  else
    { s.mapGang g fun G => { G with accs := G.accs.filter fun o => !ids.contains o.id } with
      cores := s.cores.map fun (c : CoreSt) => { c with xacq := c.xacq.filter fun r => !ids.contains r.1 } }

/-- The backward transfers of the handler set (08 R185). -/
def State.enterTransfers (s : State) (g w : Nat) (ls : List Nat) (pc : Word) : State :=
  s.backTransfers (s.coreOf g w) (s.gang g).asid (ls.map fun l => (((s.warp g w).lane l).fib.pc, pc))

/-- TAKING AN EXCEPTION (24 R372): a fault first discards the gang's in-flight work; in handler mode, for class CONTAIN,
or without a handler the gang halts; otherwise the handler set enters the handler. -/
def State.enterTrap (s : State) (g w : Nat) (c : Cause) : State :=
  let s1 := if c.cls = 0x11 then s else s.discard g
  let he := s1.hentry (s1.gang g).asid
  if (s1.warp g w).handler || c.cls = 0x10 || he = 0 then s1.haltGang g c.cls c.code c.pc true
  else
    let s2 := ((s1.withdraw g w c.lanes).enterTransfers g w c.lanes he).mapWarp g w fun W => W.enter c he
    s2.mapGang g fun G => G.releaseWaitc (s2.now g)

/-- A fibre returns from the handler: to its resume pc, or to TRAPPC where that was written since entry; its flags come
back (24 R375). -/
def Fibre.leave (f : Fibre) (written : Bool) (trappc : Word) : Fibre :=
  match f.saved with
  | none => { f with inH := false }
  | some (pc, fl, rep) =>
    { f with inH := false, saved := none, flags := fl, pc := if written then trappc else pc,
             rep := if written then none else rep }

/-- RETURNING FROM AN EXCEPTION (24 R375): the lanes of ISSUE leave H; handler mode ends when H is empty. -/
def Warp.leave (W : Warp) (ls : List Nat) : Warp :=
  let V := W.mapLanes ls fun _ L => L.mapFib fun f => f.leave W.trappcWritten W.trappc
  { V with handler := laneIds.any fun l => (V.lane l).holds && (V.lane l).fib.inH }

/-- The cause of a RETT whose targets are faulty, taken once the RETT has taken effect (24 R375). -/
def State.rettCause (s : State) (c : Cur) : Option Cause :=
  let W := s.warp c.gang c.warp
  let core := s.coreOf c.gang c.warp
  let asid := (s.gang c.gang).asid
  let bad := c.issue.filter fun l => (s.targetCode core asid (W.lane l).fib.pc).isSome
  match bad with
  | [] => none
  | l :: _ =>
    let pc := (W.lane l).fib.pc
    some { cls := 1, code := (s.targetCode core asid pc).getD 4, pc := pc, lanes := bad, words := [], masks := [],
           stuck := false, atIssue := false }

/-- New outstanding work of the issue under way. -/
def State.newWork (s : State) (c : Cur) (i : Instr) (args : List Arg) (uni : List DWord) : Work :=
  { id := s.nextId, ctx := c.gang, warp := c.warp, instr := i, pc := c.pc, issuedAt := s.now c.gang c.warp,
    owners := c.issue, args := args,
    uni := uni, ctr := none, seq := 0, awaits := [], vals := [], waits := [], tiles := [], cells := [], mark := 0,
    fault := none }

/-- A scoreboarded access whose results will land (04 R84). -/
def State.await (s : State) (o : Work) (vals : List (Tgt × DWord)) : State :=
  (s.mapGang o.ctx fun G => { G with accs := G.accs ++ [{ o with awaits := vals.map (·.1), vals := vals }] }).fresh

/-- Whether accesses to cells of pages wait for a bank, a part or a key (20 R344, R345; 24 R385, R386). -/
def State.accHeld (s : State) (asid : Nat) (cells pages : List Nat) (write : Bool) : Bool :=
  cells.any s.heldBack || s.pagesHeld asid pages write

/-- A write to cells whose bank, part or key makes accesses wait is outstanding until it need wait no more (20 R344, R345; 24 R385, R386;
DESIGN CHOICE, log 64). -/
def State.linger (s : State) (c : Cur) (i : Instr) (cells pages : List Nat) : State :=
  if s.accHeld (s.gang c.gang).asid cells pages true then
    s.await { s.newWork c i [] (pages.map (BitVec.ofNat 64)) with cells := cells } []
  else s

/-- The first and the last cell of elements of `e` bytes at some offsets of a gang's firn (24 R386). -/
def Gang.firnCells (G : Gang) (e : Nat) (offs : List Nat) : List Nat :=
  offs.flatMap fun o => [firnCell G.place.die G.place.col o, firnCell G.place.die G.place.col (o + e - 1)]

/-- An engine operation counted on a counter (10 R209). -/
def State.count (s : State) (o : Work) (ctr : Nat) : State :=
  let n := ((s.warp o.ctx o.warp).issued).getD ctr 0
  let s := s.mapGang o.ctx fun G =>
    ({ G with ops := G.ops ++ [{ o with ctr := some ctr, seq := n }] }).mapWarp o.warp fun W =>
      { W with issued := W.issued.set ctr (n + 1) }
  s.fresh

/-- The operands that lanes captured. -/
def Warp.args (W : Warp) (ls : List Nat) (d a b c : Nat → QWord) : List Arg :=
  ls.map fun l => { lane := l, w := (W.lane l).fib.w, d := d l, a := a l, b := b l, c := c l }

/-- The counter that an instruction counts on (10 R208). -/
def counterOf (i : Instr) : Option Nat :=
  match i with
  | .cpl g .. => some g.toNat
  | .cpb .. | .dfence _ => some 4
  | .tgath .. => some 5
  | .xmma .. | .xaccTile .. => some 6
  | _ => none

/-- The tile that an s-register's value names, if its upper bits are zero and the gang has defined it (09 R202). -/
def Gang.tileNum (G : Gang) (v : DWord) : Option Tile := if v.toNat < 256 then G.tile? v.toNat else none

/-- Whether a reader of a tile that issued earlier has not consumed it yet (09 R205). -/
def Gang.hasReader (G : Gang) (n : Nat) : Bool :=
  G.ops.any fun o => o.tiles.contains n && match o.instr with | .xmma .. => true | _ => false

/-- Whether a reader waits for a tile (09 R205). -/
def Gang.readWait (G : Gang) (v : DWord) : Bool := ((G.tileNum v).map fun t => t.st == .filling).getD false

/-- Whether a filler, `tile.set` or `tile.free` waits for a tile. -/
def Gang.fillWait (G : Gang) (v : DWord) : Bool :=
  ((G.tileNum v).map fun t => t.st == .filling || t.st == .draining || G.hasReader t.num).getD false

/-- Whether a copy-out waits for a tile. -/
def Gang.outWait (G : Gang) (v : DWord) : Bool :=
  ((G.tileNum v).map fun t => t.st == .filling || (t.st == .ready && G.hasReader t.num)).getD false

/-- The tiles that an XMMA's maps name: sources, then scales (11 R236, R237). -/
def mapTiles (m : DWord) : List Nat :=
  (if mapCls m = 0 then [mapLoc m] else []) ++ (if mapSs m = 1 then [mapSloc m] else [])

/-- The captured operand maps of an XMMA: A, B and, for the sparse modes, the metadata. -/
def Warp.maps (W : Warp) (m : BitVec 4) (a b c : BitVec 7) : List DWord :=
  [W.s a.toNat, W.s b.toNat] ++ if m = 1 || m = 2 then [W.s c.toNat] else []

/-- The instruction that stands at a fibre's pc. -/
def State.standing (s : State) (g w l : Nat) : Option Instr :=
  let pc := ((s.warp g w).lane l).fib.pc
  match s.fetchQuad (s.coreOf g w) (s.gang g).asid (quadOf pc) with
  | .error _ => none
  | .ok ws => (decodeSlot ws (slotOf pc)).toOption

/-- Whether a push to a queue of the gang is waiting (10 R229): a started fetch, whatever queue it is for, or a live fibre that stands at a
QPUSH of the queue, whatever its guard. The spec does not say what counts as waiting (DESIGN CHOICE, log 88). -/
def State.pushWaiting (s : State) (g q : Nat) : Bool :=
  (((s.gang g).producer.map fun p => p.fetching.isSome).getD false) ||
  (List.range (s.gang g).warps.length).any fun w => laneIds.any fun l =>
    ((s.warp g w).lane l).slot == .live && match s.standing g w l with
      | some (.qpush k _ _) => k.toNat == q
      | _ => false

/-- The queue into which a fetch that has started will push, if one has (10 R225). -/
def Producer.fetchQ (p : Producer) : Option Nat := p.fetching.map fun n => (fld (p.prog.getD n 0) 55 3).toNat

/-- Whether a queue has room for `n` entries beside the one that a started fetch will push to it (10 R228, R230). -/
def Gang.room (G : Gang) (q n : Nat) : Bool :=
  (G.queues.getD q []).length + (if (G.producer.bind (·.fetchQ)) == some q then 1 else 0) + n ≤ 64

/-- Whether some lane of ISSUE has a keyed operation of its own outstanding at an index engine that passes a test. A gather is an
engine operation and no access of the lane. -/
def State.keyedWhere (s : State) (c : Cur) (p : Work → Bool) : Bool :=
  s.idx.any fun o => o.ctx == c.gang && o.warp == c.warp && (o.args.any fun a => c.issue.contains a.lane) &&
    !(o.instr matches .tgath ..) && p o

/-- Whether some lane of ISSUE has a keyed operation outstanding: a later access of the lane to row bytes, and a later engine
operation, waits for it, so that they take effect in program order (13 R261 to R263, 16 R293). -/
def State.keyedPending (s : State) (c : Cur) : Bool := s.keyedWhere c fun _ => true

/-- Whether an order is an acquire at a scope: at `.thr` it has the effect of `.rlx` (16 R280, R284). -/
def isAcq (sc ord : Nat) : Bool := sc != 0 && ord % 2 == 1

/-- Whether keyed work acquires (13 R265, 16 R284): a cursor step with the ORD that its cursor recorded. -/
def State.acquires (s : State) (o : Work) : Bool :=
  match o.instr with
  | .ldk _ _ _ sc ord .. | .tget _ _ sc ord .. | .tins _ _ _ _ sc ord .. | .tdel _ _ sc ord .. | .tupdVal _ _ _ sc ord ..
  | .tupdFmt _ _ _ sc ord .. => isAcq sc.toNat ord.toNat
  | .tcurStep .. => o.args.any fun a =>
      (((s.gang o.ctx).wgs.getD a.w default).cursors.any fun k => k.num == a.d.toNat && isAcq k.sc k.ord)
  | _ => false

/-- Whether some lane of ISSUE has an acquire of its own outstanding at an index engine: what follows it in program order, to
whatever place, takes effect after it (16 R284, R287, R290). -/
def State.acquirePending (s : State) (c : Cur) : Bool := s.keyedWhere c s.acquires

/-- The registers that some outstanding work of a gang's warp will write, of the work that passes a test. -/
def State.awaitedBy (s : State) (g w : Nat) (p : Work → Bool) : List Tgt :=
  let of (os : List Work) : List Tgt := ((os.filter fun o => o.ctx == g && o.warp == w && p o).map (·.awaits)).flatten
  of (s.gang g).ops ++ of (s.gang g).accs ++ of s.idx ++ of s.calls

/-- The registers that some outstanding work of the machine will write for a gang's warp. -/
def State.awaited (s : State) (g w : Nat) : List Tgt := s.awaitedBy g w fun _ => true

/-- A target, or, where it passes a test, no register. -/
def Tgt.unless (t : Tgt) (p : Tgt → Bool) : Tgt := if p t then .nowhere else t

/-- Outstanding work whose results for some registers give way: they are written nowhere. -/
def Work.giveWay (o : Work) (p : Tgt → Bool) : Work :=
  { o with awaits := o.awaits.map (·.unless p), vals := o.vals.map fun x => (x.1.unless p, x.2) }

/-- The results of some outstanding work of a warp for some registers give way. -/
def State.giveWay (s : State) (g w : Nat) (q : Work → Bool) (p : Tgt → Bool) : State :=
  let f (os : List Work) : List Work := os.map fun o => if o.ctx = g && o.warp = w && q o then o.giveWay p else o
  { s.mapGang g (fun G => { G with ops := f G.ops, accs := f G.accs }) with idx := f s.idx, calls := f s.calls }

/-- The results of known latency of a warp for some registers give way. -/
def Warp.giveWay (W : Warp) (p : Tgt → Bool) : Warp :=
  { W with pend := W.pend.map fun (q : Pend) => { q with tgt := q.tgt.unless p } }

/-- Whether a target is a register of a lane's space at or above an index. -/
def Tgt.atOrAbove (t : Tgt) (n : Nat) : Bool :=
  match t with
  | .reg _ i => decide (n ≤ i)
  | _ => false

/-- The program that SPLD `.load` of an s-register's value would load. -/
def State.programAt (s : State) (c : Cur) (a : BitVec 7) : Option Table :=
  s.streamTable (s.gang c.gang).asid (((s.warp c.gang c.warp).s a.toNat).setWidth 32)

/-- The rows that LNCH reads of the queue that a handle names: its descriptor, and what its checks read (22 R366, R367). -/
def State.launchSpans (s : State) (h : Word) : List Span :=
  match s.queues.find? fun e => e.num == (fld h 0 16).toNat with
  | none => []
  | some e => match s.qdesc? e.desc with
    | none => s.spansOf 0 e.desc 1 0 64 0 false
    | some d => s.useRows d.rcb

/-- The waits that an instruction's own entry names (04 R74), and those that keep program order with what the lanes have at an
index engine: while one holds the set is not ready. A TRAP waits while its warp has another trap to enter, and a QPUSH that
has lost its room to the first port's waits for room (04 R397, 10 R229; DESIGN CHOICE, log 72). SPLD `.load` waits while a fetch of the
earlier program is under way, of which the spec says nothing (DESIGN CHOICE, log 88), and while the rows of its program make accesses wait
(20 R344, R345). -/
def State.entryWait (s : State) (i : Instr) (c : Cur) : Bool :=
  let G := s.gang c.gang
  let W := G.warp c.warp
  let full := match counterOf i with
    | some k => decide (63 ≤ G.counter c.warp k)
    | none => false
  full || match i with
  | .cpb m d .. => s.keyedPending c || (if m.toNat % 2 = 0 then G.fillWait (W.s d.toNat) else G.outWait (W.s d.toNat))
  | .xmma m a b _ cc _ =>
    s.keyedPending c || (((W.maps m a b cc).map mapTiles).flatten.any fun n => G.readWait (BitVec.ofNat 64 n))
  | .xaccTile d _ => s.keyedPending c || G.fillWait (W.s d.toNat)
  | .tgath _ _ _ _ _ _ t _ => s.keyedPending c || G.fillWait (W.s t.toNat)
  | .tileSet _ a => s.keyedPending c || G.fillWait (W.s a.toNat)
  | .tileFree a => G.fillWait (W.s a.toNat)
  | .qpop q _ _ =>
    match G.producer with
    | none => false
    | some p => (G.queues.getD q.toNat []).length < c.issue.length && (p.running || s.pushWaiting c.gang q.toNat)
  | .qpush q _ _ => G.producer.isSome && !G.room q.toNat c.issue.length
  | .spldLoad a => s.keyedPending c || ((G.producer.map fun p => p.fetching.isSome).getD false) ||
    ((s.programAt c a).map fun t => s.spansHeld t.program).getD false
  | .lnch _ _ _ _ r => s.keyedPending c || s.spansHeld (s.launchSpans ((W.s r.toNat).setWidth 32))
  | .trap _ => W.cause.isSome
  | .regsXrel n =>
    let top := W.space - 32 * n.toNat
    (W.pend.any fun p => p.tgt.atOrAbove top) || ((s.awaited c.gang c.warp).any fun t => t.atOrAbove top)
  | .ldr .. | .str .. | .ldri .. | .stri .. | .mld .. | .mst .. | .amo .. | .cas .. | .cpl ..
  | .bar .. | .syncIcinv .. | .tseek .. | .tcurStep .. | .tcurClose .. | .tcurKey .. | .dfence .. => s.keyedPending c
  | .ldl .. | .stl .. | .ldf .. | .stf .. | .ldli .. | .stli .. | .syncIsync | .ldk .. | .stk .. | .tget .. | .tins ..
  | .tdel .. | .tupdVal .. | .tupdFmt .. => s.acquirePending c
  | _ => false

/-- What an instruction touches in a lane, with the key type of the cursor that the lane names (13 R269). -/
def State.usesOf (s : State) (i : Instr) (c : Cur) (l : Nat) : List Use :=
  let G := s.gang c.gang
  let W := G.warp c.warp
  let kt := match i with
    | .tcurStep _ a _ | .tcurKey _ a =>
      match G.cursor (W.get l a.toNat) with
      | some (_, k) => ((s.table? G.asid k.slot).map fun t => t.desc.keyt).getD 0
      | none => 0
    | _ => 0
  uses i W l kt ++ match i with
    | .spldLoad a => ((s.programAt c a).map s.programRegs).getD [] |>.map fun n => .of (.sreg n)
    | _ => []

/-- The targets that an instruction touches in a lane. -/
def State.tgtsOf (s : State) (i : Instr) (c : Cur) (l : Nat) : List Tgt :=
  ((s.usesOf i c l).map fun u => u.tgts (s.warp c.gang c.warp) l).flatten ++
    match c.guard, c.rep with
    | some k, none | some k, some (0, _) => [.flag l k]
    | _, _ => []

/-- The fault of an encoding whose fields the spec does not accept (01 R34). -/
def decodeFault (i : Instr) : Option Flt := i.check.map fun k => flt 1 k.value

/-- The faults of a status-register number (02 R51, 24 R370): PRIV.SREG, then INSN.RSV. -/
def statFault (i : Instr) (G : Gang) (W : Warp) : Option Flt :=
  match i with
  | .srd n _ =>
    if 0x40 ≤ n.toNat then (if !G.privileged then some (flt 5 1) else if 0x44 ≤ n.toNat then some (flt 1 9) else none)
    else if 0x18 ≤ n.toNat then some (flt 1 9) else none
  | .swr n _ =>
    if 0x40 ≤ n.toNat then some (if G.privileged then flt 1 9 else flt 5 1)
    else if [0x0D, 0x0F].contains n.toNat then none
    else if [0x10, 0x12, 0x13].contains n.toNat && W.handler then none
    else if [0x0B, 0x0C, 0x11].contains n.toNat then none
    else some (flt 1 9)
  | .swrTrappc _ => if W.handler then none else some (flt 1 9)
  | _ => none

/-- STALL.SHORT (04 R83): a register that the slot touches has a fixed-latency write pending from the same fibre (DEDUCED,
log 24). -/
def State.isShort (s : State) (i : Instr) (c : Cur) : Bool :=
  let W := s.warp c.gang c.warp
  W.sbchk && c.set.any fun l =>
    (s.tgtsOf i c l).any fun t => W.pend.any fun p => p.tgt == t && !p.sb && p.owners.contains l

/-- The faults of an encoding and of short spacing, which are raised before the guard (01 R34, 04 R83), and between them those of a
status-register number that depend on the gang or the warp, which no slot with an empty ISSUE takes (01 R21; 05 R88; DEDUCED, log 76). -/
def State.earlyFault (s : State) (i : Instr) (c : Cur) : Option Flt :=
  match decodeFault i with
  | some f => some f
  | none =>
    match if c.issue.isEmpty then none else statFault i (s.gang c.gang) (s.warp c.gang c.warp) with
    | some f => some f
    | none => if s.isShort i c then some (flt 2 1) else none

/-- REG.WINDOW (02 R38): some register index of some lane of ISSUE does not exist. -/
def State.offWindow (s : State) (i : Instr) (c : Cur) : Bool :=
  c.issue.any fun l => (s.usesOf i c l).any fun u => !u.fits (s.warp c.gang c.warp) l

/-- A fibre of the issue set moves on: past its slot, or, for a repeat of a REP that is not the last, to the next repeat,
when its pc stays at the REP word (01 R16, R27; 04 R80; 08 R182, R183). The spec asks that a repeat reads what the earlier ones wrote and
gives no spacing: a repeat follows max 1 L cycles after the one before, L the latency of 04 R81 (DESIGN CHOICE, log 95). -/
def Fibre.advance (f : Fibre) (i : Instr) (c : Cur) (l now : Nat) : Fibre :=
  match c.rep with
  | some (j, n) =>
    if j < n then
      { f with pc := c.pc - 4, rep := some (j + 1, c.issue.contains l), readyAt := now + max 1 (latency i) }
    else { f with pc := afterPc i c.pc, rep := none, readyAt := now + 1 + c.stall }
  | none => { f with pc := afterPc i c.pc, rep := none, readyAt := now + 1 + c.stall }

/-- The warp as an issue moves it: the fibres of the set advance, a YIELD of the other fibres ends (08 R181), and after the
last repeat of a REP the fibres held at its REP word are released (08 R182). Of two sets that issue in one cycle the second
counts as issued after the first: it ends a YIELD of the first at once (DEDUCED, log 77). -/
def Warp.advance (W : Warp) (i : Instr) (c : Cur) (now : Nat) : Warp :=
  let last := match c.rep with
    | some (j, n) => decide (n ≤ j)
    | none => false
  let lead := c.set.headD 0
  W.mapAll fun l L =>
    if c.set.contains l then L.mapFib fun f => f.advance i c l now
    else if last && L.slot = .parked .repHold && L.fib.pc = c.pc - 4 && L.fib.w = (W.lane lead).fib.w then
      { L with slot := .live }
    else L.mapFib fun f => { f with yieldAt := none }

/-- The state once the issue has moved its fibres. -/
def State.advance (s : State) (i : Instr) (c : Cur) : State :=
  let now := s.now c.gang c.warp
  s.mapWarp c.gang c.warp fun W => W.advance i c now

/-- What an access leaves although its slot has no effect: the walks of what it missed, and the lines whose checks have failed, which are
retired (20 R328, R346). -/
def State.noteFault (s : State) (c : Cur) (f : Flt) : State :=
  let t := s.noteMisses (Site.ofCore c.core) (s.gang c.gang).asid f.misses
  if f.retires.isEmpty then t else t.retire f.retires

/-- A fault at issue: the slot has no effect, and the fault is the warp's cause. A fault in a repeat keeps its progress
(08 R183). -/
def State.faulted (s : State) (c : Cur) (f : Flt) : State :=
  let s := (s.noteFault c f).raise c f
  match c.rep with
  | some (j, _) => s.mapWarp c.gang c.warp fun W => W.mapLanes c.set fun l L =>
      L.mapFib fun f => { f with rep := some (j, c.issue.contains l) }
  | none => s

/-- THE ISSUE OF ONE SLOT. The faults raised before the guard come first; a slot whose ISSUE is empty only moves on (01
R21); a wait of the entry leaves the set where it is (04 R74); then come the entry's checks before the window, the window
(02 R38), and the entry's own checks and effect. A fault leaves every lane without effect. -/
def slot (i : Instr) (s : State) (pre : Cur → State → Option Flt) (body : Cur → State → Except Flt State) :
    Host.Outcome State Fault Refusal :=
  match s.cur with
  | none => .refused .noIssue
  | some c =>
    match s.earlyFault i c with
    | some f => .next (s.faulted c f)
    | none =>
      if c.issue.isEmpty then .next (s.advance i c)
      else if s.entryWait i c then .next s
      else match pre c s with
        | some f => .next (s.faulted c f)
        | none =>
          if s.offWindow i c then .next (s.faulted c (flt 3 1))
          else match body c (s.advance i c) with
            | .error f => .next (s.faulted c f)
            | .ok t => .next t

/-- No check before the window. -/
def noPre : Cur → State → Option Flt := fun _ _ => none

/-- The issue of a slot whose effect is results of fixed latency, lane by lane. -/
def lanewise (i : Instr) (s : State) (f : Warp → Nat → List (Tgt × DWord)) : Host.Outcome State Fault Refusal :=
  slot i s noPre fun c s =>
    .ok (s.post c (latency i) ((c.issue.map fun l => f (s.warp c.gang c.warp) l).flatten))

/-- The issue of a slot whose effect is one result of fixed latency for the warp, from the lanes of ISSUE. -/
def uniform (i : Instr) (s : State) (f : Warp → List Nat → List (Tgt × DWord)) : Host.Outcome State Fault Refusal :=
  slot i s noPre fun c s => .ok (s.post c (latency i) (f (s.warp c.gang c.warp) c.issue))

/-- Whether an access waits from the start for more than its reads of memory: for a walk, a bank, a part or a key (02 R54). -/
def State.startsLate (s : State) (c : Cur) (as : List LaneAcc) (write : Bool) : Bool :=
  let asid := (s.gang c.gang).asid
  s.accHeld asid (as.flatMap (·.cells)) (pagesOf as) write || (pagesOf as).any fun v => s.missHeld (Site.ofCore c.core) asid (4096 * v)

/-- The machine once the outstanding accesses `o` have set out to memory and `o` waits for them: whether they are bank-private reads of the
DRAM, every block of them, and wait for nothing else, so that their latency is rated (20 R338). -/
def State.setOut (s : State) (c : Cur) (o : Work) (as : List LaneAcc) (write : Bool) : State :=
  let t := s.noteAccs c (some o.id) as false
  let reads := (t.dram.filter fun r => r.ctx == c.gang && r.acc == some o.id && r.priv).length
  let rated := reads == (s.laneBlocks as).length && !s.startsLate c as write
  (t.mapGang c.gang fun G => { G with accs := G.accs ++ [{ o with rated := rated }] }).fresh

/-- An access to rows that returns: its results land once its translation and its DRAM accesses are done. A lane whose line is lost, or
whose check fails, gets no value, and the access faults when its data returns (24 R379, 20 R346; DESIGN CHOICE, log 17). `writes` are the
accesses that also write; they read their lines first (20 R331). -/
def State.startRead (s : State) (c : Cur) (i : Instr) (writes as : List LaneAcc) (dst : Nat → List Tgt)
    (val : LaneAcc → List DWord) : State :=
  let good := as.filter fun a => !a.isBad s
  let args := good.map fun a => ({ lane := a.lane, w := 0, d := 0, a := 0, b := 0, c := 0 } : Arg)
  let o := { s.newWork c i args ((pagesOf as).map (BitVec.ofNat 64)) with
    cells := (as.map fun a => a.cells).flatten,
    awaits := (as.map fun a => dst a.lane).flatten,
    vals := (good.map fun a => (dst a.lane).zip (val a)).flatten,
    fault := badLane s as }
  ((s.retireLines as).setOut c o as !writes.isEmpty).noteAccs c none writes true

/-- What a store to rows leaves beside the bytes that it writes: its traces in the caches, and, where its cells wait, work that is
outstanding until they need wait no more. -/
def State.startWrite (s : State) (c : Cur) (i : Instr) (as : List LaneAcc) : State :=
  (s.noteAccs c none as true).linger c i (as.flatMap (·.cells)) (pagesOf as)

/-- The stores of elements by an issue, each with its offset and bytes, in order. Whether the other agents see them at once is free (16 R287,
25 R390; DESIGN CHOICE, log 5). -/
def State.storeElems (s : State) (c : Cur) (xs : List (LaneAcc × Nat × List Byte)) : State :=
  let t := xs.foldl (fun t x => t.storeElem c.gang c.warp x.1 x.2.1 x.2.2) s
  match (xs.map fun x => x.1.path).eraseDups with
  | [p] =>
    if s.free 6 c.warp then
      s.hide t c.gang c.warp p (xs.flatMap fun x => (s.written c.gang c.warp x.1 x.2.1).map fun k => (k, x.1.unit))
    else t
  | _ => t

/-- The words of a value. -/
def wordsOf (v : QWord) : List DWord := (List.range 4).map fun j => (v.extractLsb' (32 * j) 32).setWidth 64

/-- The registers that a load writes in a lane. -/
def Warp.dst (W : Warp) (d k l : Nat) : List Tgt := (List.range k).map fun j => W.loc l (d + j)

end Sys2Proof.Machine
end

