-- ==== Sys2Proof/Machine/Float.lean ====
section
/-! DEFINITION. Floating-point arithmetic, conversions, special functions and Welford states (05 R103 to R113; 03 R64 to
R69). -/

namespace Sys2Proof.Machine

/-- The rounding mode of MIN[1:0] (01 R30). -/
def rmOf {n : Nat} (r : BitVec n) : Num.Rm :=
  match r.toNat % 4 with
  | 0 => .rne
  | 1 => .rz
  | 2 => .rdn
  | _ => .rup

/-- The format of a floating-point TY (01 R30). -/
def fTy (t : BitVec 2) : Num.Fmt :=
  match t.toNat with
  | 0 => .f32
  | 1 => .f64
  | 2 => .f16
  | _ => .bf16

/-- A function of element codes applied to 32-bit registers: to each half of a packed form, else to the whole (05 R91). -/
def perElem (t : BitVec 2) (f : Nat → Nat → Nat → Nat) (d a b : Word) : Word :=
  if 2 ≤ t.toNat then
    BitVec.ofNat 32 (f (d.toNat % 65536) (a.toNat % 65536) (b.toNat % 65536) % 65536 +
      f (d.toNat / 65536) (a.toNat / 65536) (b.toNat / 65536) % 65536 * 65536)
  else BitVec.ofNat 32 (f d.toNat a.toNat b.toNat)

/-- The result of a floating-point instruction in one lane: a function of the codes of d, a and b. -/
def Warp.fRes (W : Warp) (t : BitVec 2) (d a b : BitVec 7) (f : Nat → Nat → Nat → Nat) (l : Nat) : List (Tgt × DWord) :=
  if t = 1 then
    W.put64 l d.toNat (BitVec.ofNat 64
      (f (W.get64 l d.toNat).toNat (W.get64 l a.toNat).toNat (W.get64 l b.toNat).toNat))
  else [W.put l d.toNat (perElem t f (W.get l d.toNat) (W.get l a.toNat) (W.get l b.toNat))]

/-- FADD (05 R103). -/
def execFadd (t r : BitVec 2) (d a b : BitVec 7) (s : State) : Host.Outcome State Fault Refusal :=
  lanewise (.fadd t r d a b) s fun W l => W.fRes t d a b (fun _ x y => Num.fadd (fTy t) (rmOf r) x y) l

/-- FSUB (05 R103). -/
def execFsub (t r : BitVec 2) (d a b : BitVec 7) (s : State) : Host.Outcome State Fault Refusal :=
  lanewise (.fsub t r d a b) s fun W l => W.fRes t d a b (fun _ x y => Num.fsub (fTy t) (rmOf r) x y) l

/-- FMUL (05 R103). -/
def execFmul (t r : BitVec 2) (d a b : BitVec 7) (s : State) : Host.Outcome State Fault Refusal :=
  lanewise (.fmul t r d a b) s fun W l => W.fRes t d a b (fun _ x y => Num.fmul (fTy t) (rmOf r) x y) l

/-- FFMA (05 R103): one rounding. -/
def execFfma (t r : BitVec 2) (d a b : BitVec 7) (s : State) : Host.Outcome State Fault Refusal :=
  lanewise (.ffma t r d a b) s fun W l => W.fRes t d a b (fun z x y => Num.ffma (fTy t) (rmOf r) x y z) l

/-- FMIN (05 R104). -/
def execFmin (t n : BitVec 2) (d a b : BitVec 7) (s : State) : Host.Outcome State Fault Refusal :=
  lanewise (.fmin t n d a b) s fun W l => W.fRes t d a b (fun _ x y => Num.minmax (fTy t) true (n == 1) x y) l

/-- FMAX (05 R104). -/
def execFmax (t n : BitVec 2) (d a b : BitVec 7) (s : State) : Host.Outcome State Fault Refusal :=
  lanewise (.fmax t n d a b) s fun W l => W.fRes t d a b (fun _ x y => Num.minmax (fTy t) false (n == 1) x y) l

/-- FCMP (05 R105, 02 R46). -/
def execFcmp (t f : BitVec 2) (a b : BitVec 7) (s : State) : Host.Outcome State Fault Refusal :=
  lanewise (.fcmp t f a b) s fun W l =>
    let v := if t = 1 then fcmpFlags .f64 (W.get64 l a.toNat).toNat (W.get64 l b.toNat).toNat
      else fcmpFlags .f32 (W.get l a.toNat).toNat (W.get l b.toNat).toNat
    [(.flag l f.toNat, v.setWidth 64)]

/-- The sign change of FMOD on a code (05 R106). -/
def signChange (f : Num.Fmt) (o x y : Nat) : Nat :=
  let top := 2 ^ (Num.bits f - 1)
  let mag := x % top
  match o with
  | 0 => mag
  | 1 => if x / top % 2 = 0 then mag + top else mag
  | _ => mag + y / top % 2 * top

/-- FMOD (05 R106). -/
def execFmod (t o : BitVec 2) (d a b : BitVec 7) (s : State) : Host.Outcome State Fault Refusal :=
  lanewise (.fmod t o d a b) s fun W l => W.fRes t d a b (fun _ x y => signChange (fTy t) o.toNat x y) l

/-- FRINT (05 R107). -/
def execFrint (t r : BitVec 2) (d a : BitVec 7) (s : State) : Host.Outcome State Fault Refusal :=
  lanewise (.frint t r d a) s fun W l => W.fRes t d a a (fun _ x _ => Num.rint (fTy t) (rmOf r) x) l

/-- The range of an integer type of `w` bits (03 R68). -/
def intLo (w : Nat) (signed : Bool) : Int := if signed then -(2 ^ (w - 1)) else 0
def intHi (w : Nat) (signed : Bool) : Int := if signed then 2 ^ (w - 1) - 1 else 2 ^ w - 1

/-- A float code to an integer of `w` bits, as its bits (03 R68). -/
def f2iVal (f : Num.Fmt) (rm : Num.Rm) (w : Nat) (signed : Bool) (x : Nat) : Nat :=
  (BitVec.ofInt w (Num.toInt rm (intLo w signed) (intHi w signed) (Num.value f x))).toNat

/-- An integer of `w` bits to a float code (03 R68). -/
def i2fVal (f : Num.Fmt) (rm : Num.Rm) (w : Nat) (signed : Bool) (x : Nat) : Nat :=
  let v := BitVec.ofNat w x
  Num.round f rm false (Num.intVal (if signed then v.toInt else v.toNat))

/-- F2I (05 R108): `k` is the integer type code. -/
def execF2i (t r : BitVec 2) (d a k : BitVec 7) (s : State) : Host.Outcome State Fault Refusal :=
  lanewise (.f2i t r d a k) s fun W l =>
    let signed := k.toNat % 2 == 0
    if 2 ≤ t.toNat then
      [W.put l d.toNat (perElem t (fun _ x _ => f2iVal (fTy t) (rmOf r) 16 signed x) 0 (W.get l a.toNat) 0)]
    else
      let x := if t = 1 then (W.get64 l a.toNat).toNat else (W.get l a.toNat).toNat
      if 2 ≤ k.toNat then W.put64 l d.toNat (BitVec.ofNat 64 (f2iVal (fTy t) (rmOf r) 64 signed x))
      else [W.put l d.toNat (BitVec.ofNat 32 (f2iVal (fTy t) (rmOf r) 32 signed x))]

/-- I2F (05 R108). -/
def execI2f (t r : BitVec 2) (d a k : BitVec 7) (s : State) : Host.Outcome State Fault Refusal :=
  lanewise (.i2f t r d a k) s fun W l =>
    let signed := k.toNat % 2 == 0
    if 2 ≤ t.toNat then
      [W.put l d.toNat (perElem t (fun _ x _ => i2fVal (fTy t) (rmOf r) 16 signed x) 0 (W.get l a.toNat) 0)]
    else
      let w := if 2 ≤ k.toNat then 64 else 32
      let x := if 2 ≤ k.toNat then (W.get64 l a.toNat).toNat else (W.get l a.toNat).toNat
      let y := i2fVal (fTy t) (rmOf r) w signed x
      if t = 1 then W.put64 l d.toNat (BitVec.ofNat 64 y) else [W.put l d.toNat (BitVec.ofNat 32 y)]

/-- The packed format of a conversion, as its destination or its source (01 R32). -/
def cvFmt (v : Nat) : Num.Fmt :=
  match v with
  | 2 | 7 => .f16
  | 3 | 8 => .bf16
  | 4 | 9 => .e4m3
  | 5 | 10 => .e5m2
  | 6 | 11 => .e2m1
  | 12 | 13 => .e8m0
  | _ => .f32

/-- The rounding mode of a conversion's element: the control field's mode, or its own random bits (01 R32, 03 R66). -/
def cvMode (r : BitVec 1) (p : BitVec 5) (rnd w k : Nat) : Num.Rm :=
  if r = 1 then .sr w (rnd / 2 ^ (w * k) % 2 ^ w) else rmOf p

/-- FCVT (05 R109, 03 R66, R67). -/
def execFcvt (v : BitVec 4) (d a : BitVec 7) (r sat : BitVec 1) (p : BitVec 5) (s : State) : Host.Outcome State Fault Refusal :=
  lanewise (.fcvt v d a r sat p) s fun W l =>
    let rnd := (W.get l p.toNat).toNat
    let cv := v.toNat
    let f := cvFmt cv
    let e := Num.bits f
    if cv = 0 then
      [W.put l d.toNat (BitVec.ofNat 32 (Num.conv .f64 .f32 (cvMode r p rnd 32 0) (sat == 1) (W.get64 l a.toNat).toNat))]
    else if cv = 1 then W.put64 l d.toNat (BitVec.ofNat 64 (Num.conv .f32 .f64 .rne false (W.get l a.toNat).toNat))
    else if cv ≤ 6 || cv = 13 then
      let n := 32 / e
      [W.put l d.toNat (BitVec.ofNat 32 (((List.range n).map fun k =>
        Num.conv .f32 f (cvMode r p rnd e k) (sat == 1) (W.get l (a.toNat + k)).toNat * 2 ^ (e * k)).foldl (· + ·) 0))]
    else
      let x := (W.get l a.toNat).toNat
      W.putN l d.toNat ((List.range (32 / e)).map fun k =>
        BitVec.ofNat 32 (Num.conv f .f32 .rne false (x / 2 ^ (e * k) % 2 ^ e)))

/-- SFU (05 R110, R111). -/
def execSfu (t m : BitVec 2) (d a f : BitVec 7) (s : State) : Host.Outcome State Fault Refusal :=
  lanewise (.sfu t m d a f) s fun W l => W.fRes t d a a (fun _ x _ => Num.sfu (fTy t) (rmOf m) f.toNat x) l

/-- The three values of a Welford state from register `n` (05, Welford update and merge). -/
def Warp.welford (W : Warp) (t : BitVec 2) (l n : Nat) : List Nat :=
  (List.range 3).map fun j => if t = 1 then (W.get64 l (n + 2 * j)).toNat else (W.get l (n + j)).toNat

/-- A Welford state written from register `n`. -/
def Warp.putWelford (W : Warp) (t : BitVec 2) (l n : Nat) (vs : List Nat) : List (Tgt × DWord) :=
  if t = 1 then (vs.mapIdx fun j v => W.put64 l (n + 2 * j) (BitVec.ofNat 64 v)).flatten
  else vs.mapIdx fun j v => W.put l (n + j) (BitVec.ofNat 32 v)

/-- The update of a Welford state by a sample (05 R112). -/
def welfUpdate (f : Num.Fmt) (rm : Num.Rm) (st : List Nat) (x : Nat) : List Nat :=
  let n := Num.fadd f rm (st.getD 0 0) (Num.round f .rne false (Num.intVal 1))
  let dl := Num.fsub f rm x (st.getD 1 0)
  let mu := Num.fadd f rm (st.getD 1 0) (Num.fdiv f rm dl n)
  let q := Num.fsub f rm x mu
  [n, mu, Num.ffma f rm dl q (st.getD 2 0)]

/-- The merge of two Welford states (05 R113): none, and nothing is written, where the counts sum to exactly 0. -/
def welfMerge (f : Num.Fmt) (rm : Num.Rm) (sa sb : List Nat) : Option (List Nat) :=
  let na := sa.getD 0 0
  let nb := sb.getD 0 0
  match Num.add false (Num.value f na) (Num.value f nb) with
  | .zero _ => none
  | _ =>
    let n := Num.fadd f rm na nb
    let dl := Num.fsub f rm (sb.getD 1 0) (sa.getD 1 0)
    let w := Num.fdiv f rm nb n
    let mu := Num.ffma f rm dl w (sa.getD 1 0)
    let p := Num.fmul f rm na w
    let q := Num.fadd f rm (sa.getD 2 0) (sb.getD 2 0)
    some [n, mu, Num.ffma f rm (Num.fmul f rm dl dl) p q]

/-- WELF (05 R112). -/
def execWelf (t r : BitVec 2) (d a : BitVec 7) (s : State) : Host.Outcome State Fault Refusal :=
  lanewise (.welf t r d a) s fun W l =>
    let x := if t = 1 then (W.get64 l a.toNat).toNat else (W.get l a.toNat).toNat
    W.putWelford t l d.toNat (welfUpdate (fTy t) (rmOf r) (W.welford t l d.toNat) x)

/-- WMRG (05 R113). -/
def execWmrg (t r : BitVec 2) (d a : BitVec 7) (s : State) : Host.Outcome State Fault Refusal :=
  lanewise (.wmrg t r d a) s fun W l =>
    match welfMerge (fTy t) (rmOf r) (W.welford t l d.toNat) (W.welford t l a.toNat) with
    | none => []
    | some vs => W.putWelford t l d.toNat vs

end Sys2Proof.Machine
end

