-- ==== Sys2Proof/Machine/CrossLane.lean ====
section
/-! DEFINITION. Cross-lane instructions (05 R114 to R118, 03 R71). Only lanes of ISSUE are read or written. -/

namespace Sys2Proof.Machine

/-- The source lane of a shuffle (05 R115): `k` is the suffix, `g` the selector, `i` the lane. -/
def shuffleSource (k g i : Nat) : Nat :=
  let c := g % 64
  let seg := min warpw (match g / 64 with
    | 0 => warpw
    | 1 => 32
    | 2 => 16
    | _ => 8)
  let b := i - i % seg
  match k with
  | 0 => b + c % seg
  | 1 => if b + c ≤ i then i - c else i
  | 2 => if i + c < b + seg then i + c else i
  | _ => b + ((i - b) ^^^ (c % seg))

/-- The value of register `n` of a source lane: 0 where it is outside ISSUE (05 R114). -/
def Warp.fromLane (W : Warp) (ls : List Nat) (j n : Nat) : Word := if ls.contains j then W.get j n else 0

/-- SHFL (05 R115). -/
def execShfl (m : BitVec 2) (d a b : BitVec 7) (s : State) : Host.Outcome State Fault Refusal :=
  uniform (.shfl m d a b) s fun W ls => ls.map fun i =>
    W.put i d.toNat (W.fromLane ls (shuffleSource m.toNat ((W.get i b.toNat).toNat % 256) i) a.toNat)

/-- SHFLI (05 R115). -/
def execShfli (m : BitVec 2) (g : BitVec 8) (d a : BitVec 7) (s : State) : Host.Outcome State Fault Refusal :=
  uniform (.shfli m g d a) s fun W ls => ls.map fun i =>
    W.put i d.toNat (W.fromLane ls (shuffleSource m.toNat g.toNat i) a.toNat)

/-- The target lane that a lane of SHPUSH names (05 R116). -/
def Warp.pushTarget (W : Warp) (b i : Nat) : Nat := (W.get i b).toNat % 256 % warpw

/-- SHPUSH (05 R116): the highest lane that names a target wins, and `.cm` marks the targets that two or more name. -/
def execShpush (cm : BitVec 1) (n : BitVec 3) (d a b : BitVec 7) (s : State) : Host.Outcome State Fault Refusal :=
  uniform (.shpush cm n d a b) s fun W ls =>
    let names (j : Nat) : List Nat := ls.filter fun i => W.pushTarget b.toNat i == j
    let data := (ls.map fun j => match (names j).getLast? with
      | some i => [W.put j d.toNat (W.get i a.toNat)]
      | none => []).flatten
    data ++ if cm = 1 then
      [(.sreg (56 + n.toNat), BitVec.ofNat 64 (laneIds.foldl (fun m j => if 2 ≤ (names j).length then m + 2 ^ j else m) 0))]
    else []

/-- VOTE (05 R117). -/
def execVote (f k : BitVec 2) (d a b : BitVec 7) (s : State) : Host.Outcome State Fault Refusal :=
  uniform (.vote f k d a b) s fun W ls =>
    let ms := laneIds.filter fun l => (W.s b.toNat).getLsbD l
    let p (l : Nat) : Bool := ls.contains l && W.get l a.toNat != 0
    let any := ms.any p
    let z := match k.toNat with
      | 0 => ms.all p
      | 2 => ms.all p || !any
      | _ => any
    let v := nzcv false z any (ms.any fun l => !ls.contains l)
    (ls.map fun l => (Tgt.flag l f.toNat, v.setWidth 64)) ++ if k.toNat = 3 then
      [(.sreg d.toNat, BitVec.ofNat 64 (ms.foldl (fun m l => if p l then m + 2 ^ l else m) 0))]
    else []

/-- The identity of a reduction (03 R71): `o` is the operation, `t` the type. -/
def reduceUnit (o t : Nat) : DWord :=
  match o, t with
  | 0, 2 => 0x80000000
  | 1, 0 => 0x7FFFFFFF
  | 1, 1 => 0xFFFFFFFF
  | 1, 2 => 0x7F800000
  | 1, _ => 0x7FFFFFFFFFFFFFFF
  | 2, 0 => 0x80000000
  | 2, 2 => 0xFF800000
  | 2, 3 => 0x8000000000000000
  | _, _ => 0

/-- One combine of a reduction on integers of a width (03 R71). -/
def combineInt {w : Nat} (o : Nat) (signed : Bool) (x y : BitVec w) : BitVec w :=
  let le : Bool := if signed then decide (x.toInt ≤ y.toInt) else decide (x.toNat ≤ y.toNat)
  match o with
  | 0 => x + y
  | 1 => if le then x else y
  | 2 => if le then y else x
  | _ => x ||| y

/-- One combine of a reduction, the lower lane's value first (03 R71, 05 R118). Where every member is a NaN and some lane is no member,
the tree of R71 gives the identity of `.min` or `.max`, an infinity (DEDUCED, log 83). -/
def combine (o t : Nat) (x y : DWord) : DWord :=
  match t with
  | 0 => (combineInt o true (x.setWidth 32) (y.setWidth 32)).setWidth 64
  | 1 => (combineInt o false (x.setWidth 32) (y.setWidth 32)).setWidth 64
  | 2 =>
    let a := x.toNat % 2 ^ 32
    let b := y.toNat % 2 ^ 32
    BitVec.ofNat 64 (match o with
      | 0 => Num.fadd .f32 .rne a b
      | 1 => Num.minmax .f32 true false a b
      | _ => Num.minmax .f32 false false a b)
  | _ => combineInt o true x y

/-- Step j of the reduction tree of LRED (03 R71). -/
def reduceStep (o t j : Nat) (x : List DWord) : List DWord :=
  x.mapIdx fun i v => if i % 2 ^ (j + 1) = 0 then combine o t v (x.getD (i + 2 ^ j) 0) else v

/-- Step j of the prefix tree of LSCAN (03 R71). A member that no step combines, such as lane 0, keeps its own bits, also those of a NaN: the
pseudocode writes it as it is, and 03 R61 speaks of what an operation makes (DESIGN CHOICE, log 94). -/
def scanStep (o t j : Nat) (x : List DWord) : List DWord :=
  x.mapIdx fun i v => if 2 ^ j ≤ i then combine o t (x.getD (i - 2 ^ j) 0) v else v

/-- The members' values, with the identity in every other lane (05 R118). -/
def Warp.members' (W : Warp) (ls : List Nat) (o t a b : Nat) : List DWord :=
  laneIds.map fun i =>
    if ls.contains i && (W.s b).getLsbD i then (if t = 3 then W.get64 i a else (W.get i a).setWidth 64)
    else reduceUnit o t

/-- The results of a reduction: scoreboarded, 18 cycles after issue (04 R81, R84). -/
def State.postReduce (s : State) (c : Cur) (t d : Nat) (v : Nat → DWord) : State :=
  let now := s.now c.gang c.warp
  s.mapWarp c.gang c.warp fun W => W.postSb now 18 c.issue
    (c.issue.map fun l => if t = 3 then W.put64 l d (v l) else [W.put l d ((v l).setWidth 32)]).flatten

/-- LRED (05 R118). -/
def execLred (o t : BitVec 2) (d a b : BitVec 7) (s : State) : Host.Outcome State Fault Refusal :=
  slot (.lred o t d a b) s noPre fun c s =>
    let x := (s.warp c.gang c.warp).members' c.issue o.toNat t.toNat a.toNat b.toNat
    let r := (List.range 6).foldl (fun x j => reduceStep o.toNat t.toNat j x) x
    .ok (s.postReduce c t.toNat d.toNat fun _ => r.getD 0 0)

/-- LSCAN (05 R118). -/
def execLscan (o t : BitVec 2) (d a b : BitVec 7) (s : State) : Host.Outcome State Fault Refusal :=
  slot (.lscan o t d a b) s noPre fun c s =>
    let x := (s.warp c.gang c.warp).members' c.issue o.toNat t.toNat a.toNat b.toNat
    let r := (List.range 6).foldl (fun x j => scanStep o.toNat t.toNat j x) x
    .ok (s.postReduce c t.toNat d.toNat fun l => r.getD l 0)

end Sys2Proof.Machine
end

