-- ==== Sys2Proof/Machine/Issue.lean ====
section
/-! DEFINITION. Issue sets and the choices of a core: which sets are ready, which of them issue, which warp issues
(04 R74 to R79, R397; 08 R181, R182; 22 R362; 24 R373). -/

namespace Sys2Proof.Machine

/-- The key of a fibre: pc and window base (04 R74), with the progress of a REP, which keeps its set apart (08 R182). -/
structure Key where
  pc : Word
  w : Nat
  rep : Option Nat
  deriving DecidableEq, Repr, Inhabited

/-- A fibre's key. -/
def Fibre.key (f : Fibre) : Key := { pc := f.pc, w := f.w, rep := f.rep.map (·.1) }

/-- The order of keys (04 R75). Of fibres of one pc and W, some with progress saved within a REP and some with none, those with other progress
are sets of their own, in the order of the progress (08 R183; DESIGN CHOICE, log 96). -/
def Key.le (a b : Key) : Bool :=
  decide (a.pc.toNat < b.pc.toNat) || (a.pc == b.pc && (decide (a.w < b.w) || (a.w == b.w && a.rep.getD 0 ≤ b.rep.getD 0)))

/-- What a set would issue next: its members, key and age, the issue, its instruction or the fault it meets in fetching
or decoding, and whether its slot uses the engine port (04 R76). -/
structure Plan where
  key : Key
  age : Nat
  cur : Cur
  what : Except Flt Instr
  engine : Bool
  isRep : Bool
  deriving Inhabited

/-- The major opcodes that use the engine port (04 R76): XMMA, XACC, CPL, CPB, TGATH, SPLD, DFENCE. -/
def engineMaj (m : Nat) : Bool := [0x55, 0x56, 0x29, 0x2A, 0x57, 0x2E, 0x2F].contains m

/-- Whether a lane's fibre may issue: live, and in handler mode a member of H (24 R373). -/
def Warp.mayIssue (W : Warp) (l : Nat) : Bool :=
  (W.lane l).slot == .live && (!W.handler || (W.lane l).fib.inH)

/-- Puts a key in its place in a rising list without repeats. -/
def insertKeySorted (k : Key) : List Key → List Key
  | [] => [k]
  | j :: r => if j = k then j :: r else if Key.le k j then k :: j :: r else j :: insertKeySorted k r

/-- The keys of the warp's issue sets, ascending. -/
def Warp.keys (W : Warp) : List Key :=
  (laneIds.filter W.mayIssue).foldl (fun ks l => insertKeySorted (W.lane l).fib.key ks) []

/-- The members of an issue set. -/
def Warp.members (W : Warp) (k : Key) : List Nat :=
  laneIds.filter fun l => W.mayIssue l && (W.lane l).fib.key == k

/-- The plan of a set that meets a fault before it has an instruction; its slot uses the engine port by its MAJ alone. -/
def faultPlan (k : Key) (age : Nat) (c : Cur) (engine : Bool) (f : Flt) : Plan :=
  { key := k, age := age, cur := c, what := .error f, engine := engine, isRep := false }

/-- What the set of a key would issue (01 R16 to R27, R34; 08 R182, R183). -/
def State.plan (s : State) (g w : Nat) (k : Key) : Plan :=
  let G := s.gang g
  let W := G.warp w
  let ls := W.members k
  let age := ls.foldl (fun a l => max a (W.lane l).fib.age) 0
  let c0 : Cur := { gang := g, warp := w, core := G.coreOf W, set := ls, issue := [], pc := k.pc, stall := 0, guard := none, rep := none,
                    before := none }
  if !namesSlot k.pc then faultPlan k age c0 false (flt 1 4)
  else match s.fetchQuad (G.coreOf W) G.asid (quadOf k.pc) with
    | .error f => faultPlan k age c0 false (fltAll f.cls f.code ls f.aux k.pc)
    | .ok ws =>
      let sl := slotOf k.pc
      let h := ws.getD 0 0
      let word (j : Nat) := ws.getD j 0
      let held (l n : Nat) : Bool := holds (gcOf h n) (flagOf (W.lane l).fib.flags (fselOf h n))
      let guard (n : Nat) : Option Nat := if gcOf h n = 0 || gcOf h n = 15 then none else some (fselOf h n)
      let engine (n : Nat) : Bool := !secondWord ws n && engineMaj (majOf (word n))
      -- the slot of a REP word whose repeats are under way, or about to start
      let repSlot : Option Nat :=
        if majOf (word sl) = 0x7F then (if secondWord ws sl || 2 ≤ (fld h 30 2).toNat then none else some sl)
        else if k.rep.isSome && 2 ≤ sl && majOf (word (sl - 1)) = 0x7F then some (sl - 1) else none
      match repSlot with
      | some r =>
        let x := word r
        if repBad ws r (fld x 19 6).toNat (fld x 16 3).toNat (fld x 13 3).toNat then faultPlan k age c0 false (flt 1 3)
        else match decodeWord x 0 with
        | .error e => faultPlan k age c0 false (flt 1 e.value)
        | .ok i =>
          match i, decodeSlot ws (r + 1) with
          | .rep cnt stp str, .ok i =>
            let j := k.rep.getD 0
            let n := r + 1
            let pc := BitVec.ofNat 32 (quadOf k.pc + 4 * n)
            let iss := ls.filter fun l => match (W.lane l).fib.rep with
              | some (_, b) => b
              | none => held l n
            let c : Cur := { gang := g, warp := w, core := G.coreOf W, set := ls, issue := iss, pc := pc, stall := stallOf h n,
                             guard := if k.rep.isNone then guard n else none, rep := some (j, cnt.toNat), before := none }
            let what := match decodeWord (repWord (word n) (stepsUsed i stp.toNat) str.toNat j) (word (n + 1)) with
              | .ok i => .ok i
              | .error e => .error (flt 1 e.value)
            { key := k, age := age, cur := c, what := what, engine := engine n, isRep := k.rep.isNone }
          | i, _ =>
            -- the repeated slot's own cause: the REP word reports it
            { key := k, age := age, cur := { c0 with issue := ls, pc := BitVec.ofNat 32 (quadOf k.pc + 4 * r) }, what := .ok i,
              engine := engine (r + 1), isRep := false }
      | none =>
        let c : Cur := { c0 with issue := ls.filter fun l => held l sl, stall := stallOf h sl, guard := guard sl }
        match decodeSlot ws sl with
        | .error e => faultPlan k age c (engine sl) (flt 1 e.value)
        | .ok i => { key := k, age := age, cur := c, what := .ok i, engine := engine sl, isRep := false }

/-- The registers that await a scoreboarded result of a lane's own fibre (04 R84, R85): of its outstanding work, and of LRED
and LSCAN. -/
def State.scoreboard (s : State) (g w l : Nat) : List Tgt :=
  s.awaitedBy g w (·.owners.contains l) ++ (((s.warp g w).pend.filter fun p => p.sb && p.owners.contains l).map (·.tgt))

/-- Whether a fibre's own waits are over: its stall count, a YIELD, a fence (04 R74, 08 R181, 16 R296). -/
def Fibre.ready (f : Fibre) (now : Nat) : Bool :=
  decide (f.readyAt ≤ now) && f.fence.isNone && match f.yieldAt with
    | some t => decide (t + 16 ≤ now)
    | none => true

/-- Whether the set of a plan is ready (04 R74). -/
def State.planReady (s : State) (p : Plan) : Bool :=
  let c := p.cur
  let W := s.warp c.gang c.warp
  let now := s.now c.gang c.warp
  (c.set.all fun l => (W.lane l).fib.ready now) && !s.fetchHeld c.core (s.gang c.gang).asid (quadOf c.pc) && match p.what with
    | .error _ => true
    | .ok i =>
      (c.set.all fun l =>
        let sb := s.scoreboard c.gang c.warp l
        sb.isEmpty || !((s.tgtsOf i c l).any fun t => sb.contains t)) &&
        (i.check.isSome || c.issue.isEmpty || !s.entryWait i c)

/-- Whether a set of the warp is held back by YIELD (22 R362). -/
def Warp.yielding (W : Warp) (now : Nat) : Bool :=
  laneIds.any fun l => W.mayIssue l && match (W.lane l).fib.yieldAt with
    | some t => decide (now < t + 16)
    | none => false

/-- The ready sets of a warp in ascending key order; in serial mode only the set of its lowest live lane (04 R79), which in
handler mode is the lowest lane of H (24 R373; DEDUCED, log 74). -/
def State.readySets (s : State) (g w : Nat) : List Plan :=
  let W := s.warp g w
  let ks := if W.serial then
      ((laneIds.find? W.mayIssue).map fun l => (W.lane l).fib.key).toList
    else W.keys
  (ks.map fun k => s.plan g w k).filter s.planReady

/-- The plan of the greatest age; ties go to the lower key. -/
def oldest : List Plan → Plan → Plan
  | [], p => p
  | q :: r, p => oldest r (if p.age < q.age then q else p)

/-- The sets that issue (04 R77). -/
def choose (S : List Plan) : List Plan :=
  match S with
  | [] => []
  | P :: rest =>
    let O := oldest rest P
    if O.key ≠ P.key && 256 - S.length ≤ O.age then (if P.engine && O.engine then [O] else [P, O])
    else match rest with
      | [] => [P]
      | Q :: _ => if P.engine && Q.engine then [P] else [P, Q]

/-- The ages after an issue (04 R77): 0 in the sets that issued, one more in the other ready sets. -/
def Warp.agesAfter (W : Warp) (issued ready : List Plan) : Warp :=
  let at0 := (issued.map fun p => p.cur.set).flatten
  let more := (ready.map fun p => p.cur.set).flatten
  W.mapAll fun l L =>
    if at0.contains l then L.mapFib fun f => { f with age := 0 }
    else if more.contains l then L.mapFib fun f => { f with age := f.age + 1 }
    else L

/-- Whether a fibre stands at a REP word. -/
def State.atRep (s : State) (g w l : Nat) : Bool :=
  match s.standing g w l with
  | some (.rep ..) => true
  | _ => false

/-- Fibres that reach a REP word while others of the same window are between its repeats park under REP hold (08 R182). Where
the progress of the busy set is dropped (24 R375), no last repeat comes and they stay held (DEDUCED, log 75). -/
def State.holdReps (s : State) (g w : Nat) : State :=
  let W := s.warp g w
  let busy := laneIds.filter fun l => (W.lane l).holds && (W.lane l).fib.rep.isSome
  let late := if busy.isEmpty then [] else laneIds.filter fun l =>
    (W.lane l).slot == .live && (W.lane l).fib.rep.isNone && s.atRep g w l && busy.any fun m =>
      ((W.lane m).fib.pc == (W.lane l).fib.pc || (W.lane m).fib.pc == (W.lane l).fib.pc + 4) &&
        (W.lane m).fib.w == (W.lane l).fib.w
  if late.isEmpty then s
  else s.mapWarp g w fun W => W.mapLanes late fun _ L => { L with slot := .parked .repHold }

/-- Whether a warp of a running gang may issue at all: it is not retired and has no trap to enter. -/
def State.canIssue (s : State) (g w : Nat) : Bool :=
  (s.gang g).phase == .running && (s.warp g w).cause.isNone && !(s.warp g w).retired

/-- The standing of a warp (22 R362). -/
def State.standingOf (s : State) (g w : Nat) : Nat :=
  if (s.warp g w).raised || 1024 ≤ (s.warp g w).candidate then 8 else (s.gang g).prio

/-- Whether warp a is chosen before warp b: the higher standing, then the older last issue, then the lower warp slot. -/
def State.before (s : State) (a b : Nat × Nat) : Bool :=
  let x := s.standingOf a.1 a.2
  let y := s.standingOf b.1 b.2
  let m := (s.warp a.1 a.2).lastIssue
  let n := (s.warp b.1 b.2).lastIssue
  decide (y < x) || (x == y && (decide (m < n) || (m == n && decide ((s.warp a.1 a.2).warpSlot ≤ (s.warp b.1 b.2).warpSlot))))

/-- The first of some warps in the order of choice. -/
def State.firstWarp (s : State) : List (Nat × Nat) → Option (Nat × Nat)
  | [] => none
  | a :: r =>
    match s.firstWarp r with
    | none => some a
    | some b => if s.before a b then some a else some b

/-- The candidates of a core with their ready sets (22 R362). -/
def State.candidates (s : State) (core : Nat) : List ((Nat × Nat) × List Plan) :=
  ((s.onCore core).filterMap fun p =>
    if s.canIssue p.1 p.2 && !(s.warp p.1 p.2).yielding (s.coreSt core).cycle then
      match s.readySets p.1 p.2 with
      | [] => none
      | ps => some (p, ps)
    else none)

end Sys2Proof.Machine
end

