-- ==== Sys2Proof/Machine/Control.lean ====
section
/-! DEFINITION. Fibres, divergence, rejoin, barriers, monitors, code synchronisation, REP, TRAP and RETT
(08 R163 to R186, 01 R27, 24 R374, R375). -/

namespace Sys2Proof.Machine

/-- CTRL.HMODE where handler mode forbids the instruction (08 R166, 24 R373). -/
def noHandler : Cur → State → Option Flt := fun c s => if (s.warp c.gang c.warp).handler then some (flt 4 3) else none

/-- The lanes of the issue under way changed in its warp. -/
def State.onLanes (s : State) (c : Cur) (ls : List Nat) (f : Nat → Lane → Lane) : State :=
  s.mapWarp c.gang c.warp fun W => W.mapLanes ls f

/-- A displacement target: quads from a slot's quad, and a slot (01 R23). Code addresses are 32 bits wide (DEDUCED, log 30). -/
def target (pc : Word) (off : Word) (sl : Nat) : Word := BitVec.ofNat 32 (quadOf pc) + (off <<< 4) + BitVec.ofNat 32 (4 * sl)

/-- The B-form target. -/
def bTarget (pc : Word) (sl : BitVec 2) (off : BitVec 23) : Word := target pc (off.signExtend 32) sl.toNat

/-- The target of an X word's displacement (01 R23, 08 R171). -/
def xTarget (pc : Word) (x : BitVec 16) : Word := target pc ((fld x 0 14).signExtend 32) (fld x 14 2).toNat

/-- The fault of a transfer: the first of INSN.PAIR and INSN.SLOT that some lane of ISSUE meets (08 R167, 01 R34). -/
def State.jumpFault (s : State) (c : Cur) (tgt : Nat → Word) : Option Flt :=
  let core := s.coreOf c.gang c.warp
  let codes := c.issue.filterMap fun l => s.targetCode core (s.gang c.gang).asid (tgt l)
  if codes.contains 2 then some (flt 1 2) else if codes.contains 4 then some (flt 1 4) else none

/-- The lanes of ISSUE go to their targets (08 R168, R170); a stale loop buffer may be dropped (R185). -/
def State.jump (s : State) (c : Cur) (tgt : Nat → Word) : State :=
  let core := s.coreOf c.gang c.warp
  let asid := (s.gang c.gang).asid
  (s.onLanes c c.issue fun l L => L.mapFib fun f => { f with pc := tgt l }).backTransfers core asid
    (c.issue.map fun l => (c.pc, tgt l))

/-- BRA (08 R168). -/
def execBra (sl : BitVec 2) (o : BitVec 23) (s : State) : Host.Outcome State Fault Refusal :=
  slot (.bra sl o) s noPre fun c s =>
    match s.jumpFault c fun _ => bTarget c.pc sl o with
    | some f => .error f
    | none => .ok (s.jump c fun _ => bTarget c.pc sl o)

/-- SPTR moved by a stack instruction: at once for later stack instructions, 4 cycles later for an `srd` (09 R195; DEDUCED,
log 22). -/
def State.moveSptr (s : State) (c : Cur) (f : Lane → Word) : State :=
  let W := s.warp c.gang c.warp
  let s1 := s.onLanes c c.issue fun _ L => { L with sptr := f L }
  s1.post c 4 (c.issue.map fun l => (.seen l, (f (W.lane l)).setWidth 64))

/-- CTRL.STACK of the lowest lane of ISSUE that fails a test, with a FADDR (08 R168, 09 R196, R197). -/
def State.stackFault (s : State) (c : Cur) (bad : Lane → Bool) (faddr : Lane → Word) : Option Flt :=
  let W := s.warp c.gang c.warp
  (c.issue.find? fun l => bad (W.lane l)).map fun l => fltAt 4 1 l 0 (faddr (W.lane l))

/-- The return record of a lane (08 R168). -/
def returnRecord (w : Nat) (rpc : Word) : List Byte := leBytes 8 (w * 2 ^ 32 + rpc.toNat)

/-- CALL (08 R168; DEDUCED, log 28). -/
def execCall (sl : BitVec 2) (o : BitVec 23) (s : State) : Host.Outcome State Fault Refusal :=
  slot (.call sl o) s noPre fun c s =>
    match s.stackFault c (fun L => (s.warp c.gang c.warp).slim.toNat < L.sptr.toNat + 8) (·.sptr) with
    | some f => .error f
    | none =>
      match s.jumpFault c fun _ => bTarget c.pc sl o with
      | some f => .error f
      | none =>
        let s1 := s.onLanes c c.issue fun _ L =>
          { L with stack := Memory.putBytes L.stack L.sptr.toNat (returnRecord L.fib.w (nextPc c.pc)) }
        .ok ((s1.moveSptr c fun L => L.sptr + 8).jump c fun _ => bTarget c.pc sl o)

/-- The record below a lane's SPTR: its RW and RPC. -/
def Lane.record (L : Lane) : Nat × Word :=
  let v := leNat (Memory.bytes L.stack (L.sptr.toNat - 8) 8)
  (v / 2 ^ 32 % 2 ^ 16, BitVec.ofNat 32 v)

/-- RET (08 R169): CTRL.STACK, then REG.WINDOW, then the target's fault. -/
def execRet (s : State) : Host.Outcome State Fault Refusal :=
  slot .ret s noPre fun c s =>
    let W := s.warp c.gang c.warp
    if c.issue.any fun l => (W.lane l).sptr.toNat < 8 then .error (flt 4 1)
    else if c.issue.any fun l => (W.lane l).record.1 % 8 ≠ 0 || W.space - 8 < (W.lane l).record.1 then .error (flt 3 1)
    else match s.jumpFault c fun l => (W.lane l).record.2 with
      | some f => .error f
      | none =>
        let s1 := s.onLanes c c.issue fun _ L => L.mapFib fun f => { f with w := L.record.1 }
        .ok ((s1.moveSptr c fun L => L.sptr - 8).jump c fun l => (W.lane l).record.2)

/-- JMPR (08 R170). -/
def execJmpr (a : BitVec 7) (s : State) : Host.Outcome State Fault Refusal :=
  slot (.jmpr a) s noPre fun c s =>
    let W := s.warp c.gang c.warp
    match s.jumpFault c fun l => W.get l a.toNat with
    | some f => .error f
    | none => .ok (s.jump c fun l => W.get l a.toNat)

/-- The lanes of ISSUE park at their instruction (08 R163); lanes outside it have moved on. -/
def State.parkLanes (s : State) (c : Cur) (ls : List Nat) (p : Nat → Park) : State :=
  s.onLanes c ls fun l L => { L with slot := .parked (p l), fib := { L.fib with pc := c.pc } }

/-- The rejoin table after lanes park with a mask (08 R174): a new mask takes an entry, or, with all 16 in use, is held
outside and the warp enters serial mode. -/
def Warp.enterMask (W : Warp) (m : DWord) : Warp :=
  if W.rejoinTab.contains m || W.rejoinOut.contains m then W
  else if W.rejoinTab.length < 16 then { W with rejoinTab := W.rejoinTab ++ [m] }
  else { W with rejoinOut := W.rejoinOut ++ [m], serial := true }

/-- REJOIN (08 R173, R174). -/
def execRejoin (b : BitVec 7) (x : BitVec 16) (s : State) : Host.Outcome State Fault Refusal :=
  slot (.rejoin b x) s noHandler fun c s =>
    let m := (s.warp c.gang c.warp).s b.toNat
    let tgt := xTarget c.pc x
    let stay := c.issue.filter fun l => m.getLsbD l
    let go := c.issue.filter fun l => !m.getLsbD l
    let s1 := (s.onLanes c go fun _ L => L.mapFib fun f => { f with pc := tgt }).backTransfers
      (s.coreOf c.gang c.warp) (s.gang c.gang).asid (go.map fun _ => (c.pc, tgt))
    let s2 := s1.parkLanes c stay fun _ => .rejoin m tgt
    let s3 := if stay.isEmpty then s2 else s2.mapWarp c.gang c.warp fun W => W.enterMask m
    .ok (s3.settle c.gang)

/-- The free slots that FSPAWN's lanes take, as (parent, spawn index, slot), and the counts (08 R171). -/
def spawnPlan (n : Nat → Nat) : List Nat → List Nat → List (Nat × Nat × Nat) × List (Nat × Nat)
  | [], _ => ([], [])
  | i :: r, free =>
    let k := min (n i) free.length
    let (xs, cs) := spawnPlan n r (free.drop k)
    (((free.take k).mapIdx fun j l => (i, j, l)) ++ xs, (i, k) :: cs)

/-- Whether a target is state of a fibre in some slots: a flag register, W, SPTR, or what SRD shows of SPTR. -/
def Tgt.ofFibre (t : Tgt) (ls : List Nat) : Bool :=
  match t with
  | .flag l _ | .wbase l | .sptr l | .seen l => ls.contains l
  | _ => false

/-- FSPAWN (08 R171): the slots are taken at issue; the fibres live, and D, v0 and v1 are written, 4 cycles later. A new fibre starts with
f0 to f3 and SPTR = 0 and its parent's W, so what its slot's last fibre still had on its way to its own gives way. -/
def execFspawn (d a : BitVec 7) (x : BitVec 16) (s : State) : Host.Outcome State Fault Refusal :=
  slot (.fspawn d a x) s noHandler fun c s =>
    let W := s.warp c.gang c.warp
    let now := s.now c.gang c.warp
    let free := laneIds.filter fun l => (W.lane l).slot == .free
    let (xs, cs) := spawnPlan (fun i => min (W.get i a.toNat).toNat warpw) c.issue free
    let late (t : Tgt) : Bool := t.ofFibre (xs.map (·.2.2))
    let s0 := (s.giveWay c.gang c.warp (fun _ => true) late).mapWarp c.gang c.warp fun W => W.giveWay late
    let s1 := s0.onLanes c (xs.map (·.2.2)) fun l L =>
      let i := ((xs.find? fun t => t.2.2 == l).map (·.1)).getD 0
      { L with slot := .nascent, sptr := 0, sptrSeen := 0,
               fib := { pc := xTarget c.pc x, w := (W.lane i).fib.w, flags := 0, age := 0, readyAt := now + 4, yieldAt := none,
                        fence := none, rep := none, inH := false, saved := none } }
    let s2 := { s1 with monitors := s1.monitors.filter fun m =>
      !(m.ctx == c.gang && m.warp == c.warp && xs.any fun t => t.2.2 == m.lane) }
    let born := (xs.map fun t =>
      let w := (W.lane t.1).fib.w
      [(Tgt.reg t.2.2 w, BitVec.ofNat 64 t.2.1), (.reg t.2.2 (w + 1), BitVec.ofNat 64 t.1), (.birth t.2.2, 0)]).flatten
    let cnt := cs.map fun p => W.put p.1 d.toNat (BitVec.ofNat 32 p.2)
    .ok ((s2.post c 4 (cnt ++ born)).settle c.gang)

/-- The outstanding work of some lanes of a warp belongs to no fibre any more: it completes, and nothing waits for it as its own
(08 R172, 04 R85). -/
def State.disown (s : State) (g w : Nat) (ls : List Nat) : State :=
  let f (os : List Work) : List Work := os.map fun o =>
    if o.ctx = g && o.warp = w then { o with owners := o.owners.filter fun l => !ls.contains l } else o
  let t := s.mapGang g fun G => { G with ops := f G.ops, accs := f G.accs }
  { t.mapWarp g w (fun W => { W with pend := W.pend.map fun (p : Pend) =>
      { p with owners := p.owners.filter fun l => !ls.contains l } }) with idx := f t.idx, calls := f t.calls }

/-- The fibres of ISSUE end, and their slots become free or retired (08 R172). A slot that the first port's FEND frees may be taken
by an FSPAWN of the second port in the same cycle (DEDUCED, log 78). -/
def State.endFibres (s : State) (c : Cur) (st : Slot) : State :=
  let s1 := s.onLanes c c.issue fun _ L => { L with slot := st, fib := { L.fib with rep := none, fence := none, yieldAt := none } }
  let s2 := s1.disown c.gang c.warp c.issue
  let s3 := { s2 with monitors := s2.monitors.filter fun m =>
    !(m.ctx == c.gang && m.warp == c.warp && c.issue.contains m.lane) }
  s3.settle c.gang

/-- FEND (08 R172). -/
def execFend (s : State) : Host.Outcome State Fault Refusal :=
  slot .fend s noHandler fun c s => .ok (s.endFibres c .free)

/-- EXIT (08 R172). -/
def execExit (s : State) : Host.Outcome State Fault Refusal :=
  slot .exit s noHandler fun c s => .ok (s.endFibres c .retired)

/-- BAR (08 R176). -/
def execBar (k : BitVec 3) (i : BitVec 8) (s : State) : Host.Outcome State Fault Refusal :=
  slot (.bar k i) s noHandler fun c s =>
    .ok ((s.parkLanes c c.issue fun _ => .bar k.toNat i.toNat).settle c.gang)

/-- The monitor of a lane. -/
def State.monitor? (s : State) (g w l : Nat) : Option Monitor :=
  s.monitors.find? fun m => m.ctx == g && m.warp == w && m.lane == l

/-- The state without the monitor of a lane. -/
def State.dropMonitor (s : State) (g w l : Nat) : State :=
  { s with monitors := s.monitors.filter fun m => !(m.ctx == g && m.warp == w && m.lane == l) }

/-- A lane's monitor replaced by a new one. -/
def State.arm (s : State) (m : Monitor) : State :=
  { s.dropMonitor m.ctx m.warp m.lane with monitors := (s.dropMonitor m.ctx m.warp m.lane).monitors ++ [m] }

/-- The accesses that an LDR `.w32` of the lanes of ISSUE would make, or the fault that it would take at issue (08 R179, R186). -/
def State.watchRows (s : State) (c : Cur) (a b : BitVec 7) : Except Flt (List LaneAcc) :=
  let W := s.warp c.gang c.warp
  s.laneAccs c 4 .read (fun l => W.get64 l a.toNat) fun l => (W.get l b.toNat).toNat

/-- Where a line that an LDR would read is lost, or its check fails, the instruction takes the fault of that LDR, as its data would
return (24 R379, 20 R346). -/
def State.watchFault (s : State) (c : Cur) (i : Instr) (as : List LaneAcc) : State :=
  if as.any fun x => x.isBad s then s.startRead c i [] as (fun _ => []) fun _ => [] else s

/-- The monitor that an access arms for its lane (08 R179). -/
def LaneAcc.monitor (x : LaneAcc) (c : Cur) : Monitor :=
  { ctx := c.gang, warp := c.warp, lane := x.lane, asid := x.tab.asid, va := x.va, path := x.path, block := x.cells.headD 0 / 64 * 64,
    st := .armed }

/-- MWAIT `.watch` (08 R179). -/
def execMwaitWatch (a b : BitVec 7) (s : State) : Host.Outcome State Fault Refusal :=
  slot (.mwaitWatch a b) s noPre fun c s =>
    match s.watchRows c a b with
    | .error f => .error f
    | .ok as =>
      .ok ((as.filter fun x => !x.isBad s).foldl (fun t x => t.arm (x.monitor c)) (s.watchFault c (.mwaitWatch a b) as))

/-- MWAIT `.wait` (08 R180): lanes whose monitor is armed park; the others receive their reason. -/
def execMwaitWait (d a : BitVec 7) (s : State) : Host.Outcome State Fault Refusal :=
  slot (.mwaitWait d a) s noHandler fun c s =>
    let W := s.warp c.gang c.warp
    let now := s.now c.gang c.warp
    .ok (c.issue.foldl (fun t l =>
      let o := t.newWork c (.mwaitWait d a) [] []
      match t.monitor? c.gang c.warp l with
      | none => t.await o [W.put l d.toNat 3]
      | some m =>
        match m.st with
        | .fired => (t.dropMonitor c.gang c.warp l).await o [W.put l d.toNat 0]
        | .lost => (t.dropMonitor c.gang c.warp l).await o [W.put l d.toNat 1]
        | _ =>
          let n := (W.get l a.toNat).toNat
          let t1 := t.parkLanes c [l] fun _ => .mwait (if n = 0 then none else some (now + n)) o.id
          (t1.mapGang c.gang fun G => { G with accs := G.accs ++ [{ o with awaits := [W.loc l d.toNat], mark := 1 }] }).fresh) s)

/-- A lane parked at MWAIT `.wait` goes on with a reason, and its monitor returns to none (08 R180). -/
def State.mwaitRelease (s : State) (g w l reason : Nat) : State :=
  let now := s.now g w
  match ((s.warp g w).lane l).slot with
  | .parked (.mwait _ id) =>
    let t := match (s.gang g).accs.find? fun o => o.id == id with
      | some o => o.awaits
      | none => []
    let s1 := (s.dropMonitor g w l).mapGang g fun G => { G with accs := G.accs.filter fun o => o.id != id }
    s1.mapWarp g w fun W =>
      (t.foldl (fun V x => V.land1 x (BitVec.ofNat 64 reason)) W).mapLanes [l] fun _ L => L.resume now
  | _ => s

/-- The reason with which a lane parked at MWAIT `.wait` may go on: its monitor has fired or is lost, or its bound has passed (08 R180). Where
both hold in one cycle the monitor's state is the reason (DESIGN CHOICE, log 98). -/
def State.mwaitReason (s : State) (g w l : Nat) : Option Nat :=
  match ((s.warp g w).lane l).slot, (s.monitor? g w l).map (·.st) with
  | .parked (.mwait ..), some Mon.fired => some 0
  | .parked (.mwait ..), some Mon.lost => some 1
  | .parked (.mwait (some b) _), _ => if b ≤ s.now g w then some 2 else none
  | _, _ => none

/-- A lane parked at MWAIT `.wait` goes on if it may. -/
def State.mwaitWake (s : State) (g w l : Nat) : State :=
  match s.mwaitReason g w l with
  | some r => s.mwaitRelease g w l r
  | none => s

/-- MONITOR_FIRE (08 R179, R180): a lane whose monitor has fired, and that is parked at MWAIT `.wait`, goes on. -/
def execMonitorFire (ctx warp lane : Nat) (s : State) : Host.Outcome State Fault Refusal := .next (s.mwaitWake ctx warp lane)

/-- MWAIT_TIMEOUT (08 R180): a parked lane whose bound has passed goes on. -/
def execMwaitTimeout (ctx warp lane : Nat) (s : State) : Host.Outcome State Fault Refusal := .next (s.mwaitWake ctx warp lane)

/-- YIELD (08 R181). -/
def execYield (s : State) : Host.Outcome State Fault Refusal :=
  slot .yield s noPre fun c s =>
    let now := s.now c.gang c.warp
    .ok (s.onLanes c c.set fun _ L => L.mapFib fun f => { f with yieldAt := some now })

/-- YIELD_EXPIRY (08 R181): 16 cycles after a YIELD its set becomes ready again. -/
def execYieldExpiry (ctx warp lane : Nat) (s : State) : Host.Outcome State Fault Refusal :=
  match ((s.warp ctx warp).lane lane).fib.yieldAt with
  | some t =>
    if t + 16 ≤ s.now ctx warp then
      .next (s.mapWarp ctx warp fun W => W.mapLanes [lane] fun _ L => L.mapFib fun f => { f with yieldAt := none })
    else .next s
  | none => .next s

/-- SYNC `.isync` (08 R185, R186): the core's loop buffer is dropped. -/
def execSyncIsync (s : State) : Host.Outcome State Fault Refusal :=
  slot .syncIsync s noPre fun c s =>
    .ok (s.setLoop { core := s.coreOf c.gang c.warp, quads := [], stale := false })

/-- The lanes of ISSUE park until their SYNC completes (08 R186). -/
def State.startSync (s : State) (c : Cur) (i : Instr) (args : List Arg) (cells : List Nat) : State :=
  let o := { s.newWork c i args [] with cells := cells, mark := 1 }
  let s1 := s.parkLanes c c.issue fun _ => .sync o.id
  (s1.mapGang c.gang fun G => { G with accs := G.accs ++ [o] }).fresh

/-- SYNC `.icinv` (08 R186). -/
def execSyncIcinv (a b : BitVec 7) (s : State) : Host.Outcome State Fault Refusal :=
  slot (.syncIcinv a b) s noPre fun c s =>
    let W := s.warp c.gang c.warp
    .ok (s.startSync c (.syncIcinv a b) (W.args c.issue (fun _ => 0) (fun l => (W.get l a.toNat).setWidth 128)
      (fun l => (W.get l b.toNat).setWidth 128) fun _ => 0) [])

/-- SYNC `.dcwb` (08 R186). -/
def execSyncDcwb (a b : BitVec 7) (s : State) : Host.Outcome State Fault Refusal :=
  slot (.syncDcwb a b) s noPre fun c s =>
    match s.watchRows c a b with
    | .error f => .error f
    | .ok as => .ok ((s.watchFault c (.syncDcwb a b) as).startSync c (.syncDcwb a b) [] (as.map fun x => x.cells.headD 0))

/-- SYNC `.dcinv` (08 R186). -/
def execSyncDcinv (a b : BitVec 7) (s : State) : Host.Outcome State Fault Refusal :=
  slot (.syncDcinv a b) s noPre fun c s =>
    match s.watchRows c a b with
    | .error f => .error f
    | .ok as => .ok ((s.watchFault c (.syncDcinv a b) as).startSync c (.syncDcinv a b) [] (as.map fun x => x.cells.headD 0))

/-- The dirty copies of a block that a core's L1 holds, in every aperture tag, are written to the L2 slice, and stay clean; or the
core's copies are dropped (08 R186). A line of 128 bytes is written, or dropped, whole. -/
def Caches.clean (c : Caches) (core line : Nat) (drop : Bool) : Caches :=
  let mine := c.l1.filter fun e => e.core == core && e.line == line
  if drop then mine.foldl Caches.dropL1 c
  else
    let c1 := (mine.filter fun e => e.st == .m || e.st == .o).foldl
      (fun (d : Caches) e => if d.inL2 (core / 288) line then d.joinL2 (core / 288) line e.valid e.valid
        else d.writeHome { die := core / 288, line := line, valid := e.valid, dirty := e.valid, pa := e.pa, key := e.key }) c
    { c1 with l1 := c1.l1.map fun (e : L1Line) =>
        if e.core = core && e.line = line then
          { e with st := match e.st with | .m => .e | .o => .s | x => x }
        else e }

/-- What the completion of a SYNC does (08 R185, R186): invalidated quads leave every instruction cache and every loop
buffer is stale; a block's L1 copies of the core are written back or dropped. No value changes. -/
def State.syncEffect (s : State) (o : Work) : State :=
  let core := s.coreOf o.ctx o.warp
  let asid := (s.gang o.ctx).asid
  match o.instr with
  | .syncIcinv .. =>
    let hit (q : Nat) : Bool := o.args.any fun a =>
      decide (q < (a.a.toNat + a.b.toNat)) && decide (a.a.toNat < q + 16) && decide (0 < a.b.toNat)
    { s with icache := s.icache.filter fun l => !(l.asid == asid && hit l.quad),
             loops := s.loops.map fun (b : LoopBuf) => { b with stale := true } }
  | .syncDcwb .. =>
    s.putCaches (o.cells.foldl (fun c x => c.clean core (x / 128) false) s.caches)
  | .syncDcinv .. =>
    s.putCaches (o.cells.foldl (fun c x => c.clean core (x / 128) true) s.caches)
  | _ => s

/-- SYNC_COMPLETE (08 R186): the parked lanes go on. -/
def execSyncComplete (ctx warp sync : Nat) (s : State) : Host.Outcome State Fault Refusal :=
  match (s.gang ctx).accs.find? fun o => o.id == sync && o.warp == warp with
  | none => .next s
  | some o =>
    match o.instr with
    | .syncIcinv .. | .syncDcwb .. | .syncDcinv .. =>
      let now := s.now ctx warp
      let s1 := (s.syncEffect o).mapGang ctx fun G => { G with accs := G.accs.filter fun p => p.id != sync }
      .next (s1.mapWarp ctx warp fun W => W.mapAll fun _ L =>
        if L.slot = .parked (.sync sync) then L.resume now else L)
    | _ => .next s

/-- What the set finds at a REP word (01 R27): a fault of the word itself, a fault of the repeated slot, or none; and the guard of the
repeated slot, as condition and flag register. -/
def State.repCheck (s : State) (c : Cur) (cnt : BitVec 6) (stp str : BitVec 3) : Except Flt (Option Flt × Nat × Nat) :=
  match s.fetchQuad (s.coreOf c.gang c.warp) (s.gang c.gang).asid (quadOf c.pc) with
  | .error f => .error (fltAll f.cls f.code c.set f.aux c.pc)
  | .ok ws =>
    let k := slotOf c.pc
    if repBad ws k cnt.toNat stp.toNat str.toNat then .error (flt 1 3)
    else .ok (match decodeSlot ws (k + 1) with
      | .error e => some (flt 1 e.value)
      | .ok _ => none, gcOf (ws.getD 0 0) (k + 1), fselOf (ws.getD 0 0) (k + 1))

/-- REP (01 R27, 08 R182). The REP word takes no issue of its own: it evaluates the repeated slot's guard once in each
lane and stands before repeat 0, which issues in the same cycle. A fault of the repeated slot that its decoding finds is one in the repeat
that would issue, and saves that progress (08 R183). -/
def execRep (cnt : BitVec 6) (stp str : BitVec 3) (s : State) : Host.Outcome State Fault Refusal :=
  match s.cur with
  | none => .refused .noIssue
  | some c =>
    match s.repCheck c cnt stp str with
    | .error f => .next (s.raise c f)
    | .ok (bad, gc, k) =>
      let t := s.onLanes c c.set fun _ L => L.mapFib fun f => { f with rep := some (f.rep.getD (0, holds gc (flagOf f.flags k))) }
      .next (match bad with
        | none => t
        | some f => t.raise { c with pc := c.pc + 4 } f)

/-- TRAP (24 R374): the lanes of ISSUE take a trap of class SOFT; they resume at the slot that follows. -/
def execTrap (n : BitVec 8) (s : State) : Host.Outcome State Fault Refusal :=
  slot (.trap n) s noPre fun c s =>
    .ok (s.mapWarp c.gang c.warp fun W =>
      { W with cause := some { cls := 0x11, code := n, pc := nextPc c.pc, lanes := c.issue, words := [], masks := [],
                               stuck := false, atIssue := false } })

/-- RETT (24 R375). Its targets are checked once it has taken effect. -/
def execRett (s : State) : Host.Outcome State Fault Refusal :=
  slot .rett s (fun c s => if (s.warp c.gang c.warp).handler then none else some (flt 4 3)) fun c s =>
    let t := s.mapWarp c.gang c.warp fun W => W.leave c.issue
    let s1 := t.backTransfers (s.coreOf c.gang c.warp) (s.gang c.gang).asid
      (c.issue.map fun l => (c.pc, ((t.warp c.gang c.warp).lane l).fib.pc))
    .ok (match s1.rettCause c with
      | none => s1
      | some k => s1.mapWarp c.gang c.warp fun W => { W with cause := some k })

end Sys2Proof.Machine
end

