-- ==== Sys2Proof/Machine/KernelMemory.lean ====
section
/-! DEFINITION. Register blocks, stacks, cluster memory, firn and tiles (09 R188 to R206; 22 R352). -/

namespace Sys2Proof.Machine

/-- REGS `.wbase` (09 R190): the new window base is in force 4 cycles after issue. -/
def execRegsWbase (i : BitVec 8) (s : State) : Host.Outcome State Fault Refusal :=
  slot (.regsWbase i) s noPre fun c s =>
    let W := s.warp c.gang c.warp
    let new (l : Nat) : Int := (W.lane l).fib.w + 8 * i.toInt
    if c.issue.any fun l => decide (new l < 0) || decide ((W.space : Int) - 8 < new l) then .error (flt 3 1)
    else .ok (s.post c 4 (c.issue.map fun l => (.wbase l, BitVec.ofInt 64 (new l))))

/-- REGS_XACQ_GRANT (09 R191, R192). -/
def execRegsXacqGrant (core : Nat) (s : State) : Host.Outcome State Fault Refusal := .next (s.examine core)

/-- REGS `.xacq` (09 R191): refused at once beyond 12 blocks; otherwise the request joins the core's queue, the lanes park, and the
queue is examined. -/
def execRegsXacq (i : BitVec 8) (s : State) : Host.Outcome State Fault Refusal :=
  slot (.regsXacq i) s noHandler fun c s =>
    let W := s.warp c.gang c.warp
    let o := s.newWork c (.regsXacq i) [] []
    if 12 < W.x + i.toNat then .ok (s.await o (c.issue.map fun l => (.flag l 0, (nzcv false false false true).setWidth 64)))
    else
      let core := s.coreOf c.gang c.warp
      let k := s.coreSt core
      let s1 := (s.parkLanes c c.issue fun _ => .xacq o.id).setCore
        { k with xacq := k.xacq ++ [(o.id, c.gang, c.warp, i.toNat)] }
      .ok (((s1.mapGang c.gang fun G =>
        { G with accs := G.accs ++ [{ o with awaits := c.issue.map fun l => .flag l 0, mark := 1 }] }).fresh).examine core)

/-- REGS `.xrel` (09 R193): the blocks return to the pool, and the request queue is examined. The W that it checks is the fibres' own: one that
a `regs.wbase` is still to write lands after the check, which the spec does not rule out (DESIGN CHOICE, log 89). -/
def execRegsXrel (i : BitVec 8) (s : State) : Host.Outcome State Fault Refusal :=
  slot (.regsXrel i) s noHandler fun c s =>
    let W := s.warp c.gang c.warp
    if W.x < i.toNat then .error (flt 3 2)
    else if W.fibres.any fun l => W.space - 32 * i.toNat - 8 < (W.lane l).fib.w then .error (flt 3 1)
    else .ok ((s.mapWarp c.gang c.warp fun W =>
      { W.mapAll (fun _ L => { L with regs := L.regs.take (W.space - 32 * i.toNat) }) with x := W.x - i.toNat }).examine
        (s.coreOf c.gang c.warp))

/-- REGS `.xqry` (09 R194). A queue of more than 24 requests shows as 24, as the field's range has it (DEDUCED, log 80). -/
def execRegsXqry (d : BitVec 7) (s : State) : Host.Outcome State Fault Refusal :=
  slot (.regsXqry d) s noPre fun c s =>
    let W := s.warp c.gang c.warp
    let core := s.coreOf c.gang c.warp
    let v := BitVec.ofNat 32 (min (s.coreSt core).xacq.length 24 * 512 + min (s.poolFree core) 16 * 16 + min W.x 12)
    .ok (s.await (s.newWork c (.regsXqry d) [] []) (c.issue.map fun l => W.put l d.toNat v))

/-- FENTER (09 R196). -/
def execFenter (n : BitVec 8) (s : State) : Host.Outcome State Fault Refusal :=
  slot (.fenter n) s noPre fun c s =>
    let lim := (s.warp c.gang c.warp).slim.toNat
    match s.stackFault c (fun L => lim < L.sptr.toNat + 16 * n.toNat || L.sptr.toNat % 4 ≠ 0) (·.sptr) with
    | some f => .error f
    | none => .ok (s.moveSptr c fun L => L.sptr + BitVec.ofNat 32 (16 * n.toNat))

/-- FLEAVE (09 R196). -/
def execFleave (n : BitVec 8) (s : State) : Host.Outcome State Fault Refusal :=
  slot (.fleave n) s noPre fun c s =>
    match s.stackFault c (fun L => L.sptr.toNat < 16 * n.toNat || L.sptr.toNat % 4 ≠ 0) (·.sptr) with
    | some f => .error f
    | none => .ok (s.moveSptr c fun L => L.sptr - BitVec.ofNat 32 (16 * n.toNat))

/-- The base of FRM's frame slot k, and whether CTRL.STACK applies to n registers there (09 R197). A base below 0 stands in FADDR modulo
2^32 (DEDUCED, log 81). -/
def Lane.frmBase (L : Lane) (k : Nat) : Word := L.sptr - BitVec.ofNat 32 (64 * (k + 1))
def Lane.frmBad (L : Lane) (lim n k : Nat) : Bool :=
  L.sptr.toNat < 64 * (k + 1) || lim < L.sptr.toNat - 64 * (k + 1) + 4 * n || L.sptr.toNat % 4 ≠ 0

/-- FRM `.ld` (09 R197). -/
def execFrmLd (n k : BitVec 4) (d : BitVec 7) (s : State) : Host.Outcome State Fault Refusal :=
  slot (.frmLd n k d) s noPre fun c s =>
    let W := s.warp c.gang c.warp
    match s.stackFault c (fun L => L.frmBad W.slim.toNat (n.toNat + 1) k.toNat) (·.frmBase k.toNat) with
    | some f => .error f
    | none =>
      let vals := (c.issue.map fun l => (List.range (n.toNat + 1)).map fun j =>
        W.put l (d.toNat + j) (BitVec.ofNat 32
          (leNat (Memory.bytes (W.lane l).stack (((W.lane l).frmBase k.toNat).toNat + 4 * j) 4)))).flatten
      .ok (s.await (s.newWork c (.frmLd n k d) [] []) vals)

/-- FRM `.st` (09 R197). -/
def execFrmSt (n k : BitVec 4) (a : BitVec 7) (s : State) : Host.Outcome State Fault Refusal :=
  slot (.frmSt n k a) s noPre fun c s =>
    let W := s.warp c.gang c.warp
    match s.stackFault c (fun L => L.frmBad W.slim.toNat (n.toNat + 1) k.toNat) (·.frmBase k.toNat) with
    | some f => .error f
    | none =>
      let bytes (l : Nat) := ((List.range (n.toNat + 1)).map fun j => leBytes 4 (W.get l (a.toNat + j)).toNat).flatten
      .ok (s.onLanes c c.issue fun l L =>
        { L with stack := Memory.putBytes L.stack (L.frmBase k.toNat).toNat (bytes l) })

/-- The checks of a share access (09 R200): RANGE, then ALIGN, of the lowest faulting lane. `cls` is CMEM or FIRN. Of an offset of 2^32
or more FADDR holds the low 32 bits (DEDUCED, log 81). -/
def shareFault (cls : BitVec 8) (size e : Nat) (ls : List Nat) (off : Nat → Nat) : Option Flt :=
  (ls.find? fun l => size < off l + e || off l % e ≠ 0).map fun l =>
    fltAt cls (if size < off l + e then 1 else 2) l 0 (BitVec.ofNat 32 (off l))

/-- A load from a share, in format `f`, into register `d` (09 R199). It reads at its issue, which 09 R201 does not ask for (DESIGN CHOICE, log
99). One from the firn wakes its bank, and waits for it (24 R386). -/
def State.loadShare (s : State) (c : Cur) (i : Instr) (firn : Bool) (f d : Nat) (off : Warp → Nat → Nat) : Except Flt State :=
  let G := s.gang c.gang
  let W := G.warp c.warp
  let mem := if firn then G.firn else G.cmem
  match shareFault (if firn then 9 else 8) (if firn then G.launch.firn else G.launch.cmem) (esize f) c.issue (off W) with
  | some x => .error x
  | none =>
    let cells := if firn then G.firnCells (esize f) (c.issue.map (off W)) else []
    .ok ((s.wakeAll cells).await
      { s.newWork c i (W.args c.issue (fun _ => 0) (fun _ => 0) (fun _ => 0) fun _ => 0) [] with cells := cells }
      (c.issue.map fun l => W.putWords l d (fmtRegs f) (loadConv f (leNat (Memory.bytes mem (off W l) (esize f))))).flatten)

/-- Stores to a share, lane by lane in ascending order (09 R199, R201). -/
def storeAll (m : List Host.Cell) (f : Nat) (xs : List (Nat × QWord)) : List Host.Cell :=
  xs.foldl (fun m x => Memory.putBytes m x.1 (leBytes (esize f) (storeConv f x.2))) m

/-- A store to a share, in format `f`, from register `d`. It acts at its issue, and every warp sees it from then on, which 09 R201 does not ask
for (DESIGN CHOICE, log 99). One to the firn wakes its bank, and waits for it (24 R386). -/
def State.storeShare (s : State) (c : Cur) (i : Instr) (firn : Bool) (f d : Nat) (off : Warp → Nat → Nat) : Except Flt State :=
  let G := s.gang c.gang
  let W := G.warp c.warp
  match shareFault (if firn then 9 else 8) (if firn then G.launch.firn else G.launch.cmem) (esize f) c.issue (off W) with
  | some x => .error x
  | none =>
    let xs := c.issue.map fun l => (off W l, W.data l d f)
    let cells := if firn then G.firnCells (esize f) (c.issue.map (off W)) else []
    .ok (((s.wakeAll cells).mapGang c.gang fun G =>
      if firn then { G with firn := storeAll G.firn f xs } else { G with cmem := storeAll G.cmem f xs }).linger c i cells [])

/-- The offset A + B of an R form (09 R199). -/
def offR (a b : BitVec 7) (W : Warp) (l : Nat) : Nat := (W.get l a.toNat).toNat + (W.get l b.toNat).toNat

/-- The offset A + e x IMM8 of an I form. -/
def offI (f : Nat) (a : BitVec 7) (i : BitVec 8) (W : Warp) (l : Nat) : Nat := (W.get l a.toNat).toNat + esize f * i.toNat

/-- LDL (09 R199). -/
def execLdl (f : BitVec 4) (d a b : BitVec 7) (s : State) : Host.Outcome State Fault Refusal :=
  slot (.ldl f d a b) s noPre fun c s => s.loadShare c (.ldl f d a b) false f.toNat d.toNat (offR a b)

/-- STL (09 R199). -/
def execStl (f : BitVec 4) (d a b : BitVec 7) (s : State) : Host.Outcome State Fault Refusal :=
  slot (.stl f d a b) s noPre fun c s => s.storeShare c (.stl f d a b) false f.toNat d.toNat (offR a b)

/-- LDF (09 R199). -/
def execLdf (f : BitVec 4) (d a b : BitVec 7) (s : State) : Host.Outcome State Fault Refusal :=
  slot (.ldf f d a b) s noPre fun c s => s.loadShare c (.ldf f d a b) true f.toNat d.toNat (offR a b)

/-- STF (09 R199). -/
def execStf (f : BitVec 4) (d a b : BitVec 7) (s : State) : Host.Outcome State Fault Refusal :=
  slot (.stf f d a b) s noPre fun c s => s.storeShare c (.stf f d a b) true f.toNat d.toNat (offR a b)

/-- LDLI (09 R199). -/
def execLdli (f : BitVec 3) (i : BitVec 8) (d a : BitVec 7) (s : State) : Host.Outcome State Fault Refusal :=
  slot (.ldli f i d a) s noPre fun c s =>
    s.loadShare c (.ldli f i d a) false (iFmt f.toNat) d.toNat (offI (iFmt f.toNat) a i)

/-- STLI (09 R199). -/
def execStli (f : BitVec 3) (i : BitVec 8) (d a : BitVec 7) (s : State) : Host.Outcome State Fault Refusal :=
  slot (.stli f i d a) s noPre fun c s => s.storeShare c (.stli f i d a) false (iFmt f.toNat) d.toNat (offI (iFmt f.toNat) a i)

/-- TILE.NUM (09 R202). -/
def State.tileOf (s : State) (c : Cur) (v : DWord) : Except Flt Tile :=
  match (s.gang c.gang).tileNum v with
  | none => .error (flt 7 1)
  | some t => .ok t

/-- Tile table entries in use in the cluster of a gang (09 R202). -/
def State.tilesUsed (s : State) (G : Gang) : Nat :=
  (s.residents.filter fun g => (s.gang g).place.id / 4 == G.place.id / 4).foldl (fun n g => n + (s.gang g).tiles.length) 0

/-- TILE `.def` (09 R204). sD is scoreboarded (DEDUCED, log 16). An entry that pre-emption holds for a gang is not free (22 R364). -/
def execTileDef (d a : BitVec 7) (s : State) : Host.Outcome State Fault Refusal :=
  slot (.tileDef d a) s noPre fun c s =>
    let G := s.gang c.gang
    let v := (G.warp c.warp).s a.toNat
    if 8 ≤ tileTf v || fld v 48 16 ≠ 0 || fld v 20 8 ≠ 0 then .error (flt 7 3)
    else if G.launch.cmem < tileBase v + tileBytes v then .error (flt 8 1)
    else
      let o := s.newWork c (.tileDef d a) [] []
      match (List.range 256).find? fun n => (G.tile? n).isNone with
      | some n =>
        let t := s.mapGang c.gang fun G => { G with tiles := G.tiles ++ [{ num := n, desc := v, st := .empty }] }
        if s.tilesUsed G < Config.tileEntries && s.keepsRoom t c.gang (s.coreOf c.gang c.warp / 16) then
          .ok (t.await o [(.sreg d.toNat, BitVec.ofNat 64 n)])
        else .ok (s.await o [(.sreg d.toNat, BitVec.allOnes 64)])
      | none => .ok (s.await o [(.sreg d.toNat, BitVec.allOnes 64)])

/-- The code of a tile's state (09 R204). -/
def TileState.code : TileState → Nat
  | .empty => 0
  | .filling => 1
  | .ready => 2
  | .draining => 3

/-- TILE `.qry` (09 R204). -/
def execTileQry (d a : BitVec 7) (s : State) : Host.Outcome State Fault Refusal :=
  slot (.tileQry d a) s noPre fun c s =>
    let W := s.warp c.gang c.warp
    (s.tileOf c (W.s a.toNat)).map fun t =>
      s.await (s.newWork c (.tileQry d a) [] []) (c.issue.map fun l => W.put l d.toNat (BitVec.ofNat 32 t.st.code))

/-- TILE `.set` (09 R204). -/
def execTileSet (v : BitVec 1) (a : BitVec 7) (s : State) : Host.Outcome State Fault Refusal :=
  slot (.tileSet v a) s noPre fun c s =>
    (s.tileOf c ((s.warp c.gang c.warp).s a.toNat)).map fun t =>
      s.mapGang c.gang fun G => G.setTile t.num (if v = 1 then .ready else .empty)

/-- TILE `.free` (09 R204). -/
def execTileFree (a : BitVec 7) (s : State) : Host.Outcome State Fault Refusal :=
  slot (.tileFree a) s noPre fun c s =>
    (s.tileOf c ((s.warp c.gang c.warp).s a.toNat)).map fun t =>
      s.mapGang c.gang fun G => { G with tiles := G.tiles.filter fun u => u.num != t.num }

end Sys2Proof.Machine
end

