-- ==== Sys2Proof/Machine/Engines.lean ====
section
/-! DEFINITION. Counters, lane and bulk copies, DFENCE, the producer slot and the queues (10 R208 to R230). -/

namespace Sys2Proof.Machine

/-- The engine operation of a number. -/
def Gang.op? (G : Gang) (id : Nat) : Option Work := G.ops.find? fun o => o.id == id

/-- The gang without an operation. -/
def Gang.dropOp (G : Gang) (id : Nat) : Gang := { G with ops := G.ops.filter fun o => o.id != id }

/-- The gang with an operation changed. -/
def Gang.mapOp (G : Gang) (id : Nat) (f : Work → Work) : Gang :=
  { G with ops := G.ops.map fun o => if o.id = id then f o else o }

/-- Whether an operation's engine may write before it completes: the lane and bulk copies (10 R216, R219). A fill by TGATH or XACC `.tile`
makes all its writes at its completion, which 09 R206 allows and does not ask for (DESIGN CHOICE, log 19). Their `cells` number the writes
already made. -/
def writesEarly (i : Instr) : Bool :=
  match i with
  | .cpl .. | .cpb .. => true
  | _ => false

/-- An engine operation completes (10 R209, R211): its accesses are noted, the writes it has not made yet are made, then comes the
tile, and the lanes whose WAITC waited for it go on. -/
def State.finishOp (s : State) (o : Work) (ws : List EngWrite) (f : Gang → Gang) : State :=
  let left := (ws.zipIdx.filter fun p => !(writesEarly o.instr && o.cells.contains p.2)).map (·.1)
  ((s.noteOp o left).engWrites o.ctx left).mapGang o.ctx fun G => (f (G.dropOp o.id)).releaseWaitc (s.now o.ctx)

/-- Whether two writes of an engine touch a common byte. -/
def EngWrite.meets (x y : EngWrite) : Bool :=
  match x, y with
  | .row _ cs _, .row _ ds _ => cs.any fun c => ds.any fun d => c.1 == d.1
  | .cmem a bs _, .cmem b ds _ | .firn a bs _, .firn b ds _ => decide (a < b + ds.length) && decide (b < a + bs.length)
  | _, _ => false

/-- Whether an offset of the gang's cluster memory lies in a tile that is filling or draining. -/
def Gang.inBusyTile (G : Gang) (off : Nat) : Bool :=
  G.tiles.any fun t => (t.st == .filling || t.st == .draining) && decide (tileBase t.desc ≤ off) &&
    decide (off < tileBase t.desc + tileBytes t.desc)

/-- The number of the writes that a write is made with, 0 for none. -/
def EngWrite.group (w : EngWrite) : Nat :=
  match w with
  | .row _ _ g | .cmem _ _ g | .firn _ _ g => g
  | _ => 0

/-- Whether a write goes with another: both lie in one aligned 32-bit word, which no access sees half written (10 R216, R219), or in one
aligned 16 bytes of a filling or draining tile, no element of which is seen half written (09 R206), or have parts of one word or element of
the source. -/
def Gang.together (G : Gang) (x y : EngWrite) : Bool :=
  x.word == y.word || (x.group != 0 && x.group == y.group) || match x, y with
    | .cmem a _ _, .cmem b _ _ => a / 16 == b / 16 && G.inBusyTile a
    | _, _ => false

/-- The writes that an engine makes when it makes the k-th before the operation completes: those that go with one of them, and, before any of
these, the earlier ones to the same bytes, so that what the effect writes last remains (09 R206, 10 R215). -/
def Gang.earlySet (G : Gang) (o : Work) (ws : List EngWrite) (k : Nat) : List Nat :=
  let at' (i : Nat) : EngWrite := ws.getD i (.cmem 0 [] 0)
  let undone := (List.range ws.length).filter fun i => !o.cells.contains i
  undone.foldl (fun set _ => undone.filter fun i =>
    set.any fun j => i == j || G.together (at' i) (at' j) || (decide (i < j) && (at' i).meets (at' j))) [k]

/-- An engine makes a write of an operation that has not completed (10 R216, R219; DEDUCED, log 19). Its `mark` says that it has begun,
and so, of a bulk read of a sealed table, that its blocks have been checked (10 R220). -/
def State.engineEarly (s : State) (g id k : Nat) : State :=
  match (s.gang g).op? id with
  | none => s
  | some o =>
    if !writesEarly o.instr || o.fault.isSome || o.cells.contains k then s
    else if s.opHeld o then s.wakeOp o
    else match s.opEffect o with
      | .error _ => s
      | .ok ws =>
        if ws.length ≤ k then s
        else
          let ks := (s.gang g).earlySet o ws k
          let now := ks.filterMap fun i => ws[i]?
          ((s.noteOp o now).engWrites g now).mapGang g fun G =>
            G.mapOp id fun (o : Work) => { o with cells := o.cells ++ ks, mark := 1 }

/-- CPL's checks of a lane after its window, in order (10 R214). -/
def cplFault (G : Gang) (W : Warp) (op : Nat) (d b : BitVec 7) (l : Nat) : Option Flt :=
  let v := W.get l b.toNat
  let lo := W.get l d.toNat
  let cls : BitVec 8 := if op ≤ 1 then 8 else 9
  if 32 < v.toNat then some (fltAt 0x0A 3 l 0 v)
  else if (if op ≤ 1 then G.launch.cmem else G.launch.firn) < lo.toNat + 32 then some (fltAt cls 1 l 0 lo)
  else if lo.toNat % 32 ≠ 0 then some (fltAt cls 2 l 0 lo)
  else none

/-- CPL (10 R213 to R216). -/
def execCpl (g : BitVec 2) (d a b : BitVec 7) (o : BitVec 4) (cc : BitVec 7) (x : BitVec 16) (s : State) :
    Host.Outcome State Fault Refusal :=
  slot (.cpl g d a b o cc x) s noPre fun c s =>
    let G := s.gang c.gang
    let W := G.warp c.warp
    match c.issue.findSome? (cplFault G W o.toNat d b) with
    | some f => .error f
    | none =>
      let r (n : BitVec 7) (l : Nat) : QWord := (W.get l n.toNat).setWidth 128
      let args := W.args c.issue (r d) (fun l => (W.get64 l a.toNat).setWidth 128) (r b) (r cc)
      .ok (s.count (s.newWork c (.cpl g d a b o cc x) args []) g.toNat)

/-- CPL_COMPLETE (10 R215). An operation whose row side faults does not complete (R212). -/
def execCplComplete (ctx op : Nat) (s : State) : Host.Outcome State Fault Refusal :=
  match (s.gang ctx).op? op with
  | none => .next s
  | some o =>
    match o.instr, o.fault, s.opEffect o with
    | .cpl .., none, .ok ws => if s.opHeld o then .next (s.wakeOp o) else .next (s.finishOp o ws id)
    | _, _, _ => .next s

/-- ENGINE.MASK (10 R217): ISSUE must hold every slot of the warp that holds a fibre. -/
def needsAll : Cur → State → Option Flt := fun c s =>
  if (s.warp c.gang c.warp).fibres.all fun l => c.issue.contains l then none else some (flt 0x0A 1)

/-- The combinations of row and tile formats that CPB accepts (10 R218). -/
def cpbFormats (f : Nat) (d : DWord) : Bool :=
  let tf := tileTf d
  if f ≤ 2 then tileCols d * tfBits tf % 8 == 0
  else if f ≤ 6 then tf == 0 || (f ≤ 4 && tf == 5)
  else tf == 0 || tf + 6 == f

/-- CPB (10 R217 to R219). -/
def execCpb (m : BitVec 4) (d a : BitVec 7) (f : BitVec 4) (x : BitVec 16) (s : State) : Host.Outcome State Fault Refusal :=
  slot (.cpb m d a f x) s needsAll fun c s =>
    let W := s.warp c.gang c.warp
    match s.tileOf c (W.s d.toNat) with
    | .error e => .error e
    | .ok t =>
      if m.toNat % 2 = 1 && t.st ≠ .ready then .error (flt 7 2)
      else if !cpbFormats f.toNat t.desc then .error (flt 0x0A 6)
      else
        let o := { s.newWork c (.cpb m d a f x) [] [W.s d.toNat, W.s a.toNat] with tiles := [t.num] }
        .ok ((s.mapGang c.gang fun G => G.setTile t.num (if m.toNat % 2 = 0 then .filling else .draining)).count o 4)

/-- The CRCs of the blocks that a completed bulk write touched (10 R220). -/
def State.cpbSeal (s : State) (o : Work) (m f ro : Nat) : State :=
  let rr := o.uni.getD 1 0
  match s.refCheck (s.gang o.ctx).asid rr with
  | .error _ => s
  | .ok t =>
    let d := (((s.gang o.ctx).tile? (o.tiles.getD 0 0)).map (·.desc)).getD 0
    if t.sealed && m % 2 = 1 then s.recrc (s.coreOf o.ctx o.warp / 288) t (m / 2) (refRow rr) (crcBlocks t (refRow rr) (tileRows d) ro (cpbRow f d)) else s

/-- CPB_COMPLETE (10 R219, R220). -/
def execCpbComplete (ctx op : Nat) (s : State) : Host.Outcome State Fault Refusal :=
  match (s.gang ctx).op? op with
  | none => .next s
  | some o =>
    match o.instr, o.fault, s.opEffect o with
    | .cpb m _ _ f x, none, .ok ws =>
      let st : TileState := if m.toNat % 2 = 0 then .ready else .empty
      if s.opHeld o then .next (s.wakeOp o)
      else .next ((s.finishOp o ws fun G => G.setTile (o.tiles.getD 0 0) st).cpbSeal o m.toNat f.toNat x.toNat)
    | _, _, _ => .next s

/-- WAITC (10 R210). -/
def execWaitc (k : BitVec 3) (n : BitVec 8) (s : State) : Host.Outcome State Fault Refusal :=
  slot (.waitc k n) s noPre fun c s =>
    if (s.gang c.gang).counter c.warp k.toNat ≤ n.toNat then .ok s
    else .ok (s.parkLanes c c.issue fun _ => .waitc k.toNat n.toNat)

/-- DFENCE (10 R222). -/
def execDfence (a : BitVec 7) (s : State) : Host.Outcome State Fault Refusal :=
  slot (.dfence a) s noPre fun c s =>
    let h := (s.warp c.gang c.warp).s a.toNat
    match s.handle? (s.gang c.gang).asid (h.setWidth 32) with
    | none => .error (flt 0x0B 1)
    | some t => .ok (s.count { s.newWork c (.dfence a) [] [h] with cells := [t.slot] } 4)

/-- Whether an operation writes rows of the table in a directory slot. -/
def Work.writesTable (o : Work) (slot : Nat) : Bool :=
  match o.instr with
  | .cpl _ _ _ _ op _ _ => op.toNat % 2 == 1 && o.args.any fun a => refSlot (a.a.setWidth 64) == slot
  | .cpb m .. => m.toNat % 2 == 1 && refSlot (o.uni.getD 1 0) == slot
  | _ => false

/-- Whether a cell holds a byte of a table's rows, page by page. -/
def State.inTable (s : State) (t : Table) (cell : Nat) : Bool :=
  let lo := t.desc.rowbase
  let hi := lo + t.desc.width * t.desc.cap
  (List.range (hi / 4096 + 1 - lo / 4096)).any fun k =>
    match s.translate t.asid ((lo / 4096 + k) * 4096) with
    | .error _ => false
    | .ok x =>
      let va := (lo / 4096 + k) * 4096
      (List.range 4096).any fun j => lo ≤ va + j && va + j < hi && cellOf t.desc.aper (x.pa (va + j)) == cell

/-- The compressed and uncompressed views of a table joined (10 R222; DEDUCED, log 42). -/
def State.joinViews (s : State) (t : Table) : State :=
  s.joinCells (s.inTable t) ((3 : BitVec 6) <<< (2 * t.desc.aper))

/-- DFENCE_COMPLETE (10 R222): once the warp's earlier writes to the table have completed. One that has met a fault never does, and the gang
is saved with it (22 R363). -/
def execDfenceComplete (ctx op : Nat) (s : State) : Host.Outcome State Fault Refusal :=
  match (s.gang ctx).op? op with
  | none => .next s
  | some o =>
    match o.instr with
    | .dfence _ =>
      let slot := o.cells.getD 0 0
      let earlier := ((s.gang ctx).ops.any fun p =>
          p.warp == o.warp && decide (p.id < op) && p.writesTable slot && p.fault.isNone) ||
        s.idx.any fun p => p.ctx == ctx && p.warp == o.warp && decide (p.id < op)
      if earlier then .next s
      else
        let s1 := match s.table? (s.gang ctx).asid slot with
          | none => s
          | some t => s.joinViews t
        .next (s1.finishOp o [] id)
    | _ => .next s

/-- A fault of a stream program: it counts on no counter, so the spec gives its TRAPAUX no value, and the word is free
(DESIGN CHOICE, log 9). -/
def State.streamFlt (s : State) (f : RowFault) : Flt :=
  fltAll f.cls f.code laneIds (BitVec.ofNat 32 (s.freeNat 3 0)) f.faddr

/-- A producer that loads the program of a table and starts it, or meets the fault of 10 R226 or of its row side (DEDUCED,
log 43). `owed` are the faults of earlier programs that their warps have yet to take (10 R212). -/
def State.loadStream (s : State) (t : Table) (sreg : Nat → DWord) (warp : Nat) (pc : Word) (owed : List (Nat × Word × Flt)) :
    Producer :=
  let p : Producer := { prog := [], next := 0, loops := [], captured := [], running := false, ended := false, faulted := true,
                        warp := warp, pc := pc, fetching := none, pending := owed,
                        streams := (List.range 4).map fun k => { k := k, handle := 0, base := 0, strides := [0, 0, 0, 0] } }
  match s.streamWords t with
  | .error f => { p with pending := owed ++ [(warp, pc, s.streamFlt f)] }
  | .ok ws =>
    match streamScan ws 0 [] [] false with
    | some n => { p with pending := owed ++ [(warp, pc, s.streamFlt (engFault 0x0A 8 n))] }
    | none =>
      { p with prog := ws.take 256, running := true, faulted := false,
               captured := (ws.filterMap sopReg).map fun n => (n, sreg n) }

/-- What the reads of a program leave (20 R328, R331 to R341, R346). -/
def State.noteProgram (s : State) (site : Site) (t : Table) : State :=
  let u := s.noteSpans site t.program
  match s.streamWords t with
  | .error f => (u.noteMisses site t.asid f.misses).retire f.retires
  | .ok _ => u

/-- SPLD `.load` (10 R227). -/
def execSpldLoad (a : BitVec 7) (s : State) : Host.Outcome State Fault Refusal :=
  slot (.spldLoad a) s noPre fun c s =>
    let G := s.gang c.gang
    let W := G.warp c.warp
    if G.producer.isNone then .error (flt 0x0A 2)
    else match s.streamTable G.asid ((W.s a.toNat).setWidth 32) with
      | none => .error (flt 0x0A 8)
      | some t =>
        let p := s.loadStream t W.s c.warp c.pc ((G.producer.map (·.pending)).getD [])
        .ok ((s.noteProgram (Site.ofCore c.core) t).mapGang c.gang fun G => { G with producer := some p })

/-- SPLD `.stop` (10 R227). -/
def execSpldStop (s : State) : Host.Outcome State Fault Refusal :=
  slot .spldStop s noPre fun c s =>
    if (s.gang c.gang).producer.isNone then .error (flt 0x0A 2)
    else .ok (s.mapGang c.gang fun G =>
      { G with producer := G.producer.map fun (p : Producer) => { p with running := false } })

/-- The producer's state as SPLD `.qry` shows it (10 R227). Once the program has ended, or has stopped by a fault, [15:8] hold the index of its
`end`, or of the operation that faulted: the spec gives the index of the next operation only (DESIGN CHOICE, log 88). -/
def Producer.word (p : Producer) : Word :=
  BitVec.ofNat 32 ((if p.running then 1 else 0) + (if p.ended then 2 else 0) + (if p.faulted then 4 else 0) + p.next % 256 * 256)

/-- SPLD `.qry` (10 R227). -/
def execSpldQry (d : BitVec 7) (s : State) : Host.Outcome State Fault Refusal :=
  slot (.spldQry d) s noPre fun c s =>
    let W := s.warp c.gang c.warp
    match (s.gang c.gang).producer with
    | none => .error (flt 0x0A 2)
    | some p => .ok (s.await (s.newWork c (.spldQry d) [] []) (c.issue.map fun l => W.put l d.toNat p.word))

/-- A captured value of a producer. -/
def Producer.value (p : Producer) (n : Nat) : DWord := (p.captured.lookup n).getD 0

/-- The address of a stream (10 R225). -/
def Producer.addr (p : Producer) (st : Stream) : Int :=
  p.loops.foldl (fun a (l : Loop) => a + (l.idx : Int) * st.strides.getD l.level 0) (st.base : Int)

/-- The operation after the `next` that matches a `loop` (10 R225; DEDUCED, log 45). -/
def afterNext (prog : List DWord) (lvl from' : Nat) : Nat :=
  (((List.range prog.length).find? fun n =>
    decide (from' < n) && sopOf (prog.getD n 0) == 2 && sopK (prog.getD n 0) == lvl).getD prog.length) + 1

/-- An entry pushed to a queue of the gang (10 R228). -/
def Gang.pushQ (G : Gang) (q : Nat) (es : List QEntry) : Gang := { G with queues := G.queues.modify q fun x => x ++ es }

/-- A producer that meets a fault stops (10 R225). -/
def Producer.stop (p : Producer) (n : Nat) (f : Flt) : Producer :=
  { p with running := false, faulted := true, fetching := none, next := n, pending := p.pending ++ [(p.warp, p.pc, f)] }

/-- One operation of a running stream program (10 R225). `none` where it waits for room (DESIGN CHOICE, log 44). A program that runs past
the last row of its table without an `end` stops with ENGINE.RANGE and its index in FADDR, and `next` stays at the operation that ended the
program or faulted, where the spec says nothing (DESIGN CHOICE, log 88). -/
def State.streamStep (s : State) (G : Gang) (p : Producer) : Option Gang :=
  let put (q : Producer) : Gang := { G with producer := some q }
  match p.prog[p.next]? with
  | none => some (put (p.stop p.next (s.streamFlt (engFault 0x0A 4 p.next))))
  | some w =>
    let k := sopK w
    let on := { p with next := p.next + 1 }
    match sopOf w with
    | 0 => some (put { p with running := false, ended := true })
    | 1 =>
      let n := if w.getLsbD 57 then (p.value (fld w 32 6).toNat).toNat else (fld w 0 32).toNat
      if n = 0 then some (put { p with next := afterNext p.prog k p.next })
      else some (put { on with loops := { level := k, idx := 0, count := n, start := p.next + 1 } :: p.loops })
    | 2 =>
      match p.loops with
      | [] => some (put on)
      | l :: r =>
        if l.idx + 1 < l.count then some (put { p with next := l.start, loops := { l with idx := l.idx + 1 } :: r })
        else some (put { on with loops := r })
    | 3 =>
      let h := (p.value (fld w 52 6).toNat).setWidth 32
      some (put { on with streams := p.streams.map fun (t : Stream) =>
        if t.k = k then { t with handle := h, base := (fld w 0 44).toNat } else t })
    | 4 =>
      let l := (fld w 56 2).toNat
      some (put { on with streams := p.streams.map fun (t : Stream) =>
        if t.k = k then { t with strides := t.strides.set l (fld w 0 32).toInt } else t })
    | 5 | 6 | 7 => if G.room (sopQ w) 1 then some (put { on with fetching := some p.next }) else none
    | 8 =>
      if G.room (sopQ w) 1 then some ((put on).pushQ (sopQ w) [{ width := 0, val := (fld w 0 32).setWidth 128 }]) else none
    | _ => some (put (p.stop p.next (s.streamFlt (engFault 0x0A 8 p.next))))

/-- STREAM_OPERATION (10 R225): the gang holds its core and no fetch is under way. -/
def execStreamOperation (ctx : Nat) (s : State) : Host.Outcome State Fault Refusal :=
  let G := s.gang ctx
  match G.producer with
  | none => .next s
  | some p =>
    if G.phase ≠ .running || !p.running || p.fetching.isSome then .next s
    else match s.streamStep G p with
      | none => .next s
      | some H => .next (s.mapGang ctx fun _ => H)

/-- Bytes of a dense table read as one run (10 R220, R225), through a view. -/
def State.runBytes (s : State) (asid : Nat) (h : Word) (a : Int) (n view : Nat) : Except RowFault (List Byte) :=
  match s.handle? asid h with
  | none => .error (engFault 0x0B 1 0)
  | some t =>
    let row := (a / (t.desc.width : Int)).toNat
    if t.desc.tkind ≠ 0 then .error (engFault 0x0A 5 row)
    else if a < 0 || ((t.desc.width * t.desc.cap : Nat) : Int) < a + n then .error (engFault 0x0A 4 row)
    else (s.runCells t a.toNat n .read).map fun cs => cs.map (s.readCell (pathOf t.desc.aper view))

/-- Bytes that a `fetch`, `fetchz` or `seek` reads (10 R225). -/
def sopLen (w : DWord) : Nat :=
  if sopOf w = 7 then 4 * keyRegs (sopKt w) else if sopF w ≤ 2 then 4 * fmtRegs (sopF w) else fmtRegs (sopW w) * esize (sopF w)

/-- The table that a fetch reads, the first byte of its run, and its virtual address. -/
def State.fetchRun (s : State) (asid : Nat) (p : Producer) (w : DWord) : Option (Table × Nat) :=
  let st := (p.streams[sopK w]?).getD default
  (s.handle? asid st.handle).map fun t => (t, (p.addr st).toNat)

/-- The bytes that a fetch reads, as one span. -/
def State.fetchSpans (s : State) (asid : Nat) (p : Producer) (w : DWord) : List Span :=
  match s.fetchRun asid p w with
  | none => []
  | some (t, a) => [{ tab := t, row := 0, off := a, len := sopLen w, view := if sopOf w = 6 then 1 else 0, write := false }]

/-- Whether a fetch waits: for a walk, a bank, a swap, a sweep or a re-encryption (20 R328, R344, R345; 24 R385, R386). -/
def State.fetchWaits (s : State) (asid : Nat) (p : Producer) (w : DWord) : Bool := s.spansHeld (s.fetchSpans asid p w)

/-- What a fetch leaves in the caches and at the memory controllers, and the walk that it starts (20 R328, R331 to R341). -/
def State.noteRun (s : State) (core asid : Nat) (p : Producer) (w : DWord) : State :=
  s.noteSpans (Site.ofDie (core / 288)) (s.fetchSpans asid p w)

/-- The entry that a `fetch`, `fetchz` or `seek` pushes (10 R225). A `seek` whose handle names a dense table, or one of another key type,
faults TABLE.KIND or TABLE.KEYT with FADDR 0, of which the spec says nothing (DESIGN CHOICE, log 88). -/
def State.streamEntry (s : State) (asid : Nat) (p : Producer) (w : DWord) : Except RowFault QEntry :=
  let st := (p.streams[sopK w]?).getD default
  let a := p.addr st
  if sopOf w = 7 then
    let kt := sopKt w
    match s.runBytes asid st.handle a (sopLen w) 0 with
    | .error f => .error f
    | .ok bs =>
      match s.handle? asid ((p.value (fld w 46 6).toNat).setWidth 32) with
      | none => .error (engFault 0x0B 1 0)
      | some t =>
        if t.desc.tkind = 0 then .error (engFault 0x0B 6 0)
        else if t.desc.keyt ≠ kt then .error (engFault 0x0B 7 0)
        else .ok { width := 1, val := match t.find (keyNum kt (BitVec.ofNat 128 (leNat bs))) with
          | some e => (t.ref e.row).setWidth 128
          | none => noRef }
  else
    let f := sopF w
    let e := if f ≤ 2 then 4 * fmtRegs f else esize f
    let n := if f ≤ 2 then 1 else fmtRegs (sopW w)
    (s.runBytes asid st.handle a (sopLen w) (if sopOf w = 6 then 1 else 0)).map fun bs =>
      { width := sopW w,
        val := if f ≤ 2 then BitVec.ofNat 128 (leNat bs)
          else (List.range n).foldl (fun v j => v ||| ((loadConv f (leNat ((bs.drop (j * e)).take e))) <<< (32 * j))) 0 }

/-- STREAM_FETCH_COMPLETE (10 R225). -/
def execStreamFetchComplete (ctx : Nat) (s : State) : Host.Outcome State Fault Refusal :=
  let G := s.gang ctx
  match G.producer with
  | none => .next s
  | some p =>
    match p.fetching with
    | none => .next s
    | some n =>
      let w := p.prog.getD n 0
      if s.fetchWaits G.asid p w then .next (s.wakeSpans (s.fetchSpans G.asid p w))
      else match s.streamEntry G.asid p w with
        | .error f =>
          let x := s.streamFlt f
          .next (((s.noteMisses s.site G.asid f.misses).retire f.retires).mapGang ctx fun G => { G with producer := some (p.stop n x) })
        | .ok e =>
          .next ((s.noteRun G.place.id G.asid p w).mapGang ctx fun G => { G with producer := some { p with fetching := none } }.pushQ (sopQ w) [e])

/-- QPOP (10 R229). -/
def execQpop (q : BitVec 3) (w : BitVec 2) (d : BitVec 7) (s : State) : Host.Outcome State Fault Refusal :=
  slot (.qpop q w d) s noPre fun c s =>
    let G := s.gang c.gang
    let W := G.warp c.warp
    if G.producer.isNone then .error (flt 0x0A 2)
    else
      let es := (G.queues.getD q.toNat []).take c.issue.length
      if es.any fun e => e.width != w.toNat then .error (flt 0x0A 9)
      else
        let vals := (c.issue.mapIdx fun j l =>
          W.putWords l d.toNat (fmtRegs w.toNat) ((es[j]?.map (·.val)).getD 0) ++
            [(.flag l 0, (nzcv false (j < es.length) false false).setWidth 64)]).flatten
        .ok ((s.mapGang c.gang fun G =>
          { G with queues := G.queues.modify q.toNat fun x => x.drop c.issue.length }).await
            (s.newWork c (.qpop q w d) [] []) vals)

/-- QPUSH (10 R229). -/
def execQpush (q : BitVec 3) (w : BitVec 2) (a : BitVec 7) (s : State) : Host.Outcome State Fault Refusal :=
  slot (.qpush q w a) s noPre fun c s =>
    let W := s.warp c.gang c.warp
    if (s.gang c.gang).producer.isNone then .error (flt 0x0A 2)
    else .ok (s.mapGang c.gang fun G =>
      G.pushQ q.toNat (c.issue.map fun l => { width := w.toNat, val := W.data l a.toNat w.toNat }))

end Sys2Proof.Machine
end

