-- ==== Sys2Proof/Machine/Matrix.lean ====
section
/-! DEFINITION. The matrix engine: operand maps, XMMA and XACC, and the faults that engines find (11 R231 to R247,
10 R212). -/

namespace Sys2Proof.Machine

/-- Whether an operation is the first of its workgroup's. -/
def Gang.accHead (G : Gang) (o : Work) : Bool := ((G.accOps (G.warp o.warp).wg).head?.map (·.id)) == some o.id

/-- An uncounted operation at the head takes effect: `.zero` and `.wr` write, `.rd` reads (11 R245). -/
def State.accPerform (s : State) (o : Work) : State :=
  match o.instr with
  | .xaccRd .. =>
    let W := (s.gang o.ctx).wgs.getD ((s.gang o.ctx).warp o.warp).wg default
    let line := regLine (o.uni.getD 0 0)
    let vals := (o.args.mapIdx fun j a =>
      let e := 16 * line + a.b.toNat
      [((o.awaits.getD (2 * j) .ms), (W.getAcc e).setWidth 64),
       ((o.awaits.getD (2 * j + 1) .ms), (nzcv false false false (W.sat.contains (e / 16))).setWidth 64)]).flatten
    s.mapGang o.ctx fun G => { G.dropOp o.id with accs := G.accs ++ [{ o with vals := vals }] }
  | _ =>
    match s.opEffect o with
    | .error _ => s
    | .ok ws => (s.engWrites o.ctx ws).mapGang o.ctx fun G => G.dropOp o.id

/-- The uncounted accumulator operations that have come to the head take effect, at most `fuel` of them. -/
def State.accDrain (s : State) (g wg : Nat) : Nat → State
  | 0 => s
  | k + 1 =>
    match ((s.gang g).accOps wg).head? with
    | none => s
    | some o => if o.ctr.isSome || o.fault.isSome then s else (s.accPerform o).accDrain g wg k

/-- Uncounted accumulator work of the issue under way. -/
def State.accIssue (s : State) (o : Work) : State :=
  let s1 := (s.mapGang o.ctx fun G => { G with ops := G.ops ++ [o] }).fresh
  s1.accDrain o.ctx (s1.warp o.ctx o.warp).wg (s1.gang o.ctx).ops.length

/-- MATRIX.MAP (11 R233, R234). -/
def mapBad (m : DWord) : Bool :=
  decide (2 ≤ mapCls m) || decide (10 ≤ mapMf m) || mapSs m == 3 || fld m 24 12 != 0 || fld m 8 8 != 0 ||
  (mapSs m == 0 && mapSloc m != 0) || (mapSs m == 2 && decide (64 ≤ mapSloc m)) || (mapCls m == 1 && decide (64 ≤ mapLoc m))

/-- The formats of A and B that a mode accepts (11 R234). -/
def mapFormats (mode a b : Nat) : Bool :=
  if mode = 3 then a == 8 && b == 7
  else (a == 0 && b == 0) || (a == 1 && b == 1) || ((a == 2 || a == 3) && (b == 2 || b == 3)) || (mfIsMx a && mfIsMx b)

/-- Dense K (11 R235). -/
def denseK (mode : Nat) (ma : DWord) : Nat := if mode = 1 || mode = 2 then 2 * mapCols ma else mapCols ma

/-- MATRIX.SHAPE (11 R235). -/
def shapeBad (G : Gang) (mode : Nat) (ma mb mm : DWord) (ms : List DWord) : Bool :=
  let kd := denseK mode ma
  mapCols mb != kd || (mode == 1 && kd % 4 != 0) || (mode == 2 && kd % 8 != 0) ||
  ((mode == 1 || mode == 2) && (mapRows mm != mapRows ma || mapCols mm != kd / (4 * mode))) ||
  (ms.any fun m => mapCols m * mfBits (mapMf m) % 8 != 0 ||
    (mapCls m == 0 && match G.tile? (mapLoc m) with
      | some t => mapRows m != tileRows t.desc || mapCols m != tileCols t.desc
      | none => true))

/-- MATRIX.FMT (11 R234, R235). -/
def fmtBad (G : Gang) (mode : Nat) (ma mb : DWord) (ms : List DWord) : Bool :=
  !mapFormats mode (mapMf ma) (mapMf mb) || ((ms.drop 2).any fun m => mapMf m != 9) ||
  ms.any fun m => mapCls m == 0 && ((G.tile? (mapLoc m)).map fun t => tileTf t.desc) != some (mfTf (mapMf m))

/-- MATRIX.DESYNC as far as issue finds it (11 R237); a scale tile that is not of TF 5 is one too (DEDUCED, log 31). -/
def desyncBad (G : Gang) (nb : Nat) (ms : List DWord) : Bool :=
  ms.any fun m => mfIsMx (mapMf m) != (mapSs m != 0) ||
    (mapSs m == 1 && match G.tile? (mapSloc m) with
      | some t => tileTf t.desc != 5 || tileRows t.desc != mapRows m || tileCols t.desc != nb
      | none => true)

/-- ENGINE.MASK, then ENGINE.SLOT of an accumulator instruction (11 R231, R240). -/
def needsAcc : Cur → State → Option Flt := fun c s =>
  match needsAll c s with
  | some f => some f
  | none => if (((s.gang c.gang).wgs.getD (s.warp c.gang c.warp).wg default).hold) then none else some (flt 0x0A 2)

/-- The checks of XMMA after ENGINE.SLOT (11 R240). -/
def xmmaFault (G : Gang) (mode line : Nat) (ms : List DWord) : Option Flt :=
  let ma := ms.getD 0 0
  let mb := ms.getD 1 0
  let tiles := (ms.map mapTiles).flatten
  if ms.any mapBad then some (flt 6 2)
  else if tiles.any fun n => (G.tile? n).isNone then some (flt 7 1)
  else if fmtBad G mode ma mb ms then some (flt 6 3)
  else if shapeBad G mode ma mb (ms.getD 2 0) ms then some (flt 6 4)
  else if desyncBad G ((denseK mode ma + 31) / 32) ms then some (flt 6 5)
  else if 262144 < 64 * line + 4 * (mapRows ma * mapRows mb) then some (flt 6 6)
  else if tiles.any fun n => ((G.tile? n).map (·.st)) != some .ready then some (flt 7 2)
  else none

/-- The row references that an XMMA's maps name: of its sources, then of the scales of A and B. -/
def Warp.mapRefs (W : Warp) (ms : List DWord) : List DWord :=
  ((List.range 3).map fun k => let m := ms.getD k 0; if mapCls m = 1 then W.s (mapLoc m) else 0) ++
  ((List.range 2).map fun k => let m := ms.getD k 0; if mapSs m = 2 then W.s (mapSloc m) else 0)

/-- XMMA (11 R239 to R241). -/
def execXmma (m : BitVec 4) (a b : BitVec 7) (o : BitVec 4) (cc : BitVec 7) (x : BitVec 12) (s : State) :
    Host.Outcome State Fault Refusal :=
  slot (.xmma m a b o cc x) s needsAcc fun c s =>
    let G := s.gang c.gang
    let W := G.warp c.warp
    let ms := W.maps m a b cc
    match xmmaFault G m.toNat x.toNat ms with
    | some f => .error f
    | none =>
      let um := [ms.getD 0 0, ms.getD 1 0, ms.getD 2 0] ++ W.mapRefs ms
      .ok (s.count { s.newWork c (.xmma m a b o cc x) [] um with tiles := (ms.map mapTiles).flatten } 6)

/-- An accumulator operation that is counted completes: it is at the head of its workgroup's order (11 R241, R245). XMMA reads every word of
its sources now: the spec lets each aligned word show a later write or not until XMMA completes (11 R247; DESIGN CHOICE, log 90). -/
def State.accComplete (s : State) (o : Work) (f : Gang → Gang) : State :=
  match (s.gang o.ctx).accHead o, o.fault, s.opEffect o with
  | true, none, .ok ws =>
    if s.opHeld o then s.wakeOp o else
    let s1 := s.finishOp o ws f
    s1.accDrain o.ctx (s1.warp o.ctx o.warp).wg (s1.gang o.ctx).ops.length
  | _, _, _ => s

/-- XMMA_COMPLETE (11 R241). -/
def execXmmaComplete (ctx op : Nat) (s : State) : Host.Outcome State Fault Refusal :=
  match (s.gang ctx).op? op with
  | none => .next s
  | some o =>
    match o.instr with
    | .xmma .. => .next (s.accComplete o id)
    | _ => .next s

/-- MATRIX.ACC of a region word (11 R232, R244). -/
def regionBad (r : DWord) : Bool := fld r 32 32 != 0 || decide (262144 < 64 * regLine r + 4 * (regRows r * regCols r))

/-- The checks of XACC before its own form's (11 R244). -/
def needsRegion (a : BitVec 7) : Cur → State → Option Flt := fun c s =>
  match needsAcc c s with
  | some f => some f
  | none => if regionBad ((s.warp c.gang c.warp).s a.toNat) then some (flt 6 6) else none

/-- XACC `.zero` (11 R245). -/
def execXaccZero (a : BitVec 7) (s : State) : Host.Outcome State Fault Refusal :=
  slot (.xaccZero a) s (needsRegion a) fun c s =>
    .ok (s.accIssue (s.newWork c (.xaccZero a) [] [(s.warp c.gang c.warp).s a.toNat]))

/-- MATRIX.ACC of an element index (11 R245). -/
def elemBad (W : Warp) (c : Cur) (r : DWord) (b : BitVec 7) : Bool :=
  c.issue.any fun l => decide (regRows r * regCols r ≤ (W.get l b.toNat).toNat)

/-- XACC `.rd` (11 R245). -/
def execXaccRd (d a b : BitVec 7) (s : State) : Host.Outcome State Fault Refusal :=
  slot (.xaccRd d a b) s (needsRegion a) fun c s =>
    let W := s.warp c.gang c.warp
    let r := W.s a.toNat
    if elemBad W c r b then .error (flt 6 6)
    else
      let args := W.args c.issue (fun _ => 0) (fun _ => 0) (fun l => (W.get l b.toNat).setWidth 128) fun _ => 0
      let aw := (c.issue.map fun l => [W.loc l d.toNat, .flag l 0]).flatten
      .ok (s.accIssue { s.newWork c (.xaccRd d a b) args [r] with awaits := aw })

/-- XACC `.wr` (11 R245). -/
def execXaccWr (d a b : BitVec 7) (s : State) : Host.Outcome State Fault Refusal :=
  slot (.xaccWr d a b) s (needsRegion a) fun c s =>
    let W := s.warp c.gang c.warp
    let r := W.s a.toNat
    if elemBad W c r b then .error (flt 6 6)
    else
      let args := W.args c.issue (fun l => (W.get l d.toNat).setWidth 128) (fun _ => 0)
        (fun l => (W.get l b.toNat).setWidth 128) fun _ => 0
      .ok (s.accIssue (s.newWork c (.xaccWr d a b) args [r]))

/-- XACC `.tile` (11 R245). -/
def execXaccTile (d a : BitVec 7) (s : State) : Host.Outcome State Fault Refusal :=
  slot (.xaccTile d a) s (needsRegion a) fun c s =>
    let W := s.warp c.gang c.warp
    let r := W.s a.toNat
    match s.tileOf c (W.s d.toNat) with
    | .error e => .error e
    | .ok t =>
      if 6 ≤ tileTf t.desc then .error (flt 6 3)
      else if tileRows t.desc ≠ regRows r || tileCols t.desc ≠ regCols r then .error (flt 6 4)
      else
        let o := { s.newWork c (.xaccTile d a) [] [W.s d.toNat, r] with tiles := [t.num] }
        .ok ((s.mapGang c.gang fun G => G.setTile t.num .filling).count o 6)

/-- XACC_TILE_COMPLETE (11 R245). -/
def execXaccTileComplete (ctx op : Nat) (s : State) : Host.Outcome State Fault Refusal :=
  match (s.gang ctx).op? op with
  | none => .next s
  | some o =>
    match o.instr with
    | .xaccTile .. => .next (s.accComplete o fun G => G.setTile (o.tiles.getD 0 0) .ready)
    | _ => .next s

/-- TRAPAUX of an engine-side fault: the counter id and the operation's seq (10 R212). -/
def Work.auxWord (o : Work) : Word := BitVec.ofNat 32 (o.ctr.getD 0 + o.seq % 2 ^ 29 * 8)

/-- The fault that an operation's engine finds, if any (10 R212), with what its access leaves (20 R328, R346). -/
def State.sideFault (s : State) (o : Work) : Option (Flt × List Nat) :=
  match o.fault with
  | some f => some (f, [])
  | none =>
    if onAcc o.instr && !(s.gang o.ctx).accHead o then none
    else match s.opEffect o with
      | .ok _ => none
      | .error f => some ({ fltAll f.cls f.code laneIds o.auxWord f.faddr with misses := f.misses }, f.retires)

/-- The handler set of an engine-side fault: the fibres parked at WAITC, else the set that would have issued (24 R372). Where every
set of the warp waits for what the gang's engines have in flight, it is the set that would issue once that is discarded (10 R212). -/
def State.sideSet (s : State) (g w : Nat) : List Nat :=
  let W := s.warp g w
  let parked := laneIds.filter fun l => (W.lane l).slot matches .parked (.waitc ..)
  if !parked.isEmpty then parked
  else match choose (s.readySets g w), choose ((s.mapGang g Gang.discard).readySets g w) with
    | p :: _, _ | [], p :: _ => p.cur.set
    | [], [] => []

/-- A fault found after issue becomes the warp's cause once a set of it would issue or waits at WAITC (10 R212). -/
def State.chargeTo (s : State) (g w : Nat) (pc : Word) (f : Flt) : State :=
  let ls := s.sideSet g w
  if (s.warp g w).cause.isSome || ls.isEmpty then s
  else s.mapWarp g w fun W =>
    { W with cause := some { cls := f.cls, code := f.code, pc := pc, lanes := ls, words := f.words, masks := [], stuck := false,
                             atIssue := false } }

/-- The region of an XMMA that found MATRIX.META is +0 (11 R242). A row-side fault writes no further element (DESIGN CHOICE, log 84). -/
def State.clearMeta (s : State) (o : Work) (f : Flt) : State :=
  match o.instr with
  | .xmma _ _ _ _ _ x =>
    if f.cls = 6 && f.code = 7 then
      let n := mapRows (o.uni.getD 0 0) * mapRows (o.uni.getD 1 0)
      s.engWrites o.ctx ((List.range n).map fun e => .acc (s.warp o.ctx o.warp).wg (16 * x.toNat + e) 0)
    else s
  | _ => s

/-- The tile that a fill or a copy-out names is empty once the operation has failed (09 R205). -/
def Gang.failTile (G : Gang) (o : Work) : Gang :=
  match o.instr with
  | .cpb .. | .tgath .. | .xaccTile .. => G.setTile (o.tiles.getD 0 0) .empty
  | _ => G

/-- ENGINE_SIDE_FAULT (10 R212, R225, R226; 11 R242): of an operation, or, where the number names none, of the gang's
stream program. The operation keeps its fault, its tile is empty, and nothing completes past it. -/
def execEngineSideFault (ctx op : Nat) (s : State) : Host.Outcome State Fault Refusal :=
  match (s.gang ctx).op? op with
  | some o =>
    match s.sideFault o with
    | none => .next s
    | some (f, ls) =>
      if o.fault.isNone && s.opHeld o then .next (s.wakeOp o)
      else
      let s1 := if o.fault.isNone then (s.clearMeta o f).mapGang ctx fun G => G.failTile o else s
      .next ((((s1.noteMisses s.site (s.gang ctx).asid f.misses).retire ls).mapGang ctx fun G => G.mapOp op fun (o : Work) => { o with fault := some { f with misses := [] } }).chargeTo ctx o.warp o.pc f)
  | none =>
    match (s.gang ctx).producer with
    | none => .next s
    | some p =>
      match p.pending with
      | [] => .next s
      | (w, pc, f) :: _ => .next (s.chargeTo ctx w pc f)

end Sys2Proof.Machine
end

