-- ==== Sys2Proof/Machine/Tables.lean ====
section
/-! DEFINITION. Accesses by row reference, keyed instructions and cursors (13 R259 to R270), and the completion of lane
accesses (04 R84, 02 R54, 24 R379). -/

namespace Sys2Proof.Machine

/-- A load by reference (13 R260). -/
def State.loadRow (s : State) (c : Cur) (i : Instr) (f d : Nat) (ref : Nat → DWord) (off : Nat → Nat) : Except Flt State :=
  let W := s.warp c.gang c.warp
  (s.laneAccs c (esize f) .read ref off).map fun as =>
    let t := s.meanwhile c.gang c.warp as
    t.startRead c i [] as (W.dst d (fmtRegs f)) fun a => wordsOf (loadConv f (leNat (s.elemBytes t a (off a.lane))))

/-- A store by reference (13 R260, R261): lanes in ascending order. A lost line faults MEM.UE (24 R379). The stores are relaxed: when other
agents see them is free (25 R390). -/
def State.storeRow (s : State) (c : Cur) (i : Instr) (f d : Nat) (ref : Nat → DWord) (off : Nat → Nat) : Except Flt State :=
  let W := s.warp c.gang c.warp
  match s.laneAccs c (esize f) .write ref off with
  | .error x => .error x
  | .ok as =>
    match lostLane s as with
    | some x => .error x
    | none =>
      let s1 := s.startWrite c i as
      .ok (s1.storeElems c (as.map fun a => (a, off a.lane, leBytes (esize f) (storeConv f (W.data a.lane d f)))))

/-- LDR (13 R259, R260). -/
def execLdr (f : BitVec 4) (d a b : BitVec 7) (s : State) : Host.Outcome State Fault Refusal :=
  slot (.ldr f d a b) s noPre fun c s =>
    let W := s.warp c.gang c.warp
    s.loadRow c (.ldr f d a b) f.toNat d.toNat (fun l => W.get64 l a.toNat) fun l => (W.get l b.toNat).toNat

/-- STR (13 R259, R260). -/
def execStr (f : BitVec 4) (d a b : BitVec 7) (s : State) : Host.Outcome State Fault Refusal :=
  slot (.str f d a b) s noPre fun c s =>
    let W := s.warp c.gang c.warp
    s.storeRow c (.str f d a b) f.toNat d.toNat (fun l => W.get64 l a.toNat) fun l => (W.get l b.toNat).toNat

/-- LDRI (13 R259, R260). -/
def execLdri (f : BitVec 3) (i : BitVec 8) (d a : BitVec 7) (s : State) : Host.Outcome State Fault Refusal :=
  slot (.ldri f i d a) s noPre fun c s =>
    let W := s.warp c.gang c.warp
    s.loadRow c (.ldri f i d a) (iFmt f.toNat) d.toNat (fun l => W.get64 l a.toNat) fun _ => esize (iFmt f.toNat) * i.toNat

/-- STRI (13 R259, R260). -/
def execStri (f : BitVec 3) (i : BitVec 8) (d a : BitVec 7) (s : State) : Host.Outcome State Fault Refusal :=
  slot (.stri f i d a) s noPre fun c s =>
    let W := s.warp c.gang c.warp
    s.storeRow c (.stri f i d a) (iFmt f.toNat) d.toNat (fun l => W.get64 l a.toNat) fun _ => esize (iFmt f.toNat) * i.toNat

/-- Whether an instruction is a load for LATC (02 R54). -/
def countsLatc (i : Instr) : Bool :=
  match i with
  | .ldl .. | .ldli .. | .ldf .. | .ldr .. | .ldri .. | .ldk .. | .tget .. | .mld .. => true
  | _ => false

/-- The lanes that take a fault found when data returns: as for an engine-side fault, or the set of the lowest key, or
every fibre (24 R372, R379; DEDUCED, log 32). -/
def State.faultSet (s : State) (g w : Nat) : List Nat :=
  let a := s.sideSet g w
  let W := s.warp g w
  if !a.isEmpty then a
  else match W.keys with
    | k :: _ => W.members k
    | [] => W.fibres

/-- LATC of a load: the core cycles from its issue to now, when its results are written (02 R51, R54). -/
def State.latcOf (s : State) (o : Work) : Nat := min (s.now o.ctx o.warp - o.issuedAt) 0xFFFFFFFF

/-- The results of outstanding work land, with LATC in the lanes in which a load has not faulted (04 R84, 02 R54). -/
def State.landWork (s : State) (o : Work) : State :=
  let took := BitVec.ofNat 32 (s.latcOf o)
  let done := (o.args.map (·.lane)).filter fun l => o.vals.any fun x => x.1.lane? == some l
  s.mapWarp o.ctx o.warp fun W =>
    let V := o.vals.foldl (fun V x => V.land1 x.1 x.2) W
    if countsLatc o.instr then V.mapLanes done fun _ L => { L with latc := took } else V

/-- Outstanding work ends: its results land, and a fault that it has met becomes the warp's cause, or waits while the warp
has another, or its gang drains (22 R363; DEDUCED, log 23). -/
def State.endWork (s : State) (o : Work) : State :=
  let s1 := s.landWork o
  let gone := s1.mapGang o.ctx fun G => { G with accs := G.accs.filter fun p => p.id != o.id }
  match o.fault with
  | none => gone
  | some f =>
    if (s.warp o.ctx o.warp).cause.isSome || (s.gang o.ctx).phase ≠ .running then
      s1.mapGang o.ctx fun G => { G with accs := G.accs.map fun (p : Work) =>
        if p.id = o.id then { o with awaits := [], vals := [], args := [] } else p }
    else
      let ls := gone.faultSet o.ctx o.warp
      gone.mapWarp o.ctx o.warp fun W =>
        { W with cause := some { cls := f.cls, code := f.code, pc := o.pc, lanes := ls, words := f.words, masks := [],
                                 stuck := false, atIssue := false } }

/-- Whether a translation walk that an access of the work attached to is still under way (20 R328). -/
def State.walking (s : State) (o : Work) : Bool :=
  let die := s.coreOf o.ctx o.warp / 288
  s.walks.any fun w => w.die == die && w.asid == (s.gang o.ctx).asid && o.uni.contains (BitVec.ofNat 64 w.page)

/-- Whether outstanding work waits: for a bank, a swap, a sweep or a re-encryption (20 R344, R345; 24 R385, R386). -/
def State.workHeld (s : State) (o : Work) : Bool :=
  let write := o.awaits.isEmpty || match o.instr with
    | .amo .. | .cas .. => true
    | _ => false
  s.accHeld (s.gang o.ctx).asid o.cells (o.uni.map (·.toNat)) write

/-- An access that waits: its cells' banks thaw for it (24 R386), and it returns no longer at a rated time (20 R338). -/
def State.workWaits (s : State) (o : Work) : State :=
  (s.wakeAll o.cells).mapGang o.ctx fun G => { G with accs := G.accs.map fun (p : Work) => if p.id = o.id then { p with rated := false } else p }

/-- ROW_ACCESS_COMPLETE (13 R260): an access that took time returns. -/
def execRowAccessComplete (ctx acc : Nat) (s : State) : Host.Outcome State Fault Refusal :=
  match (s.gang ctx).accs.find? fun o => o.id == acc with
  | none => .next s
  | some o =>
    if o.mark ≠ 0 || s.dram.any fun r => r.ctx == ctx && r.acc == some acc then .next s
    else if s.walking o || s.workHeld o then .next (s.workWaits o)
    else .next (s.endWork (if o.cells.any s.containedCell then { o with vals := [], fault := some (flt 0x10 1) } else o))

/-- The checks of a keyed instruction at issue, items 2 to 5 of 13 R266. `e` is the element size, 0 where AUX is unused
(DEDUCED, log 46). -/
def State.keyCheck (s : State) (c : Cur) (i : Instr) (h : DWord) (kt e aux : Nat) : Except Flt Table :=
  match s.handle? (s.gang c.gang).asid (h.setWidth 32) with
  | none => .error (flt 0x0B 1)
  | some t =>
    let fmt := match i with
      | .tupdFmt .. => true
      | _ => false
    let seek := match i with
      | .tseek .. => true
      | _ => false
    if t.desc.tkind = 0 || (fmt && !t.mixed) || (seek && t.desc.tkind != 1) then .error (flt 0x0B 6)
    else if t.desc.keyt ≠ kt then .error (flt 0x0B 7)
    else if t.desc.width < aux + e then .error (fltAll 0x0B 4 c.set 0 (BitVec.ofNat 32 aux))
    else if e ≠ 0 && aux % e ≠ 0 then .error (fltAll 0x0B 5 c.set 0 (BitVec.ofNat 32 aux))
    else .ok t

/-- A keyed instruction starts: its lanes' operations go to the table's index engine in ascending order (13 R262, R266).
`dn` registers from `d` and f0 await them; `dv` and `bv` are the data captured. -/
def State.startKeyed (s : State) (c : Cur) (i : Instr) (t : Table) (a d dn : Nat) (dv bv : Nat → QWord) : State :=
  let W := s.warp c.gang c.warp
  let args := W.args c.issue dv (fun l => W.keyVal l a t.desc.keyt) bv fun _ => BitVec.ofNat 128 (dn + 1)
  let o := { s.newWork c i args [] with
    cells := [t.slot], awaits := (c.issue.map fun l => W.dst d dn l ++ [.flag l 0]).flatten }
  { s with idx := s.idx ++ [o] }.fresh

/-- No captured data. -/
def noData : Nat → QWord := fun _ => 0

/-- LDK (13 R264 to R266). -/
def execLdk (f : BitVec 4) (d a : BitVec 7) (sc : BitVec 3) (ord : BitVec 2) (o : BitVec 4) (cc : BitVec 7) (x : BitVec 16)
    (s : State) : Host.Outcome State Fault Refusal :=
  slot (.ldk f d a sc ord o cc x) s noPre fun c s =>
    (s.keyCheck c (.ldk f d a sc ord o cc x) ((s.warp c.gang c.warp).s cc.toNat) o.toNat (esize f.toNat) x.toNat).map fun t =>
      s.startKeyed c (.ldk f d a sc ord o cc x) t a.toNat d.toNat (fmtRegs f.toNat) noData noData

/-- STK (13 R264 to R266). -/
def execStk (f : BitVec 4) (d a : BitVec 7) (sc : BitVec 3) (ord : BitVec 2) (o : BitVec 4) (cc : BitVec 7) (x : BitVec 16)
    (s : State) : Host.Outcome State Fault Refusal :=
  slot (.stk f d a sc ord o cc x) s noPre fun c s =>
    let W := s.warp c.gang c.warp
    (s.keyCheck c (.stk f d a sc ord o cc x) (W.s cc.toNat) o.toNat (esize f.toNat) x.toNat).map fun t =>
      s.startKeyed c (.stk f d a sc ord o cc x) t a.toNat d.toNat 0 (fun l => W.data l d.toNat f.toNat) noData

/-- TGET (13 R264 to R266). -/
def execTget (d a : BitVec 7) (sc : BitVec 3) (ord : BitVec 2) (o : BitVec 4) (cc : BitVec 7) (s : State) :
    Host.Outcome State Fault Refusal :=
  slot (.tget d a sc ord o cc) s noPre fun c s =>
    (s.keyCheck c (.tget d a sc ord o cc) ((s.warp c.gang c.warp).s cc.toNat) o.toNat 0 0).map fun t =>
      s.startKeyed c (.tget d a sc ord o cc) t a.toNat d.toNat 2 noData noData

/-- TINS (13 R264 to R266). -/
def execTins (m : BitVec 1) (d a b : BitVec 7) (sc : BitVec 3) (ord : BitVec 2) (o : BitVec 4) (cc : BitVec 7) (x : BitVec 16)
    (s : State) : Host.Outcome State Fault Refusal :=
  slot (.tins m d a b sc ord o cc x) s noPre fun c s =>
    let W := s.warp c.gang c.warp
    (s.keyCheck c (.tins m d a b sc ord o cc x) (W.s cc.toNat) o.toNat 4 x.toNat).map fun t =>
      s.startKeyed c (.tins m d a b sc ord o cc x) t a.toNat d.toNat 2 noData fun l => (W.get l b.toNat).setWidth 128

/-- TDEL (13 R264 to R266). -/
def execTdel (d a : BitVec 7) (sc : BitVec 3) (ord : BitVec 2) (o : BitVec 4) (cc : BitVec 7) (s : State) :
    Host.Outcome State Fault Refusal :=
  slot (.tdel d a sc ord o cc) s noPre fun c s =>
    (s.keyCheck c (.tdel d a sc ord o cc) ((s.warp c.gang c.warp).s cc.toNat) o.toNat 0 0).map fun t =>
      s.startKeyed c (.tdel d a sc ord o cc) t a.toNat d.toNat 2 noData noData

/-- TUPD `.val` (13 R264 to R266). -/
def execTupdVal (d a b : BitVec 7) (sc : BitVec 3) (ord : BitVec 2) (o : BitVec 4) (cc : BitVec 7) (x : BitVec 16) (s : State) :
    Host.Outcome State Fault Refusal :=
  slot (.tupdVal d a b sc ord o cc x) s noPre fun c s =>
    let W := s.warp c.gang c.warp
    (s.keyCheck c (.tupdVal d a b sc ord o cc x) (W.s cc.toNat) o.toNat 4 x.toNat).map fun t =>
      s.startKeyed c (.tupdVal d a b sc ord o cc x) t a.toNat d.toNat 1 noData fun l => (W.get l b.toNat).setWidth 128

/-- TUPD `.fmt` (13 R264 to R266, 14 R274): a reserved format code faults TABLE.FMT. -/
def execTupdFmt (d a b : BitVec 7) (sc : BitVec 3) (ord : BitVec 2) (o : BitVec 4) (cc : BitVec 7) (s : State) :
    Host.Outcome State Fault Refusal :=
  slot (.tupdFmt d a b sc ord o cc) s noPre fun c s =>
    let W := s.warp c.gang c.warp
    match s.keyCheck c (.tupdFmt d a b sc ord o cc) (W.s cc.toNat) o.toNat 0 0 with
    | .error f => .error f
    | .ok t =>
      let m (l : Nat) : Nat := (W.get l b.toNat).toNat % 256
      match c.issue.find? fun l => m l == 0 || decide (8 ≤ m l) with
      | some l => .error (fltAt 0x0B 9 l 0 (BitVec.ofNat 32 (m l)))
      | none =>
        .ok (s.startKeyed c (.tupdFmt d a b sc ord o cc) t a.toNat d.toNat 1 noData fun l => (W.get l b.toNat).setWidth 128)

/-- One lane of TSEEK opens its cursor, or finds no number or entry free (13 R267, R268). An entry that pre-emption holds for a gang is not
free (22 R364). -/
def State.openCursor (s : State) (c : Cur) (k : Cursor) : State × Option Nat :=
  let wg := (s.warp c.gang c.warp).wg
  let open' := ((s.gang c.gang).wgs.getD wg default).cursors
  match (List.range (open'.length + 1)).find? fun n => !(open'.any fun e => e.num == n) with
  | none => (s, none)
  | some n =>
    let core := s.coreOf c.gang c.warp
    let t := s.mapGang c.gang fun G => G.mapWg wg fun (W : Wg) => { W with cursors := W.cursors ++ [{ k with num := n }] }
    if n < 2048 && s.cursorsOn core < Config.cursorEntries && s.keepsRoom t c.gang (core / 16) then (t, some (wg * 2048 + n))
    else (s, none)

/-- TSEEK (13 R268). -/
def execTseek (v : BitVec 1) (m : BitVec 2) (d a : BitVec 7) (sc : BitVec 3) (ord : BitVec 2) (o : BitVec 4) (cc : BitVec 7)
    (s : State) : Host.Outcome State Fault Refusal :=
  slot (.tseek v m d a sc ord o cc) s noPre fun c s =>
    let W := s.warp c.gang c.warp
    match s.keyCheck c (.tseek v m d a sc ord o cc) (W.s cc.toNat) o.toNat 0 0 with
    | .error f => .error f
    | .ok t =>
        let r := c.issue.foldl (fun (r : State × List (Tgt × DWord)) l =>
          let k : Cursor := { num := 0, slot := t.slot, inc := t.desc.inc, rev := v == 1, sc := sc.toNat, ord := ord.toNat,
                              key := keyNum o.toNat (W.keyVal l a.toNat o.toNat), incl := m.toNat % 2 == 0, last := none }
          let x := r.1.openCursor c k
          (x.1, r.2 ++ [W.put l d.toNat (BitVec.ofNat 32 (x.2.getD 0xFFFFFFFF)),
            (.flag l 0, (nzcv false x.2.isSome false false).setWidth 64)])) (s, [])
        .ok (r.1.await (r.1.newWork c (.tseek v m d a sc ord o cc) [] []) r.2)

/-- The checks of one lane of TCUR after its first window check (13 R269). `r` is the key field, where the form has one. -/
def State.curCheck (s : State) (c : Cur) (a : BitVec 7) (r : Option (BitVec 7)) (l : Nat) : Except Flt (Nat × Cursor × Table) :=
  let G := s.gang c.gang
  let W := G.warp c.warp
  match G.cursor (W.get l a.toNat) with
  | none => .error (fltAt 0x0B 8 l 0 (W.get l a.toNat))
  | some (wg, k) =>
    match (s.table? G.asid k.slot).filter fun t => t.desc.inc == k.inc with
    | none => .error (flt 0x0B 1)
    | some t =>
      match r with
      | none => .ok (wg, k, t)
      | some n =>
        if checkKey t.desc.keyt n then .error (flt 1 8)
        else if !W.fits l n.toNat (keyRegs t.desc.keyt) then .error (flt 3 1)
        else .ok (wg, k, t)

/-- TCUR `.step` (13 R269): the steps go to the table's index engine. -/
def execTcurStep (d a b : BitVec 7) (s : State) : Host.Outcome State Fault Refusal :=
  slot (.tcurStep d a b) s noPre fun c s =>
    let W := s.warp c.gang c.warp
    match c.issue.mapM fun l => (s.curCheck c a (some b) l).map fun r => (l, r) with
    | .error f => .error f
    | .ok rs =>
      let args := rs.map fun (r : Nat × Nat × Cursor × Table) =>
        ({ lane := r.1, w := r.2.1, d := BitVec.ofNat 128 r.2.2.1.num, a := 0,
           b := W.keyVal r.1 b.toNat r.2.2.2.desc.keyt, c := 3 } : Arg)
      let o := { s.newWork c (.tcurStep d a b) args [] with
        cells := (rs.map fun (r : Nat × Nat × Cursor × Table) => r.2.2.2.slot).eraseDups,
        awaits := (c.issue.map fun l => W.dst d.toNat 2 l ++ [.flag l 0]).flatten }
      .ok { s with idx := s.idx ++ [o] }.fresh

/-- TCUR `.close` (13 R269). -/
def execTcurClose (a : BitVec 7) (s : State) : Host.Outcome State Fault Refusal :=
  slot (.tcurClose a) s noPre fun c s =>
    match c.issue.mapM fun l => s.curCheck c a none l with
    | .error f => .error f
    | .ok rs =>
      .ok (rs.foldl (fun t (r : Nat × Cursor × Table) =>
        t.mapGang c.gang fun G => G.mapWg r.1 fun (W : Wg) =>
          { W with cursors := W.cursors.filter fun k => k.num != r.2.1.num }) s)

/-- TCUR `.key` (13 R269). -/
def execTcurKey (d a : BitVec 7) (s : State) : Host.Outcome State Fault Refusal :=
  slot (.tcurKey d a) s noPre fun c s =>
    let W := s.warp c.gang c.warp
    match c.issue.mapM fun l => (s.curCheck c a (some d) l).map fun r => (l, r) with
    | .error f => .error f
    | .ok rs =>
      .ok (s.await (s.newWork c (.tcurKey d a) [] []) ((rs.map fun (r : Nat × Nat × Cursor × Table) =>
        let kt := r.2.2.2.desc.keyt
        W.putWords r.1 d.toNat (keyRegs kt) ((r.2.2.1.last.map (keyWord kt)).getD 0) ++
          [(.flag r.1 0, (nzcv false r.2.2.1.last.isSome false false).setWidth 64)]).flatten))

end Sys2Proof.Machine
end

