-- ==== Sys2Proof/Machine/Gather.lean ====
section
/-! DEFINITION. The gather, and the work of the index engines (13 R262, R263, R269; 14 R275 to R278). -/

namespace Sys2Proof.Machine

/-- The checks of TGATH after its window, in the order of 14 R276. -/
def State.gathCheck (s : State) (c : Cur) (h : DWord) (kt aux : Nat) (tile : DWord) : Except Flt (Table × Tile) :=
  let G := s.gang c.gang
  match s.handle? G.asid (h.setWidth 32) with
  | none => .error (flt 0x0B 1)
  | some t =>
    if t.desc.tkind = 0 || !t.mixed then .error (flt 0x0B 6)
    else if t.desc.keyt ≠ kt then .error (flt 0x0B 7)
    else match s.tileOf c tile with
      | .error f => .error f
      | .ok u =>
        if tileTf u.desc = 6 || tileTf u.desc = 7 || tileCols u.desc ≠ t.elems then .error (flt 0x0A 6)
        else if tileRows u.desc < aux + c.issue.length then .error (fltAll 0x0A 4 c.set 0 (BitVec.ofNat 32 aux))
        else .ok (t, u)

/-- TGATH (14 R275 to R277). The operation counts on gx; its lookups go to the table's index engine under the same
number. -/
def execTgath (d a b : BitVec 7) (sc : BitVec 3) (ord : BitVec 2) (o : BitVec 4) (cc : BitVec 7) (x : BitVec 10) (s : State) :
    Host.Outcome State Fault Refusal :=
  slot (.tgath d a b sc ord o cc x) s needsAll fun c s =>
    let W := s.warp c.gang c.warp
    match s.gathCheck c (W.s b.toNat) o.toNat x.toNat (W.s cc.toNat) with
    | .error f => .error f
    | .ok (t, u) =>
      let args := W.args c.issue noData (fun l => W.keyVal l a.toNat o.toNat) noData noData
      let op := { s.newWork c (.tgath d a b sc ord o cc x) args [] with tiles := [u.num] }
      let look := { op with
        tiles := [], cells := [t.slot], awaits := [.sreg d.toNat, .sreg (d.toNat + 1), .gmiss] }
      .ok (({ s with idx := s.idx ++ [look] }.mapGang c.gang fun G => G.setTile u.num .filling).count op 5)

/-- A value in the format of a tile (14 R277). -/
def toTileVal (tf : Nat) (v : Num.Val) : Nat :=
  match tf with
  | 0 => Num.round .f32 .rne true v
  | 1 => Num.round .bf16 .rne true v
  | 2 => Num.round .f16 .rne true v
  | 3 => Num.round .e4m3 .rne true v
  | 4 => Num.round .e5m2 .rne true v
  | _ => (valI8 v).toNat

/-- One lookup of a gather (14 R277): the converted bytes of a hit, or none for a dropped key. -/
def State.gathLookup (s : State) (asid slot : Nat) (k : Int) (tf : Nat) : Except RowFault (State × Option (List Byte)) :=
  match s.table? asid slot with
  | none => .ok (s, none)
  | some t =>
    match t.find k with
    | none => .ok (s, none)
    | some e =>
      match s.keyCells t e.row 0 t.desc.width .read with
      | .error f => .error f
      | .ok cs =>
        match rowVals t.elems (cs.map (s.readCell (pathOf t.desc.aper 0))) with
        | none => .ok (s, none)
        | some vs =>
          .ok (s.mapTable asid slot (·.hit k),
            some ((vs.map fun v => leBytes (tfBits tf / 8) (toTileVal tf v)).flatten))

/-- The registers that lane j of keyed work awaits; the lanes' numbers of registers stand in the C of their operands. -/
def Work.tgtsOf (o : Work) (j : Nat) : List Tgt :=
  let skip := ((o.args.take j).map fun a => a.c.toNat).foldl (· + ·) 0
  (o.awaits.drop skip).take ((o.args[j]?.map fun a => a.c.toNat).getD 0)

/-- What a lane's operation answers, for the registers that await it: the words of D, then f0. -/
def answers (ts : List Tgt) (d : Option QWord) (flags : BitVec 4) : List (Tgt × DWord) :=
  let regs := ts.take (ts.length - 1)
  (match d with
    | some v => regs.zip (wordsOf v)
    | none => []) ++ (ts.drop (ts.length - 1)).map fun t => (t, flags.setWidth 64)

/-- One step of a cursor (13 R269). -/
def State.curStep (s : State) (g wg num : Nat) (bound : QWord) : State × KeyRes :=
  let G := s.gang g
  let none' : KeyRes := { d := some noRef, flags := nzcv false false true false }
  match (G.wgs.getD wg default).cursors.find? fun k => k.num == num with
  | none =>
    -- closed since by another warp: the spec gives no result
    (s, { d := some (BitVec.ofNat 128 (s.freeNat 5 0)), flags := BitVec.ofNat 4 (s.freeNat 6 0) })
  | some k =>
    match s.table? G.asid k.slot with
    | none => (s, none')
    | some t =>
      let b := keyNum t.desc.keyt bound
      match t.after k with
      | none => (s, none')
      | some e =>
        if (if k.rev then b ≤ e.key else e.key ≤ b) then
          (s.mapGang g fun G => G.mapWg wg fun (W : Wg) =>
            { W with cursors := W.cursors.map fun (c : Cursor) =>
                if c.num = num then { c with key := e.key, incl := false, last := some e.key } else c },
            { d := some ((t.ref e.row).setWidth 128), flags := nzcv false true false false })
        else (s, none')

/-- Whether a keyed instruction or a cursor has release order at some scope beyond the lane (13 R265). -/
def releases (i : Instr) : Bool :=
  match i with
  | .stk _ _ _ sc ord .. => 1 ≤ sc.toNat && 2 ≤ ord.toNat
  | .tins _ _ _ _ sc ord .. | .tupdVal _ _ _ sc ord .. | .tupdFmt _ _ _ sc ord .. => 1 ≤ sc.toNat && 2 ≤ ord.toNat
  | .tdel _ _ sc ord .. => 1 ≤ sc.toNat && 2 ≤ ord.toNat
  | _ => false

/-- The rows of a table as runs of physical bytes, one for each page: the first address and the length. -/
def State.pieces (s : State) (t : Table) : List (Nat × Nat) :=
  let lo := t.desc.rowbase
  let hi := lo + t.desc.width * t.desc.cap
  (List.range (hi / 4096 + 1 - lo / 4096)).filterMap fun k =>
    let a := max lo ((lo / 4096 + k) * 4096)
    match s.translate t.asid a with
    | .error _ => none
    | .ok x => some (x.pa a, min hi ((lo / 4096 + k + 1) * 4096) - a)

/-- Whether rows of two tables share bytes that both reach by one path (16 R279). -/
def State.sharesBytes (s : State) (t u : Table) : Bool :=
  t.desc.aper == u.desc.aper && (s.pieces t).any fun p => (s.pieces u).any fun q =>
    decide (p.1 < q.1 + q.2) && decide (q.1 < p.1 + p.2)

/-- Whether earlier work of a lane at an index engine stands before a later keyed operation of the lane on another table, since rows of
both share bytes: what the lane does to one byte by one path takes effect in program order (16 R282, R287, 25 R392, R394). -/
def State.aliasBefore (s : State) (p o : Work) : Bool :=
  (p.args.any fun a => a.lane == (o.args.getD o.mark default).lane) && p.cells.any fun x => o.cells.any fun y =>
    match s.table? (s.gang o.ctx).asid x, s.table? (s.gang o.ctx).asid y with
    | some t, some u => s.sharesBytes t u
    | _, _ => false

/-- Whether an index engine may perform the next lane of some work (13 R262): the warp's earlier keyed work on the same table has been done,
that of the lane on a table which shares bytes with it too, and all of it where the work releases (DEDUCED, log 18). -/
def State.idxReady (s : State) (o : Work) : Bool :=
  (s.idx.takeWhile fun p => p.id != o.id).all fun p =>
    !(p.ctx == o.ctx && p.warp == o.warp && (releases o.instr || p.cells.any o.cells.contains || s.aliasBefore p o))

/-- The state with the index work of a number changed. -/
def State.mapIdx (s : State) (id : Nat) (f : Work → Work) : State :=
  { s with idx := s.idx.map fun o => if o.id = id then f o else o }

/-- Index work whose lanes are all done leaves its engine; its results land as those of any access (13 R266). -/
def State.idxDone (s : State) (id : Nat) : State :=
  match s.idx.find? fun o => o.id == id with
  | none => s
  | some o =>
    if o.mark < o.args.length then s
    else { s with idx := s.idx.filter fun p => p.id != id }.mapGang o.ctx fun G =>
      { G with accs := G.accs ++ [{ o with mark := 0, cells := [] }] }

/-- What the access of an index engine leaves where it meets a fault: walks, and retired lines (20 R328, R346). -/
def State.noteBad {α : Type} (s : State) (o : Work) (r : Except RowFault α) : State :=
  match r with
  | .ok _ => s
  | .error f => (s.noteMisses s.site (s.gang o.ctx).asid f.misses).retire f.retires

/-- Index work with one more lane done, with its answer or the fault of its row. -/
def State.idxLane (s : State) (o : Work) (j : Nat) (r : Except RowFault KeyRes) : State :=
  let ts := o.tgtsOf j
  ((s.noteBad o r).mapIdx o.id fun (p : Work) =>
    match r with
    | .ok a => { p with mark := j + 1, vals := p.vals ++ answers ts a.d a.flags }
    | .error f => { p with mark := j + 1, fault := match p.fault with
        | none => some (f.at (o.args.getD j default).lane)
        | some g => some g }).idxDone o.id

/-- The end of a gather's lookups (14 R277): the hit bits, GMISS and the descriptor's MISS. -/
def State.gathEnd (s : State) (o : Work) (drops : Nat) : State :=
  let hits := (o.vals.map fun x => x.2.toNat).foldl (fun b l => b + 2 ^ l) 0
  let W := s.warp o.ctx o.warp
  let miss (n : Nat) : Nat := min (n + drops) 0xFFFFFFFF
  let vals := o.awaits.zip [BitVec.ofNat 64 hits, 0, BitVec.ofNat 64 (miss W.gmiss.toNat)]
  let s1 := s.mapTable (s.gang o.ctx).asid (o.cells.getD 0 0) fun t => { t with desc := { t.desc with miss := miss t.desc.miss } }
  { s1 with idx := s1.idx.filter fun p => p.id != o.id }.mapGang o.ctx fun G =>
    { G with accs := G.accs ++ [{ o with mark := 0, cells := [], vals := vals, args := [] }] }

/-- A fault that a gather meets is the engine's (10 R212): the tile is empty, and no register is written. -/
def State.gathFail (s : State) (o op : Work) (f : RowFault) : State :=
  let x := fltAll f.cls f.code laneIds op.auxWord f.faddr
  let t := (s.noteMisses s.site (s.gang o.ctx).asid f.misses).retire f.retires
  { t with idx := t.idx.filter fun p => p.id != o.id }.mapGang o.ctx fun G =>
    (G.failTile op).mapOp o.id fun (p : Work) => { p with fault := some x }

/-- Whether the index engine of a table of an address space is dead with its die: what it is asked completes with CONTAIN (24 R381). -/
def State.homeDead (s : State) (asid slot : Nat) : Bool :=
  ((s.table? asid slot).map fun t => s.dead.contains (.computeDie (t.desc.home / 32))).getD false

/-- One lookup of a gather at its index engine. Its work keeps the lanes that hit in `vals`, and the operation the converted bytes. -/
def State.gathLane (s : State) (o : Work) (j : Nat) : State :=
  let G := s.gang o.ctx
  let a := o.args.getD j default
  match G.op? o.id with
  | none => { s with idx := s.idx.filter fun p => p.id != o.id }
  | some op =>
    let tf := ((G.tile? (op.tiles.getD 0 0)).map fun t => tileTf t.desc).getD 0
    let slot := o.cells.getD 0 0
    let kt := ((s.table? G.asid slot).map fun t => t.desc.keyt).getD 0
    match if s.homeDead G.asid slot then .error (engFault 0x10 1 0) else s.gathLookup G.asid slot (keyNum kt a.a) tf with
    | .error f => s.gathFail o op f
    | .ok (s1, r) =>
      let o1 := { o with mark := j + 1, vals := o.vals ++ match r with
        | some _ => [(.ms, BitVec.ofNat 64 a.lane)]
        | none => [] }
      let s2 := s1.mapGang o.ctx fun G => G.mapOp o.id fun (p : Work) =>
        { p with cells := p.cells ++ (r.getD []).map (·.toNat) }
      if j + 1 < o.args.length then s2.mapIdx o.id fun _ => o1
      else s2.gathEnd o1 (o.args.length - o1.vals.length)

/-- The bytes of its row that a keyed operation, or a lookup of a gather, reads or writes (13 R263, R266; 14 R277). -/
def keySpans (i : Instr) (t : Table) (k : Int) : List Span :=
  let at' (row off len : Nat) (write : Bool) : Span := { tab := t, row := row, off := off, len := len, view := 0, write := write }
  match i, t.find k with
  | .ldk f _ _ _ _ _ _ x, some e => [at' e.row x.toNat (esize f.toNat) false]
  | .stk f _ _ _ _ _ _ x, some e => [at' e.row x.toNat (esize f.toNat) true]
  | .tins m _ _ _ _ _ _ _ x, some e => if m = 0 then [] else [at' e.row x.toNat 4 true]
  | .tins .., none => if t.desc.live < t.desc.cap then [at' t.freeRow 0 t.desc.width true] else []
  | .tupdVal _ _ _ _ _ _ _ x, some e => [at' e.row x.toNat 4 true]
  | .tupdFmt .., some e => [at' e.row 0 t.desc.width true]
  | .tgath .., some e => [at' e.row 0 t.desc.width false]
  | _, _ => []

/-- The bytes of rows that the next lane of some index work reads or writes. -/
def State.idxSpans (s : State) (o : Work) : List Span :=
  match s.table? (s.gang o.ctx).asid (o.cells.getD 0 0) with
  | none => []
  | some t => keySpans o.instr t (keyNum t.desc.keyt (o.args.getD o.mark default).a)

/-- An index engine acts on the youngest writes of the bytes of its operation, so that the stores hidden there become visible first (16 R282;
13 R263). -/
def State.publishIdx (s : State) (o : Work) : State :=
  (s.idxSpans o).foldl (fun t p =>
    match t.rowCells p.tab p.row p.off p.len .read with
    | .ok cs => t.publishCells (pathOf p.tab.desc.aper p.view) cs
    | .error _ => t) s

/-- What the accesses of the next lane of some index work leave: the index engine of the table's home slice makes them (13 R262). -/
def State.noteIdx (s : State) (o : Work) : State :=
  let home := ((s.table? (s.gang o.ctx).asid (o.cells.getD 0 0)).map (·.desc.home)).getD 0
  s.noteSpans (Site.ofDie (home / 32)) (s.idxSpans o)

/-- The directory slot of the table on which the next lane of some index work acts: of a cursor step it is its cursor's (13 R269). -/
def State.idxSlot (s : State) (o : Work) : Nat :=
  match o.instr with
  | .tcurStep .. =>
    let a := o.args.getD o.mark default
    ((((s.gang o.ctx).wgs.getD a.w default).cursors.find? fun k => k.num == a.d.toNat).map (·.slot)).getD (o.cells.getD 0 0)
  | _ => o.cells.getD 0 0

/-- One lane of some index work takes effect at its index engine, atomically (13 R262, R263, R266, R269; 14 R277), unless the engine is dead
(24 R381). -/
def State.idxStep (s : State) (o : Work) : State :=
  let j := o.mark
  let a := o.args.getD j default
  if s.homeDead (s.gang o.ctx).asid (s.idxSlot o) && !(o.instr matches .tgath ..) then
    s.idxLane o j (.error { cls := 0x10, code := 1, aux := 0, faddr := 0 })
  else match o.instr with
  | .tgath .. => s.gathLane o j
  | .tcurStep .. =>
    let r := s.curStep o.ctx a.w a.d.toNat a.b
    r.1.idxLane o j (.ok r.2)
  | i =>
    let asid := (s.gang o.ctx).asid
    let slot := o.cells.getD 0 0
    let kt := ((s.table? asid slot).map fun t => t.desc.keyt).getD 0
    let r := s.keyOp i asid slot (keyNum kt a.a) a.d a.b
    r.1.idxLane o j r.2

/-- INDEX_ENGINE_OPERATION (13 R262, R263, R266, R269): one lane's keyed operation or cursor step. -/
def execIndexEngineOperation (op : Nat) (s : State) : Host.Outcome State Fault Refusal :=
  match s.idx.find? fun o => o.id == op with
  | none => .next s
  | some o =>
    if !s.idxReady o then .next s
    else if s.spansHeld (s.idxSpans o) then .next (s.wakeSpans (s.idxSpans o))
    else .next (((s.publishIdx o).noteIdx o).idxStep o)

/-- TGATH_COMPLETE (14 R277): once every lookup has taken effect the tile rows are written. -/
def execTgathComplete (ctx op : Nat) (s : State) : Host.Outcome State Fault Refusal :=
  match (s.gang ctx).op? op with
  | none => .next s
  | some o =>
    match o.instr, o.fault, s.opEffect o with
    | .tgath .., none, .ok ws =>
      if s.idx.any fun p => p.id == op then .next s
      else .next (s.finishOp o ws fun G => G.setTile (o.tiles.getD 0 0) .ready)
    | _, _, _ => .next s

end Sys2Proof.Machine
end

