-- ==== Sys2Proof/Machine/Integer.lean ====
section
/-! DEFINITION. NOP, and integer arithmetic, logic, shifts and bit fields (01 R28, 05 R92 to R96). -/

namespace Sys2Proof.Machine

/-- NOP (01 R28). -/
def execNop (s : State) : Host.Outcome State Fault Refusal := slot .nop s noPre fun _ s => .ok s

/-- Operand B of an integer instruction as 64 bits: an s-register under U, else the lane register or the pair (01 R24). -/
def Warp.bVal (W : Warp) (u : BitVec 1) (t : BitVec 3) (l n : Nat) : DWord :=
  if u = 1 then W.s n else if 2 ≤ t.toNat then W.get64 l n else (W.get l n).setWidth 64

/-- The result of an integer instruction in one lane, at the width of TY: a function of the width and of d, a and b. -/
def Warp.intRes (W : Warp) (t : BitVec 3) (d a : BitVec 7) (b : DWord)
    (f : (w : Nat) → BitVec w → BitVec w → BitVec w → BitVec w) (l : Nat) : List (Tgt × DWord) :=
  if 2 ≤ t.toNat then W.put64 l d.toNat (f 64 (W.get64 l d.toNat) (W.get64 l a.toNat) b)
  else [W.put l d.toNat (f 32 (W.get l d.toNat) (W.get l a.toNat) (b.setWidth 32))]

/-- The issue of an R-form integer instruction with three operands (05 R92). -/
def intR (i : Instr) (s : State) (u : BitVec 1) (t : BitVec 3) (d a b : BitVec 7)
    (f : (w : Nat) → BitVec w → BitVec w → BitVec w → BitVec w) : Host.Outcome State Fault Refusal :=
  lanewise i s fun W l => W.intRes t d a (W.bVal u t l b.toNat) f l

/-- The issue of an R-form integer instruction with two operands. -/
def intR2 (i : Instr) (s : State) (t : BitVec 3) (d a : BitVec 7) (f : (w : Nat) → BitVec w → BitVec w) :
    Host.Outcome State Fault Refusal :=
  lanewise i s fun W l => W.intRes t d a 0 (fun w _ x _ => f w x) l

/-- The issue of an I-form integer instruction with its immediate m (05 R96). -/
def intI (i : Instr) (s : State) (t : BitVec 3) (d a : BitVec 7) (m : DWord)
    (f : (w : Nat) → BitVec w → BitVec w → BitVec w → BitVec w) : Host.Outcome State Fault Refusal :=
  lanewise i s fun W l => W.intRes t d a m f l

/-- Whether TY is a signed type (01 R29). -/
def signedTy (t : BitVec 3) : Bool := t.toNat % 2 == 0

/-- The exact value of an operand under TY (05 R92). -/
def tyVal {w : Nat} (t : BitVec 3) (v : BitVec w) : Int := if signedTy t then v.toInt else v.toNat

/-- The shift count of b (05 R93). -/
def shiftCount {w : Nat} (b : BitVec w) : Nat := b.toNat % 2 ^ 32

/-- Shift left: 0 at a count of the width or more (05 R93). -/
def shlVal {w : Nat} (a : BitVec w) (c : Nat) : BitVec w := if w ≤ c then 0 else a <<< c

/-- Shift right with zeros (05 R93). -/
def shrVal {w : Nat} (a : BitVec w) (c : Nat) : BitVec w := if w ≤ c then 0 else a >>> c

/-- Shift right with copies of the top bit (05 R93). -/
def sarVal {w : Nat} (a : BitVec w) (c : Nat) : BitVec w := a.sshiftRight (min c (w - 1))

/-- Position and clipped length of a bit field (05 R93). -/
def fieldOf {w : Nat} (b : BitVec w) : Nat × Nat :=
  let p := b.toNat % 256
  (p, if p < w then min (b.toNat / 256 % 256) (w - p) else 0)

/-- The field of `bfx` (05 R93). -/
def bfxVal {w : Nat} (signed : Bool) (a b : BitVec w) : BitVec w :=
  let (p, n) := fieldOf b
  if n = 0 then 0
  else
    let v := a.toNat / 2 ^ p % 2 ^ n
    if signed && 2 ^ (n - 1) ≤ v then BitVec.ofInt w ((v : Int) - 2 ^ n) else BitVec.ofNat w v

/-- The result of `bfi` (05 R93). -/
def bfiVal {w : Nat} (d a b : BitVec w) : BitVec w :=
  let (p, n) := fieldOf b
  if n = 0 then d
  else
    let mask := BitVec.ofNat w ((2 ^ n - 1) * 2 ^ p)
    (d &&& ~~~mask) ||| (BitVec.ofNat w (a.toNat % 2 ^ n * 2 ^ p) &&& mask)

/-- The count of one bits. -/
def popcount {w : Nat} (a : BitVec w) : Nat := (List.range w).foldl (fun n k => n + if a.getLsbD k then 1 else 0) 0

/-- The count of leading zero bits. -/
def leadingZeros {w : Nat} (a : BitVec w) : Nat := if a = 0 then w else w - 1 - a.toNat.log2

/-- The bits in reverse order. -/
def bitReverse {w : Nat} (a : BitVec w) : BitVec w :=
  BitVec.ofNat w ((List.range w).foldl (fun n k => n + if a.getLsbD k then 2 ^ (w - 1 - k) else 0) 0)

/-- IADD (05 R92). -/
def execIadd (u : BitVec 1) (t : BitVec 3) (d a b : BitVec 7) (s : State) : Host.Outcome State Fault Refusal :=
  intR (.iadd u t d a b) s u t d a b fun _ _ x y => x + y

/-- ISUB (05 R92). -/
def execIsub (u : BitVec 1) (t : BitVec 3) (d a b : BitVec 7) (s : State) : Host.Outcome State Fault Refusal :=
  intR (.isub u t d a b) s u t d a b fun _ _ x y => x - y

/-- IADDC (05 R94): D and f0 of every lane of ISSUE. -/
def execIaddc (u : BitVec 1) (t : BitVec 3) (d a b : BitVec 7) (s : State) : Host.Outcome State Fault Refusal :=
  lanewise (.iaddc u t d a b) s fun W l =>
    let k := if (flagOf (W.lane l).fib.flags 0).getLsbD 1 then 1 else 0
    let y := W.bVal u t l b.toNat
    let f := if 2 ≤ t.toNat then addcFlags (W.get64 l a.toNat) y k else addcFlags (W.get l a.toNat) (y.setWidth 32) k
    W.intRes t d a y (fun w _ p q => p + q + BitVec.ofNat w k) l ++ [(.flag l 0, f.setWidth 64)]

/-- IMUL (05 R92). -/
def execImul (u : BitVec 1) (t : BitVec 3) (d a b : BitVec 7) (s : State) : Host.Outcome State Fault Refusal :=
  intR (.imul u t d a b) s u t d a b fun _ _ x y => x * y

/-- IMULH (05 R92): the high half of the exact product. -/
def execImulh (u : BitVec 1) (t : BitVec 3) (d a b : BitVec 7) (s : State) : Host.Outcome State Fault Refusal :=
  intR (.imulh u t d a b) s u t d a b fun w _ x y => BitVec.ofInt w (tyVal t x * tyVal t y / 2 ^ w)

/-- IMAD (05 R92). -/
def execImad (u : BitVec 1) (t : BitVec 3) (d a b : BitVec 7) (s : State) : Host.Outcome State Fault Refusal :=
  intR (.imad u t d a b) s u t d a b fun _ z x y => z + x * y

/-- IMIN (05 R92). -/
def execImin (u : BitVec 1) (t : BitVec 3) (d a b : BitVec 7) (s : State) : Host.Outcome State Fault Refusal :=
  intR (.imin u t d a b) s u t d a b fun _ _ x y => if tyVal t x ≤ tyVal t y then x else y

/-- IMAX (05 R92). -/
def execImax (u : BitVec 1) (t : BitVec 3) (d a b : BitVec 7) (s : State) : Host.Outcome State Fault Refusal :=
  intR (.imax u t d a b) s u t d a b fun _ _ x y => if tyVal t x ≤ tyVal t y then y else x

/-- IABS (05 R92). -/
def execIabs (t : BitVec 3) (d a : BitVec 7) (s : State) : Host.Outcome State Fault Refusal :=
  intR2 (.iabs t d a) s t d a fun _ x => if x.msb then -x else x

/-- ICMP (05 R95, 02 R45). -/
def execIcmp (u : BitVec 1) (t : BitVec 3) (f : BitVec 2) (a b : BitVec 7) (s : State) : Host.Outcome State Fault Refusal :=
  lanewise (.icmp u t f a b) s fun W l =>
    let y := W.bVal u t l b.toNat
    let v := if 2 ≤ t.toNat then cmpFlags (W.get64 l a.toNat) y else cmpFlags (W.get l a.toNat) (y.setWidth 32)
    [(.flag l f.toNat, v.setWidth 64)]

/-- AND (05 R92). -/
def execAndR (u : BitVec 1) (t : BitVec 3) (d a b : BitVec 7) (s : State) : Host.Outcome State Fault Refusal :=
  intR (.andR u t d a b) s u t d a b fun _ _ x y => x &&& y

/-- OR (05 R92). -/
def execOrR (u : BitVec 1) (t : BitVec 3) (d a b : BitVec 7) (s : State) : Host.Outcome State Fault Refusal :=
  intR (.orR u t d a b) s u t d a b fun _ _ x y => x ||| y

/-- XOR (05 R92). -/
def execXorR (u : BitVec 1) (t : BitVec 3) (d a b : BitVec 7) (s : State) : Host.Outcome State Fault Refusal :=
  intR (.xorR u t d a b) s u t d a b fun _ _ x y => x ^^^ y

/-- ANDN (05 R92). -/
def execAndnR (u : BitVec 1) (t : BitVec 3) (d a b : BitVec 7) (s : State) : Host.Outcome State Fault Refusal :=
  intR (.andnR u t d a b) s u t d a b fun _ _ x y => x &&& ~~~y

/-- SHL (05 R93). -/
def execShl (u : BitVec 1) (t : BitVec 3) (d a b : BitVec 7) (s : State) : Host.Outcome State Fault Refusal :=
  intR (.shl u t d a b) s u t d a b fun _ _ x y => shlVal x (shiftCount y)

/-- SHR (05 R93). -/
def execShr (u : BitVec 1) (t : BitVec 3) (d a b : BitVec 7) (s : State) : Host.Outcome State Fault Refusal :=
  intR (.shr u t d a b) s u t d a b fun _ _ x y => shrVal x (shiftCount y)

/-- SAR (05 R93). -/
def execSar (u : BitVec 1) (t : BitVec 3) (d a b : BitVec 7) (s : State) : Host.Outcome State Fault Refusal :=
  intR (.sar u t d a b) s u t d a b fun _ _ x y => sarVal x (shiftCount y)

/-- ROT (05 R93). -/
def execRot (u : BitVec 1) (t : BitVec 3) (d a b : BitVec 7) (s : State) : Host.Outcome State Fault Refusal :=
  intR (.rot u t d a b) s u t d a b fun w _ x y => x.rotateLeft (shiftCount y % w)

/-- POPC (05 R92). -/
def execPopc (t : BitVec 3) (d a : BitVec 7) (s : State) : Host.Outcome State Fault Refusal :=
  intR2 (.popc t d a) s t d a fun w x => BitVec.ofNat w (popcount x)

/-- CLZ (05 R92). -/
def execClz (t : BitVec 3) (d a : BitVec 7) (s : State) : Host.Outcome State Fault Refusal :=
  intR2 (.clz t d a) s t d a fun w x => BitVec.ofNat w (leadingZeros x)

/-- BREV (05 R92). -/
def execBrev (t : BitVec 3) (d a : BitVec 7) (s : State) : Host.Outcome State Fault Refusal :=
  intR2 (.brev t d a) s t d a fun _ x => bitReverse x

/-- BFX (05 R93). -/
def execBfx (u : BitVec 1) (t : BitVec 3) (d a b : BitVec 7) (s : State) : Host.Outcome State Fault Refusal :=
  intR (.bfx u t d a b) s u t d a b fun _ _ x y => bfxVal (signedTy t) x y

/-- BFI (05 R93). -/
def execBfi (u : BitVec 1) (t : BitVec 3) (d a b : BitVec 7) (s : State) : Host.Outcome State Fault Refusal :=
  intR (.bfi u t d a b) s u t d a b fun _ z x y => bfiVal z x y

/-- The immediate of IADDI and ICMPI: sign-extended for the signed types (05 R96). -/
def tyImm (t : BitVec 3) (i : BitVec 8) : DWord := if signedTy t then i.signExtend 64 else i.setWidth 64

/-- IADDI (05 R96). -/
def execIaddi (t : BitVec 3) (i : BitVec 8) (d a : BitVec 7) (s : State) : Host.Outcome State Fault Refusal :=
  intI (.iaddi t i d a) s t d a (tyImm t i) fun _ _ x y => x + y

/-- ANDI (05 R96). -/
def execAndi (t : BitVec 3) (i : BitVec 8) (d a : BitVec 7) (s : State) : Host.Outcome State Fault Refusal :=
  intI (.andi t i d a) s t d a (i.signExtend 64) fun _ _ x y => x &&& y

/-- ORI (05 R96). -/
def execOri (t : BitVec 3) (i : BitVec 8) (d a : BitVec 7) (s : State) : Host.Outcome State Fault Refusal :=
  intI (.ori t i d a) s t d a (i.signExtend 64) fun _ _ x y => x ||| y

/-- XORI (05 R96). -/
def execXori (t : BitVec 3) (i : BitVec 8) (d a : BitVec 7) (s : State) : Host.Outcome State Fault Refusal :=
  intI (.xori t i d a) s t d a (i.signExtend 64) fun _ _ x y => x ^^^ y

/-- SHLI (05 R96). -/
def execShli (t : BitVec 3) (i : BitVec 8) (d a : BitVec 7) (s : State) : Host.Outcome State Fault Refusal :=
  intI (.shli t i d a) s t d a (i.setWidth 64) fun _ _ x y => shlVal x (shiftCount y)

/-- SHRI (05 R96). -/
def execShri (t : BitVec 3) (i : BitVec 8) (d a : BitVec 7) (s : State) : Host.Outcome State Fault Refusal :=
  intI (.shri t i d a) s t d a (i.setWidth 64) fun _ _ x y => shrVal x (shiftCount y)

/-- SARI (05 R96). -/
def execSari (t : BitVec 3) (i : BitVec 8) (d a : BitVec 7) (s : State) : Host.Outcome State Fault Refusal :=
  intI (.sari t i d a) s t d a (i.setWidth 64) fun _ _ x y => sarVal x (shiftCount y)

/-- ICMPI (05 R96, 02 R45). -/
def execIcmpi (t : BitVec 3) (i : BitVec 8) (f : BitVec 2) (a : BitVec 7) (s : State) : Host.Outcome State Fault Refusal :=
  lanewise (.icmpi t i f a) s fun W l =>
    let m := tyImm t i
    let v := if 2 ≤ t.toNat then cmpFlags (W.get64 l a.toNat) m else cmpFlags (W.get l a.toNat) (m.setWidth 32)
    [(.flag l f.toNat, v.setWidth 64)]

end Sys2Proof.Machine
end

