-- ==== Sys2Proof/Machine/Moves.lean ====
section
/-! DEFINITION. Moves, selects, status registers and uniform registers (02 R51 to R53, 05 R97 to R102, 24 R370). -/

namespace Sys2Proof.Machine

/-- MOVI (05 R97): `s` is SUB, 0 for `.sx` and 1 for `.zx`. -/
def execMovi (z : BitVec 1) (i : BitVec 8) (d : BitVec 7) (s : State) : Host.Outcome State Fault Refusal :=
  lanewise (.movi z i d) s fun W l => [W.put l d.toNat (if z = 0 then i.signExtend 32 else i.setWidth 32)]

/-- MOV (05 R97). -/
def execMov (x y : BitVec 1) (d a : BitVec 7) (s : State) : Host.Outcome State Fault Refusal :=
  lanewise (.mov x y d a) s fun W l =>
    if y = 1 then W.put64 l d.toNat (if x = 1 then W.s a.toNat else W.get64 l a.toNat)
    else [W.put l d.toNat (if x = 1 then (W.s a.toNat).setWidth 32 else W.get l a.toNat)]

/-- SEL (05 R98). -/
def execSel (u : BitVec 1) (f : BitVec 2) (d a b : BitVec 7) (s : State) : Host.Outcome State Fault Refusal :=
  lanewise (.sel u f d a b) s fun W l =>
    let y := if u = 1 then (W.s b.toNat).setWidth 32 else W.get l b.toNat
    [W.put l d.toNat (if (flagOf (W.lane l).fib.flags f.toNat).getLsbD 2 then W.get l a.toNat else y)]

/-- The value of status register `n` as lane `l` reads it (02 R51, 24 R370). CYC's own read is SRD_CYC. -/
def State.status (s : State) (g w l n : Nat) : Word :=
  let G := s.gang g
  let W := G.warp w
  let L := W.lane l
  let core := G.coreOf W
  let P := Place.ofId core
  let col := s.colOf P.die P.col
  let nat (k : Nat) : Word := BitVec.ofNat 32 k
  match n with
  | 0x00 => nat l
  | 0x01 => nat warpw
  | 0x02 => nat W.wid
  | 0x03 => nat W.wg
  | 0x04 => nat G.gangid
  | 0x05 => nat P.clu
  | 0x06 => nat P.col
  | 0x07 => nat P.die
  | 0x09 => W.cych
  | 0x0A => L.latc
  | 0x0B => nat ((if W.sbchk then 1 else 0) + (if W.serial then 2 else 0) + if W.handler then 4 else 0)
  | 0x0C => W.slim
  | 0x0D => L.sptrSeen
  | 0x0E => nat (W.x + 16 * s.poolFree core)
  | 0x0F => W.gmiss
  | 0x10 => W.trapc
  | 0x11 => W.trappc
  | 0x12 => L.trapaux
  | 0x13 => L.faddr
  | 0x14 => nat (s.heatOf P.die P.col)
  | 0x15 => nat G.prio
  | 0x16 => G.regid
  | 0x17 => nat G.asid
  | 0x40 => nat g
  | 0x41 => nat (min ((s.ecnt.lookup (P.die * 20 + col.phys)).getD 0) 0xFFFFFFFF)
  | 0x42 => nat col.phys
  | 0x43 => nat (col.st + 4 * s.heatOf P.die P.col)
  | _ => 0

/-- What a read of a status register gives in a lane: a set on the second port reads XALLOC and WSTAT as they stood before the
first port's set issued (02 R43). -/
def State.srdVal (s : State) (c : Cur) (l n : Nat) : Word :=
  match c.before with
  | some (x, w) => if n = 0x0E then x else if n = 0x0B then w else s.status c.gang c.warp l n
  | none => s.status c.gang c.warp l n

/-- SRD of any register but CYC (05 R99). -/
def execSrd (n : BitVec 8) (d : BitVec 7) (s : State) : Host.Outcome State Fault Refusal :=
  slot (.srd n d) s noPre fun c s =>
    .ok (s.post c (latency (.srd n d)) (c.issue.map fun l =>
      (s.warp c.gang c.warp).put l d.toNat (s.srdVal c l n.toNat)))

/-- SRD of CYC (02 R53): the same read latches bits [63:32] of that count for the warp, with the latency of the lane result (04
R81). -/
def execSrdCyc (d : BitVec 7) (s : State) : Host.Outcome State Fault Refusal :=
  slot (.srdCyc d) s noPre fun c s =>
    let now := s.now c.gang c.warp
    .ok (s.post c (latency (.srdCyc d)) ((c.issue.map fun l =>
      (s.warp c.gang c.warp).put l d.toNat (BitVec.ofNat 32 now)) ++ [(.cych, BitVec.ofNat 64 (now / 2 ^ 32))]))

/-- The value that a write of a per-warp register takes: the lowest lane of ISSUE's (02 R42, R51). -/
def Warp.lowest (W : Warp) (ls : List Nat) (a : BitVec 7) : Word := W.get (ls.headD 0) a.toNat

/-- SWR of SPTR, GMISS, TRAPC, TRAPAUX or FADDR (05 R99). -/
def execSwr (n : BitVec 8) (a : BitVec 7) (s : State) : Host.Outcome State Fault Refusal :=
  uniform (.swr n a) s fun W ls =>
    let low : DWord := (W.lowest ls a).setWidth 64
    match n.toNat with
    | 0x0D => ls.map fun l => (.sptr l, (W.get l a.toNat).setWidth 64)
    | 0x0F => [(.gmiss, low)]
    | 0x10 => [(.trapc, low)]
    | 0x12 => ls.map fun l => (.trapaux l, (W.get l a.toNat).setWidth 64)
    | 0x13 => ls.map fun l => (.faddr l, (W.get l a.toNat).setWidth 64)
    | _ => []

/-- SWR of WSTAT (05 R99): SBCHK alone. -/
def execSwrWstat (a : BitVec 7) (s : State) : Host.Outcome State Fault Refusal :=
  uniform (.swrWstat a) s fun W ls => [(.sbchk, (W.lowest ls a).setWidth 64)]

/-- SWR of SLIM (09 R195): clamped to the launch's STACK. -/
def execSwrSlim (a : BitVec 7) (s : State) : Host.Outcome State Fault Refusal :=
  slot (.swrSlim a) s noPre fun c s =>
    let v := (s.warp c.gang c.warp).lowest c.issue a
    .ok (s.post c (latency (.swrSlim a)) [(.slim, BitVec.ofNat 64 (min v.toNat (s.gang c.gang).launch.stack))])

/-- SWR of TRAPPC (24 R372): in handler mode, and it marks TRAPPC as written when it lands. -/
def execSwrTrappc (a : BitVec 7) (s : State) : Host.Outcome State Fault Refusal :=
  uniform (.swrTrappc a) s fun W ls => [(.trappc, (W.lowest ls a).setWidth 64)]

/-- V2S (05 R100). -/
def execV2s (m : BitVec 4) (d a : BitVec 7) (s : State) : Host.Outcome State Fault Refusal :=
  uniform (.v2s m d a) s fun W ls =>
    let l := ls.headD 0
    [(.sreg d.toNat, match m.toNat with
      | 0 => (W.get l a.toNat).setWidth 64
      | 1 => W.get64 l a.toNat
      | _ => BitVec.ofNat 64 (ls.foldl (fun m l => m + 2 ^ l) 0))]

/-- The result of SALU (05 R101). -/
def saluVal (m : Nat) (x y : DWord) : DWord :=
  match m with
  | 0 => x + y
  | 1 => x - y
  | 2 => x * y
  | 3 => x &&& y
  | 4 => x ||| y
  | 5 => x ^^^ y
  | 6 => shlVal x y.toNat
  | 7 => shrVal x y.toNat
  | 8 => sarVal x y.toNat
  | 9 => if x.toInt ≤ y.toInt then x else y
  | 10 => if x.toInt ≤ y.toInt then y else x
  | 11 => if x.toNat ≤ y.toNat then x else y
  | 12 => if x.toNat ≤ y.toNat then y else x
  | _ => x

/-- SALU (05 R101). -/
def execSalu (m : BitVec 4) (d a b : BitVec 7) (s : State) : Host.Outcome State Fault Refusal :=
  uniform (.salu m d a b) s fun W _ => [(.sreg d.toNat, saluVal m.toNat (W.s a.toNat) (W.s b.toNat))]

/-- SMOVI (05 R102): byte K of sD replaced. -/
def execSmovi (k : BitVec 3) (i : BitVec 8) (d : BitVec 7) (s : State) : Host.Outcome State Fault Refusal :=
  uniform (.smovi k i d) s fun W _ =>
    let mask : DWord := BitVec.ofNat 64 (0xFF * 256 ^ k.toNat)
    [(.sreg d.toNat, (W.s d.toNat &&& ~~~mask) ||| BitVec.ofNat 64 (i.toNat * 256 ^ k.toNat))]

end Sys2Proof.Machine
end

