-- ==== Sys2Proof/Machine/Objects.lean ====
section
/-! DEFINITION. Replayed objects: methods, call logs, replay engines, RCALL and RREAD (18 R302 to R321). -/

namespace Sys2Proof.Machine

/-- The object that a handle names, if it is valid (18 R303). -/
def State.obj? (s : State) (asid : Nat) (h : Word) : Option Obj :=
  s.objs.find? fun o => o.asid == asid && o.slot == (fld h 0 16).toNat && o.inc == (fld h 16 16).toNat

/-- The object of a directory slot. -/
def State.objAt (s : State) (asid slot : Nat) : Option Obj := s.objs.find? fun o => o.asid == asid && o.slot == slot

/-- The object that some work at an object was issued for, of the incarnation that its handle named (18 R303, R320). -/
def State.objOf (s : State) (w : Work) : Option Obj :=
  s.objs.find? fun o => o.asid == (s.gang w.ctx).asid && o.slot == w.cells.getD 0 0 && o.inc == (w.uni.getD 0 0).toNat

/-- The state with an object changed. -/
def State.mapObj (s : State) (asid slot : Nat) (f : Obj → Obj) : State :=
  { s with objs := s.objs.map fun o => if o.asid = asid && o.slot = slot then f o else o }

/-- What a method holds while it runs (18 R306): its registers, flags, return stack, program counter and state block. -/
structure MRun where
  regs : List Word
  flags : BitVec 16
  stack : List Host.Cell
  sptr : Word
  pc : Word
  mem : List Host.Cell
  deriving DecidableEq, Repr, Inhabited

/-- A method's fibre as the lane of a warp of its own, with its state block in place of the cluster-memory share and its own code in
the instruction cache, so that its instructions have the effects their entries give (18 R307). -/
def MRun.state (r : MRun) (m : Method) (size : Nat) : State :=
  let f : Fibre := { (default : Fibre) with pc := r.pc, flags := r.flags }
  let L : Lane := { (default : Lane) with slot := .live, fib := f, regs := r.regs, sptr := r.sptr, stack := r.stack }
  let W : Warp := { (default : Warp) with lanes := [L], slim := 256 }
  let G : Gang := { (default : Gang) with warps := [W], cmem := r.mem, phase := .running,
                                          launch := { (default : LaunchRec) with cmem := size } }
  { State.reset with
    gangs := [G],
    icache := (List.range (m.code.length / 4)).map fun q =>
      { core := 0, asid := 0, quad := (m.entry - 4).toNat + 16 * q, words := (m.code.drop (4 * q)).take 4 },
    cur := some { gang := 0, warp := 0, core := 0, set := [0], issue := [0], pc := r.pc, stall := 0, guard := none, rep := none,
                  before := none } }

/-- The method's state after a slot: every result is written before the next slot (18 R307). -/
def MRun.after (t : State) : MRun :=
  let W0 := t.warp 0 0
  let W := ((t.gang 0).accs.foldl (fun V o => o.vals.foldl (fun V x => V.land1 x.1 x.2) V) W0).land 1000
  let L := W.lane 0
  { regs := L.regs, flags := L.fib.flags, stack := L.stack, sptr := L.sptr, pc := L.fib.pc, mem := (t.gang 0).cmem }

/-- The meaning of an instruction that a method may execute (18 R307); none for every other. -/
def methodExec (i : Instr) (s : State) : Option (Host.Outcome State Fault Refusal) :=
  match i with
  | .nop => some (execNop s)
  | .iadd 0 t d a b => some (execIadd 0 t d a b s)
  | .isub 0 t d a b => some (execIsub 0 t d a b s)
  | .iaddc 0 t d a b => some (execIaddc 0 t d a b s)
  | .imul 0 t d a b => some (execImul 0 t d a b s)
  | .imulh 0 t d a b => some (execImulh 0 t d a b s)
  | .imad 0 t d a b => some (execImad 0 t d a b s)
  | .imin 0 t d a b => some (execImin 0 t d a b s)
  | .imax 0 t d a b => some (execImax 0 t d a b s)
  | .iabs t d a => some (execIabs t d a s)
  | .icmp 0 t f a b => some (execIcmp 0 t f a b s)
  | .andR 0 t d a b => some (execAndR 0 t d a b s)
  | .orR 0 t d a b => some (execOrR 0 t d a b s)
  | .xorR 0 t d a b => some (execXorR 0 t d a b s)
  | .andnR 0 t d a b => some (execAndnR 0 t d a b s)
  | .shl 0 t d a b => some (execShl 0 t d a b s)
  | .shr 0 t d a b => some (execShr 0 t d a b s)
  | .sar 0 t d a b => some (execSar 0 t d a b s)
  | .rot 0 t d a b => some (execRot 0 t d a b s)
  | .popc t d a => some (execPopc t d a s)
  | .clz t d a => some (execClz t d a s)
  | .brev t d a => some (execBrev t d a s)
  | .bfx 0 t d a b => some (execBfx 0 t d a b s)
  | .bfi 0 t d a b => some (execBfi 0 t d a b s)
  | .iaddi t i d a => some (execIaddi t i d a s)
  | .andi t i d a => some (execAndi t i d a s)
  | .ori t i d a => some (execOri t i d a s)
  | .xori t i d a => some (execXori t i d a s)
  | .shli t i d a => some (execShli t i d a s)
  | .shri t i d a => some (execShri t i d a s)
  | .sari t i d a => some (execSari t i d a s)
  | .icmpi t i f a => some (execIcmpi t i f a s)
  | .movi z i d => some (execMovi z i d s)
  | .mov 0 y d a => some (execMov 0 y d a s)
  | .sel 0 f d a b => some (execSel 0 f d a b s)
  | .bra sl o => some (execBra sl o s)
  | .call sl o => some (execCall sl o s)
  | .ret => some (execRet s)
  | .trap n => some (execTrap n s)
  | .ldl f d a b => some (execLdl f d a b s)
  | .stl f d a b => some (execStl f d a b s)
  | _ => none

/-- Where a step of a method leads: on, to the method's end, or to a method trap with its TCODE and TAUX (18 R308, R310). -/
inductive MStep where
  | go (r : MRun)
  | done (r : MRun)
  | trap (code : Nat) (aux : Word)
  deriving DecidableEq, Repr, Inhabited

/-- Whether a pc names a slot of the method's own code (18 R306). -/
def Method.owns (m : Method) (pc : Word) : Bool :=
  let o := (pc - (m.entry - 4)).toNat
  namesSlot pc && decide (o < 4 * m.code.length)

/-- A method goes on at a pc, or takes MT.BRANCH where that is outside its own code (18 R310). -/
def Method.goOn (m : Method) (r : MRun) : MStep := if m.owns r.pc then .go r else .trap 8 (r.pc - m.entry)

/-- A method trap of the fault that a slot's entry raises (18 R310): TCODE and TAUX. -/
def methodFault (c : Cause) (sptr : Word) (off : Word) : MStep :=
  let o := (c.word 0).2
  match c.cls.toNat, c.code.toNat with
  | 8, 1 => .trap 2 o
  | 8, _ => .trap 3 o
  | 4, _ => .trap 5 sptr
  | _, _ => .trap 1 off

/-- Whether a CALL of a method names a target that faults at the call: MT.INSN comes before MT.STACK (18 R310, 08 R167). -/
def callsBad (i : Instr) (s : State) (pc : Word) : Bool :=
  match i with
  | .call sl o => (s.targetCode 0 0 (bTarget pc sl o)).isSome
  | _ => false

/-- One step of a method (18 R306 to R310). -/
def methodStep (m : Method) (size : Nat) (r : MRun) : MStep :=
  let k := slotOf r.pc
  let q := (r.pc - (m.entry - 4)).toNat / 16
  let ws := (m.code.drop (4 * q)).take 4
  let off := r.pc - m.entry
  match decodeSlot ws k with
  | .error _ => .trap 1 off
  | .ok i =>
    if i.check.isSome then .trap 1 off
    else match methodExec i (r.state m size) with
      | none => .trap 1 off
      | some out =>
        if !holds (gcOf (ws.getD 0 0) k) (flagOf r.flags (fselOf (ws.getD 0 0) k)) then m.goOn { r with pc := nextPc r.pc }
        else if callsBad i (r.state m size) r.pc then .trap 1 off
        else match i, out with
          | .ret, _ => if r.sptr = 0 then .done r else match out with
            | .next t => match (t.warp 0 0).cause with
              | some c => methodFault c r.sptr off
              | none => m.goOn (MRun.after t)
            | _ => .trap 1 off
          | .trap n, _ => .trap 6 (n.setWidth 32)
          | .stl _ _ a b, .next t =>
            if (r.state m size).offWindow i ((r.state m size).cur.getD default) then .trap 1 off
            else if m.ro then .trap 7 (((r.state m size).warp 0 0).get 0 a.toNat + ((r.state m size).warp 0 0).get 0 b.toNat)
            else match (t.warp 0 0).cause with
              | some c => methodFault c r.sptr off
              | none => m.goOn (MRun.after t)
          | _, .next t =>
            match (t.warp 0 0).cause with
            | some c => methodFault c r.sptr off
            | none => m.goOn (MRun.after t)
          | _, _ => .trap 1 off

/-- A method run within a budget of steps: a step beyond it takes MT.BUDGET (18 R308, R310; DEDUCED, log 49). -/
def runSteps (m : Method) (size : Nat) : Nat → MRun → MStep
  | 0, _ => .trap 4 0
  | n + 1, r =>
    match methodStep m size r with
    | .go t => runSteps m size n t
    | x => x

/-- A method called on a state block with eight arguments (18 R306, R308). -/
def runMethod (m : Method) (block : List Byte) (args : List Word) : MStep :=
  let r : MRun := { regs := (args.take 8) ++ List.replicate (64 - (args.take 8).length) 0, flags := 0, stack := [],
                    sptr := 0, pc := m.entry, mem := Memory.putBytes [] 0 block }
  if m.owns m.entry then runSteps m block.length 4096 r else .trap 8 0

/-- The outcome of a call: the state block after it, TCODE, TAUX and results (18 R308). -/
def Obj.outcome (o : Obj) (meth : Nat) (block : List Byte) (args : List Word) : List Byte × Nat × Word × List Word :=
  match runMethod (o.methods.getD meth default) block args with
  | .done r => (Memory.bytes r.mem 0 block.length, 0, 0, r.regs.take 4)
  | .trap c aux => (block, c, aux, [0, 0, 0, 0])
  | .go _ => (block, 4, 0, [0, 0, 0, 0])

/-- The replica of a die, whether its engine works or not. -/
def Obj.repOf (o : Obj) (die : Nat) : Replica := (o.reps.find? fun r => r.die == die).getD default

/-- The replica that serves a die: its own, or the home die's where its engine has failed (18 R315, R321). -/
def Obj.localRep (o : Obj) (die : Nat) : Replica :=
  match o.reps.find? fun r => r.die == die && !r.failed with
  | some r => r
  | none => o.repOf o.home

/-- The least sequence number that every live replica has applied (18 R305, R321). -/
def Obj.applied (o : Obj) : Nat :=
  match (o.reps.filter fun r => !r.failed).map (·.applied) with
  | [] => 0
  | a :: r => r.foldl min a

/-- The object with its replica on a die changed. -/
def Obj.mapRep (o : Obj) (die : Nat) (f : Replica → Replica) : Obj :=
  { o with reps := o.reps.map fun (r : Replica) => if r.die = die then f r else r }

/-- The eight arguments of a lane's call, as they were read at issue. -/
def Arg.words (a : Arg) : List Word :=
  ((List.range 4).map fun j => a.a.extractLsb' (32 * j) 32) ++ (List.range 4).map fun j => a.b.extractLsb' (32 * j) 32

/-- The lanes' captured arguments from register `n`, with `d` and `c` of their own. -/
def Warp.callArgs (W : Warp) (ls : List Nat) (n : Nat) (d c : Nat → QWord) : List Arg :=
  W.args ls d (fun l => W.get128 l n) (fun l => W.get128 l (n + 4)) c

/-- OBJ.HANDLE, and CONTAIN.AGENT of an object whose calls are lost (18 R312, R321). -/
def State.objCheck (s : State) (c : Cur) (r : BitVec 7) : Except Flt Obj :=
  match s.obj? (s.gang c.gang).asid (((s.warp c.gang c.warp).s r.toNat).setWidth 32) with
  | none => .error (flt 0x0C 1)
  | some o => if o.lost then .error (flt 0x10 1) else .ok o

/-- OBJ.METHOD, with FADDR the method number (18 R312, R315). -/
def methodCheck (c : Cur) (o : Obj) (m : Nat) (ro : Bool) : Option Flt :=
  let k := o.methods.getD m default
  if !k.present || (ro && !k.ro) then some (fltAll 0x0C 2 c.set 0 (BitVec.ofNat 32 m)) else none

/-- Work at an object joins the calls in order of issue. -/
def State.startCall (s : State) (o : Work) : State := { s with calls := s.calls ++ [o] }.fresh

/-- RCALL (18 R311 to R313). -/
def execRcall (d a : BitVec 7) (sc : BitVec 3) (ord : BitVec 2) (r : BitVec 7) (m : BitVec 6) (s : State) :
    Host.Outcome State Fault Refusal :=
  slot (.rcall d a sc ord r m) s noPre fun c s =>
    match s.objCheck c r with
    | .error f => .error f
    | .ok o =>
      match methodCheck c o m.toNat false with
      | some f => .error f
      | none =>
        let W := s.warp c.gang c.warp
        .ok (s.startCall { s.newWork c (.rcall d a sc ord r m) (W.callArgs c.issue a.toNat noData noData) [BitVec.ofNat 64 o.inc] with
          cells := [o.slot], awaits := (c.issue.map fun l => W.dst d.toNat 2 l).flatten })

/-- Whether the gang of some work is on the device, or has halted with the work issued (18 R313, R320). -/
def State.mayCall (s : State) (o : Work) : Bool :=
  let p := (s.gang o.ctx).phase
  p == .running || p == .draining || p == .halted

/-- Work at an object ends: its results land as those of any access, or it meets a fault. -/
def State.callDone (s : State) (o : Work) : State :=
  let s1 := { s with calls := s.calls.filter fun p => p.id != o.id }
  if (s.gang o.ctx).phase = .halted then s1
  else s1.mapGang o.ctx fun G => { G with accs := G.accs ++ [{ o with mark := 0, cells := [] }] }

/-- A pair of registers receives a 64-bit number. -/
def pairVals (ts : List Tgt) (v : Nat) : List (Tgt × DWord) :=
  ts.zip [BitVec.ofNat 64 (v % 2 ^ 32), BitVec.ofNat 64 (v / 2 ^ 32 % 2 ^ 32)]

/-- The calls appended to an object's log (18 R304, R312): contiguous numbers that ascend with the lanes. -/
def Obj.append (o : Obj) (w : Work) (meth asid die : Nat) : Obj :=
  let es := w.args.mapIdx fun k a =>
    ({ seq := o.tail + 1 + k, meth := meth, state := 1, tcode := 0, taux := 0, args := a.words, res := [0, 0, 0, 0],
       asid := asid, lane := a.lane, die := die } : LogEntry)
  let tail := o.tail + es.length
  { o with tail := tail, log := (o.log ++ es).filter fun e => tail < e.seq + Config.logEntries }

/-- LOG_APPEND (18 R305, R312, R321): once the log has room and has its mirror, and after the warp's earlier calls on the object. -/
def execLogAppend (req : Nat) (s : State) : Host.Outcome State Fault Refusal :=
  match s.calls.find? fun o => o.id == req with
  | none => .next s
  | some w =>
    match w.instr with
    | .rcall _ _ _ _ _ m =>
      let slot := w.cells.getD 0 0
      let asid := (s.gang w.ctx).asid
      let earlier := (s.calls.takeWhile fun p => p.id != req).any fun p =>
        p.ctx == w.ctx && p.warp == w.warp && p.cells == w.cells && p.uni == w.uni && (p.instr matches .rcall ..)
      if earlier || !s.mayCall w then .next s
      else match s.objOf w with
        | none => .next (s.callDone { w with fault := some (flt 0x0C 1) })
        | some o =>
          if o.lost then .next (s.callDone { w with fault := some (flt 0x10 1) })
          else if o.copying || o.mirror.isNone || o.applied + Config.logEntries < o.tail + w.args.length then .next s
          else
            let die := s.coreOf w.ctx w.warp / 288
            let s1 := s.mapObj asid slot fun o => o.append w m.toNat asid die
            let vals := (w.args.mapIdx fun k _ => pairVals ((w.awaits.drop (2 * k)).take 2) (o.tail + 1 + k)).flatten
            .next (s1.callDone { w with vals := vals })
    | _ => .next s

/-- The sequencer's news of one more append reaches a die's engine, in ascending order (18 R315). -/
def State.newsStep (s : State) (asid slot die : Nat) : State :=
  s.mapObj asid slot fun o => o.mapRep die fun (r : Replica) => if r.failed then r else { r with known := min (r.known + 1) o.tail }

/-- A log entry with its call's outcome (18 R304, R308). -/
def LogEntry.settle (e : LogEntry) (out : Nat × Word × List Word) : LogEntry :=
  { e with tcode := out.1, taux := out.2.1, res := out.2.2, state := if out.1 = 0 then 2 else 3 }

/-- The home replica's engine writes the outcomes that it has computed, once both copies of the log can hold them (18 R308, R321). -/
def Obj.publish (o : Obj) : Obj :=
  if o.copying || o.mirror.isNone then o
  else
    let outs := (o.repOf o.home).outs
    let log := o.log.map fun (e : LogEntry) => match outs.lookup e.seq with
      | some x => if e.state = 1 then e.settle x else e
      | none => e
    let waits (n : Nat) : Bool := log.any fun e => e.seq == n && e.state == 1
    { o with log := log, reps := o.reps.map fun (r : Replica) => { r with outs := r.outs.filter fun x => waits x.1 } }

/-- REPLAY_APPLY (18 R308, R309). -/
def execReplayApply (asid slot die : Nat) (s : State) : Host.Outcome State Fault Refusal :=
  match s.objAt asid slot with
  | none => .next s
  | some o =>
    match o.reps.find? fun r => r.die == die && !r.failed with
    | none => .next s
    | some r =>
      if o.lost || r.known ≤ r.applied then .next s
      else match o.log.find? fun e => e.seq == r.applied + 1 with
        | none => .next s
        | some e =>
          let x := o.outcome e.meth r.state e.args
          .next (s.mapObj asid slot fun o => (o.mapRep die fun (r : Replica) =>
            { r with state := x.1, applied := r.applied + 1, outs := r.outs ++ [(e.seq, x.2)] }).publish)

/-- RREAD's checks at issue (18 R315), then its start. `tgt` is what the lane waits for. -/
def State.startRead' (s : State) (c : Cur) (i : Instr) (r : BitVec 7) (m : Option Nat) (args : Warp → Obj → List Arg)
    (d : BitVec 7) : Except Flt State :=
  match s.objCheck c r with
  | .error f => .error f
  | .ok o =>
    match m.bind fun k => methodCheck c o k true with
    | some f => .error f
    | none =>
      let W := s.warp c.gang c.warp
      .ok (s.startCall { s.newWork c i (args W o) [BitVec.ofNat 64 o.inc] with
        cells := [o.slot], awaits := (c.issue.map fun l => W.dst d.toNat 4 l ++ [.flag l 0]).flatten })

/-- The catch-up target of a lane: T, or the local tail where T is 0; after the die's engine has failed that is no lower than it was
(18 R316, R317, R321). -/
def Obj.target (o : Obj) (die t : Nat) : Nat := if t = 0 then max (o.localRep die).known (o.repOf die).known else t

/-- RREAD `.read` (18 R314 to R316). -/
def execRreadRead (d a b : BitVec 7) (sc : BitVec 3) (ord : BitVec 2) (r : BitVec 7) (m : BitVec 6) (s : State) :
    Host.Outcome State Fault Refusal :=
  slot (.rreadRead d a b sc ord r m) s noPre fun c s =>
    let die := s.coreOf c.gang c.warp / 288
    s.startRead' c (.rreadRead d a b sc ord r m) r (some m.toNat) (fun W o => W.callArgs c.issue a.toNat
      (fun l => (W.get64 l b.toNat).setWidth 128)
      fun l => BitVec.ofNat 128 (o.target die (W.get64 l b.toNat).toNat)) d

/-- RREAD `.wait` (18 R314, R315, R317). -/
def execRreadWait (d b : BitVec 7) (sc : BitVec 3) (ord : BitVec 2) (r : BitVec 7) (s : State) :
    Host.Outcome State Fault Refusal :=
  slot (.rreadWait d b sc ord r) s noPre fun c s =>
    s.startRead' c (.rreadWait d b sc ord r) r none (fun W _ => W.args c.issue
      (fun l => (W.get64 l b.toNat).setWidth 128) noData noData noData) d

/-- RREAD `.stat` (18 R318). -/
def execRreadStat (d : BitVec 7) (sc : BitVec 3) (ord : BitVec 2) (r : BitVec 7) (s : State) : Host.Outcome State Fault Refusal :=
  slot (.rreadStat d sc ord r) s noPre fun c s =>
    match s.objCheck c r with
    | .error f => .error f
    | .ok o =>
      let W := s.warp c.gang c.warp
      let p := o.localRep (s.coreOf c.gang c.warp / 288)
      .ok (s.await (s.newWork c (.rreadStat d sc ord r) [] []) (c.issue.map fun l =>
        pairVals (W.dst d.toNat 2 l) p.known ++ pairVals (W.dst (d.toNat + 2) 2 l) p.applied).flatten)

/-- The answer of `.wait` for call `q`, once a row of 18 R317 applies. `known` is the local engine's tail. -/
def Obj.waitAnswer (o : Obj) (q known : Nat) (acq : Bool) : Option (List Word × BitVec 4) :=
  if q = 0 then some ([0, 0, 0, 0], 0)
  else if o.tail < q || (acq && known < q) then none
  else if q + Config.logEntries ≤ o.tail then some ([0, 0, 0, 0], nzcv false false true false)
  else match o.log.find? fun e => e.seq == q with
    | none => none
    | some e =>
      if e.state = 2 then some (e.res, nzcv false true false false)
      else if e.state = 3 then some ([BitVec.ofNat 32 e.tcode, e.taux, 0, 0], nzcv false false false true)
      else none

/-- The answer of `.read` on a replica that has caught up (18 R316). -/
def Obj.readAnswer (o : Obj) (p : Replica) (m : Nat) (args : List Word) : List Word × BitVec 4 :=
  let (_, tcode, taux, res) := o.outcome m p.state args
  if tcode = 0 then (res, nzcv false true false false)
  else ([BitVec.ofNat 32 tcode, taux, 0, 0], nzcv false false false true)

/-- Lane j of a read has its answer. -/
def Work.answer (w : Work) (j : Nat) (a : List Word × BitVec 4) : Work :=
  { w with cells := w.cells ++ [j],
           vals := w.vals ++ ((w.awaits.drop (5 * j)).take 5).zip ((a.1.map fun (v : Word) => v.setWidth 64) ++ [a.2.setWidth 64]) }

/-- The lanes of a read that can be answered now: of `.wait` every one; of `.read` the first without an answer, from a prefix no
shorter than any that a read of the die has seen, so that lanes and successive reads see prefixes that do not decrease (18 R316). -/
def State.answerLanes (s : State) (w : Work) (o : Obj) : Work :=
  let die := s.coreOf w.ctx w.warp / 288
  let p := o.localRep die
  match w.instr with
  | .rreadRead _ _ _ _ _ _ m =>
    let j := w.cells.length - 1
    match w.args[j]? with
    | none => w
    | some a => if a.c.toNat ≤ p.applied && (o.repOf die).applied ≤ p.applied then w.answer j (o.readAnswer p m.toNat a.words) else w
  | .rreadWait _ _ _ ord _ =>
    (List.range w.args.length).foldl (fun (v : Work) j =>
      if (v.cells.drop 1).contains j then v
      else match o.waitAnswer (v.args.getD j default).d.toNat p.known (ord == 1) with
        | none => v
        | some a => v.answer j a) w
  | _ => w

/-- RREAD_RETURN (18 R316, R317): the lanes that can be answered are, and the results land once all are (DEDUCED, log 48). -/
def execRreadReturn (req : Nat) (s : State) : Host.Outcome State Fault Refusal :=
  match s.calls.find? fun o => o.id == req with
  | none => .next s
  | some w =>
    let isRead := (w.instr matches .rreadRead ..) || (w.instr matches .rreadWait ..)
    let earlier := (w.instr matches .rreadRead ..) && (s.calls.takeWhile fun p => p.id != req).any fun p =>
      p.ctx == w.ctx && p.warp == w.warp && p.cells.head? == w.cells.head? && p.uni == w.uni && (p.instr matches .rreadRead ..)
    if !isRead || earlier || !s.mayCall w then .next s
    else match s.objOf w with
      | none => .next (s.callDone { w with fault := some (flt 0x0C 1) })
      | some o =>
        if o.lost then .next (s.callDone { w with fault := some (flt 0x10 1) })
        else
          let v := s.answerLanes w o
          if v.args.length < v.cells.length then .next (s.callDone v)
          else .next { s with calls := s.calls.map fun (p : Work) => if p.id = req then v else p }

/-- A resumed gang performs its reads again as if they issued now (18 R320). -/
def State.rereadCalls (s : State) (ctx : Nat) : State :=
  { s with calls := s.calls.map fun (w : Work) =>
      if w.ctx ≠ ctx || (w.instr matches .rcall ..) then w
      else match s.objOf w with
        | none => { w with vals := [], cells := w.cells.take 1 }
        | some o =>
          let die := s.coreOf ctx w.warp / 288
          { w with vals := [], cells := w.cells.take 1,
                   args := w.args.map fun (a : Arg) => { a with c := BitVec.ofNat 128 (o.target die (a.d.toNat % 2 ^ 64)) } } }

/-- The mirror of an object's log: the lowest die other than home whose replay engine works (18 R321). -/
def Obj.mirrorOf (o : Obj) : Option Nat :=
  ((List.range 4).find? fun d => d != o.home && o.reps.any fun r => r.die == d && !r.failed)

/-- The replica of a die is dropped. What the reads that it has served relied on is kept for its die, and for the dies whose reads it
served in place of their own (18 R316, R317, R321). -/
def Obj.dropRep (o : Obj) (die : Nat) : Obj :=
  let p := o.repOf die
  { o with reps := o.reps.map fun (r : Replica) =>
      if r.die = die then { r with failed := true, outs := [] }
      else if r.failed && o.home = die then { r with applied := max r.applied p.applied, known := max r.known p.known }
      else r }

/-- The object after the replay engine of a die has failed (18 R321): its replica is dropped; the home role moves to the
mirror, whose engine then writes the outcomes; a new mirror receives the log; without a copy the calls are lost, and without a mirror
no append and no outcome is made (DEDUCED, log 52). -/
def Obj.failed (o : Obj) (die : Nat) : Obj :=
  let p := o.dropRep die
  if o.home = die then
    match o.mirror with
    | none => { p with lost := true }
    | some m =>
      if o.copying || (p.repOf m).failed then { p with lost := true }
      else
        let q := { p with home := m }
        { q with mirror := q.mirrorOf, copying := q.mirrorOf.isSome }
  else if o.mirror = some die then { p with mirror := p.mirrorOf, copying := p.mirrorOf.isSome }
  else p

/-- The replay engine of a die has failed (18 R321, 24 R380). -/
def State.replayFailed (s : State) (die : Nat) : State := { s with objs := s.objs.map fun o => o.failed die }

/-- LOG_MIRROR_COPY_COMPLETE (18 R321): the outcomes that waited are written. -/
def execLogMirrorCopyComplete (asid slot : Nat) (s : State) : Host.Outcome State Fault Refusal :=
  .next (s.mapObj asid slot fun o => { o with copying := false }.publish)

end Sys2Proof.Machine
end

