-- ==== Sys2Proof/Machine/Contain.lean ====
section
/-! DEFINITION. Dead agents: what they contain, and the gangs that halt with them (24 R380, R381; 22 R363). -/

namespace Sys2Proof.Machine

/-- Whether a dead agent takes the cores of a logical column with it (24 R380, R387). -/
def State.deadColumn (s : State) (die col : Nat) : Bool :=
  s.dead.any fun a => match a with
    | .computeDie k => k == die
    | .column d c => d == die && c == col
    | _ => false

/-- Whether a gang has warps on an agent. -/
def Gang.liesOn (G : Gang) (a : Agent) : Bool :=
  match a with
  | .computeDie k => G.place.die == k
  | .column d c => G.place.die == d && G.place.col == c
  | _ => false

/-- The 64-byte halves of a line of the host window that hold some of its dirty pieces, as ranges. -/
def hostHalves (line : Nat) (dirty : BitVec 8) : List Nat :=
  if !inHost (128 * line) then []
  else ((List.range 2).filter fun k => dirty.extractLsb' (4 * k) 4 != 0).map fun k => 128 * line + 64 * k

/-- The lines, homed elsewhere, that a compute die's caches held exclusive, as ranges of the dead agent of number `n`: those of regions that it
held exclusive, and the lines of host memory that it had modified (24 R380; DEDUCED, log 53). -/
def State.heldExclusive (s : State) (a : Agent) (n : Nat) : List (Nat × Nat × Nat) :=
  match a with
  | .computeDie k =>
    let lines := (((s.l2.filter fun e => e.die == k).map (·.line)) ++ (s.l1.filter fun e => e.core / 288 == k).map (·.line)).eraseDups
    ((s.regions.filter fun r => r.owner == some k).flatMap fun r => (lines.filter r.holdsLine).map fun l =>
      let lo := max r.base (128 * l)
      (lo, min (r.base + r.size) (128 * l + 128) - lo, n)) ++
    ((s.l2.filter fun e => e.die == k).flatMap (fun e => hostHalves e.line e.dirty) ++
      (s.l1.filter fun e => e.core / 288 == k && (e.st == .m || e.st == .o)).flatMap fun e => hostHalves e.line e.valid).eraseDups.map
        fun c => (c, 64, n)
  | _ => []

/-- The accesses outstanding to what is contained complete with CONTAIN, also where a CONTAIN.CLR comes before their completion (24 R381). -/
def State.failOutstanding (s : State) : State :=
  let closed (o : Work) : Work :=
    if o.mark = 0 && o.fault.isNone && o.cells.any s.containedCell then { o with vals := [], fault := some (flt 0x10 1) } else o
  { s with gangs := s.gangs.map fun (G : Gang) => { G with accs := G.accs.map closed } }

/-- The containment broadcast: the agent's ranges are contained from here on; a dead hub's ports are dead, and with hub 0
the host link retrains on hub 1 (24 R380). -/
def State.broadcast (s : State) (a : Agent) : State :=
  State.failOutstanding { s with
    dead := s.dead ++ [a],
    taken := s.taken ++ s.heldExclusive a s.dead.length,
    regions := match a with
      | .computeDie k => s.regions.map fun (r : Region) =>
          { r with owner := r.owner.filter (· != k), sharers := r.sharers.filter (· != k) }
      | _ => s.regions,
    l1 := match a with
      | .computeDie k => s.l1.filter fun e => e.core / 288 != k
      | _ => s.l1,
    l2 := match a with
      | .computeDie k => s.l2.filter fun e => e.die != k
      | _ => s.l2,
    hubLines := match a with
      | .hub h => s.hubLines.filter fun l => homeDie (128 * l) != 4 + h
      | _ => s.hubLines,
    deadLinks := match a with
      | .hub h => s.deadLinks ++ hubPorts h
      | _ => s.deadLinks,
    retraining := match a with
      | .hub 0 => s.retraining ++ [hostLink]
      | _ => s.retraining }

/-- An agent is declared dead (24 R380, R381): the broadcast, the failover of its replay engine, and the halt of every gang
with a warp on it, which starts the fault-domain rule. The spec gives such a halt no TRAPPC: it is free (DESIGN CHOICE, log 9). -/
def State.declareDead (s : State) (a : Agent) : State :=
  if s.dead.contains a then s
  else
    let s1 := s.broadcast a
    let s2 := match a with
      | .computeDie k | .replayEngine k => s1.replayFailed k
      | _ => s1
    (s2.residents.filter fun g => (s2.gang g).liesOn a).foldl (fun t g =>
      if (t.gang g).resident then t.haltGang g 0x10 1 (BitVec.ofNat 32 (s.freeNat 2 g)) true else t) s2

/-- COHERENCE_ACK_TIMEOUT (24 R380): an acknowledgement has not come within 50 us. -/
def execCoherenceAckTimeout (agent : Agent) (s : State) : Host.Outcome State Fault Refusal := .next (s.declareDead agent)

/-- DIE_WATCHDOG (24 R380): it watches dies, stacks and hubs. -/
def execDieWatchdog (agent : Agent) (s : State) : Host.Outcome State Fault Refusal :=
  match agent with
  | .computeDie _ | .stack _ | .hub _ => .next (s.declareDead agent)
  | _ => .next s

/-- LINK_DEAD (24 R379, R380): the agent behind the link is dead. Which agent that is is free (DESIGN CHOICE, log 11). -/
def execLinkDead (link : Nat) (s : State) : Host.Outcome State Fault Refusal :=
  let s1 := { s with deadLinks := link :: s.deadLinks.filter fun l => l != link }
  match (agentsOf s.peers)[Config.linkAgent link]? with
  | some a => .next (s1.declareDead a)
  | none => .next s1

/-- LINK_RETRAIN_COMPLETE (24 R380, R385): a dead link carries nothing again. -/
def execLinkRetrainComplete (link : Nat) (s : State) : Host.Outcome State Fault Refusal :=
  if s.deadLinks.contains link then .next s
  else .next { s with retraining := s.retraining.filter fun l => l != link }

/-- DRAIN_TIMEOUT (22 R363): an engine operation of a pre-empted gang, or a fetch of its stream program, has not completed in 20 us, which
counts as a missed acknowledgement of the gang's column (DEDUCED, log 34). -/
def execDrainTimeout (ctx : Nat) (s : State) : Host.Outcome State Fault Refusal :=
  let G := s.gang ctx
  let busy := (G.ops.any fun o => !G.opOver o) || ((G.producer.map fun p => p.fetching.isSome).getD false)
  if G.phase = .draining && busy then .next (s.declareDead (.column G.place.die G.place.col))
  else .next s

end Sys2Proof.Machine
end

