-- ==== Sys2Proof/Machine/Sync.lean ====
section
/-! DEFINITION. FENCE, AMO and CAS (16 R294 to R301). -/

namespace Sys2Proof.Machine

/-- The paths of one view through every aperture. -/
def viewPaths (view : Nat) : BitVec 6 := (0x15 : BitVec 6) <<< view

/-- The paths of a view joined for one cell: `es` are its stale bytes, the oldest first (16 R294). Every path of the view then
returns the youngest byte that one of them held. -/
def joinAlias (cell view : Nat) (es : List Stale) : List Stale :=
  let mask := viewPaths view &&& allPaths cell
  let held := es.foldl (fun a e => a ||| e.paths) 0
  let young := if mask &&& ~~~held ≠ 0 then es.length
    else (((es.zipIdx.filter fun p => p.1.paths &&& mask != 0).getLast?).map (·.2)).getD es.length
  (es.zipIdx.map fun p => { p.1 with paths := if p.2 = young then p.1.paths ||| (mask &&& held) else p.1.paths &&& ~~~mask }).filter
    fun (e : Stale) => e.paths != 0

/-- Whether an L1 copy is under another aperture tag than a write to its line that has not been joined: some path through another
aperture does not hold what a stale byte of the line holds. -/
def L1Line.isBehind (e : L1Line) (st : List Stale) : Bool :=
  st.any fun x => x.cell / 128 == e.line &&
    (List.range 6).any fun p => p / 2 != e.aper && (allPaths x.cell).getLsbD p && !x.paths.getLsbD p

/-- The apertures of every cell joined, within each view, once every store is visible. The copies under another aperture tag than a write, in
the L1s of the cores that the fence's scope takes in, are written back or dropped, and the others stay, marked for the fence that takes them
in; monitors that now see a write fire (16 R294; 08 R179). -/
def State.aliasJoin (s : State) (cores : Nat → Bool) : State :=
  let s := s.publishAll
  let late (e : L1Line) : Bool := e.behind || e.isBehind s.stale
  let c := (s.l1.filter fun e => cores e.core && late e).foldl Caches.dropL1 s.caches
  let cells := (s.stale.map (·.cell)).eraseDups
  let of (c : Nat) : List Stale := (joinAlias c 1 (joinAlias c 0 (s.stale.filter fun e => e.cell == c).reverse)).reverse
  let st := (cells.map of).flatten
  { s.putCaches { c with l1 := c.l1.map fun (e : L1Line) => { e with behind := late e } } with
    stale := st, monitors := monitorsJoined s.monitors s.stale st }

/-- Whether a FENCE is an alias fence (16 R294). -/
def aliasFence (l : BitVec 1) (sc : BitVec 3) : Bool := (l == 1 && sc == 5) || decide (6 ≤ sc.toNat)

/-- Whether outstanding work is an engine's, which no fence waits for (16 R293, R296). -/
def Work.ofEngine (o : Work) : Bool := o.instr matches .tgath .. | .xaccRd ..

/-- The outstanding accesses of some lanes of a warp, by number: they have issued and not returned. A fence `.acq` waits for those that
return a value only, and none waits for an engine (16 R296). -/
def State.outstanding (s : State) (c : Cur) (ord : BitVec 2) : List Nat :=
  let mine (o : Work) : Bool :=
    !o.ofEngine && o.warp == c.warp && (o.owners.any c.issue.contains) && (ord != 1 || !o.awaits.isEmpty)
  (((s.gang c.gang).accs.filter fun o => o.mark == 0 && mine o).map (·.id)) ++
    (s.idx.filter fun o => o.ctx == c.gang && mine o).map (·.id)

/-- FENCE (16 R295, R296); at `.thr` an order has the effect of `.rlx` (R280). A fence that is complete at once leaves nothing
behind. -/
def execFence (l : BitVec 1) (o : BitVec 2) (sc : BitVec 3) (s : State) : Host.Outcome State Fault Refusal :=
  slot (.fence l o sc) s noPre fun c s =>
    let ws := if o = 0 || sc = 0 then [] else s.outstanding c o
    if ws.isEmpty && !aliasFence l sc then .ok s
    else
      let w := { s.newWork c (.fence l o sc) [] [] with waits := ws, mark := 1 }
      let s1 := s.onLanes c c.issue fun _ L => L.mapFib fun f => { f with fence := some w.id }
      .ok ((s1.mapGang c.gang fun G => { G with accs := G.accs ++ [w] }).fresh)

/-- FENCE_COMPLETE (16 R294, R296): every access it waits for has returned; an alias fence joins the apertures. -/
def execFenceComplete (ctx warp fence : Nat) (s : State) : Host.Outcome State Fault Refusal :=
  match (s.gang ctx).accs.find? fun o => o.id == fence && o.warp == warp with
  | none => .next s
  | some w =>
    match w.instr with
    | .fence l _ sc =>
      let busy := w.waits.any fun id => ((s.gang ctx).accs.any fun o => o.id == id) || s.idx.any fun o => o.id == id
      if busy then .next s
      else
        let die := s.coreOf ctx warp / 288
        let s1 := if aliasFence l sc then s.aliasJoin fun k => sc != 5 || k / 288 == die else s
        let s2 := s1.mapGang ctx fun G => { G with accs := G.accs.filter fun o => o.id != fence }
        .next (s2.mapWarp ctx warp fun W => W.mapAll fun _ L =>
          if L.fib.fence = some fence then L.mapFib fun f => { f with fence := none } else L)
    | _ => .next s

/-- The new value of a read-modify-write (16 R299), for elements of `w` bits. -/
def amoNew (w : Nat) (op : Nat) (m b : BitVec w) : BitVec w :=
  match op with
  | 0 => m + b
  | 1 => m &&& b
  | 2 => m ||| b
  | 3 => m ^^^ b
  | 4 => if m.toInt ≤ b.toInt then m else b
  | 5 => if m.toInt ≤ b.toInt then b else m
  | 6 => if m.toNat ≤ b.toNat then m else b
  | 7 => if m.toNat ≤ b.toNat then b else m
  | 8 => b
  | _ => BitVec.ofNat w (Num.fadd (if w = 64 then .f64 else .f32) .rne m.toNat b.toNat)

/-- A byte as a lane of an atomic finds it: in the peer window, what a lower lane of the same instruction has just written there, and else
what the remote device answers (16 R299, R301; 24 R388). `n` bytes had gone out before the instruction. -/
def State.afterLower (s : State) (n cell : Nat) (b : Byte) : Byte := ((s.sent.drop n).reverse.lookup cell).getD b

/-- One lane's read-modify-write (16 R299, R301): the value that stood, and the new one written where there is one. It acts on the youngest
write, so that the stores hidden at its cells become visible first (16 R282). -/
def State.rmwLane (s : State) (n : Nat) (a : LaneAcc) (off : Nat) (new : Nat → Option Nat) : State × Nat :=
  let s := s.publishCells a.path a.cells
  let old := leNat ((a.cells.zip (s.loadBytes a.tab a.row off 0 a.cells)).map fun p => s.afterLower n p.1 p.2)
  match new old with
  | none => (s, old)
  | some n => (s.storeBytes a.tab a.row off 0 a.cells (leBytes a.cells.length n), old)

/-- The read-modify-writes of lanes in ascending order, with the value that each found. A lane whose line is lost, or whose check fails,
does nothing. -/
def State.rmwFrom (s : State) (n off : Nat) (new : Nat → Nat → Option Nat) : List LaneAcc → State × List (Nat × Nat)
  | [] => (s, [])
  | a :: r =>
    if a.isBad s then s.rmwFrom n off new r
    else
      let x := s.rmwLane n a off (new a.lane)
      let y := x.1.rmwFrom n off new r
      (y.1, (a.lane, x.2) :: y.2)

/-- The read-modify-writes of the lanes of an instruction. -/
def State.rmwAll (s : State) (off : Nat) (new : Nat → Nat → Option Nat) (as : List LaneAcc) : State × List (Nat × Nat) :=
  s.rmwFrom s.sent.length off new as

/-- AMO (16 R297 to R299). -/
def execAmo (m : BitVec 4) (d a b : BitVec 7) (sc : BitVec 3) (ord : BitVec 2) (o : BitVec 4) (x : BitVec 16) (s : State) :
    Host.Outcome State Fault Refusal :=
  slot (.amo m d a b sc ord o x) s noPre fun c s =>
    let W := s.warp c.gang c.warp
    let k := 1 + o.toNat
    match s.laneAccs c (4 * k) .rmw (fun l => W.get64 l a.toNat) fun _ => x.toNat with
    | .error f => .error f
    | .ok as =>
      let r := s.rmwAll x.toNat (fun l old =>
        some (if k = 2 then (amoNew 64 m.toNat (BitVec.ofNat 64 old) (W.get64 l b.toNat)).toNat
          else (amoNew 32 m.toNat (BitVec.ofNat 32 old) (W.get l b.toNat)).toNat)) as
      .ok (r.1.startRead c (.amo m d a b sc ord o x) (as.filter fun q => !q.isBad s) as (W.dst d.toNat k) fun q =>
        wordsOf (BitVec.ofNat 128 ((r.2.lookup q.lane).getD 0)))

/-- CAS (16 R300, R301). -/
def execCas (m : BitVec 4) (d a b : BitVec 7) (sc : BitVec 3) (ord : BitVec 2) (f : BitVec 2) (x : BitVec 16) (s : State) :
    Host.Outcome State Fault Refusal :=
  slot (.cas m d a b sc ord f x) s noPre fun c s =>
    let W := s.warp c.gang c.warp
    let k := 1 + m.toNat
    let val (l n : Nat) : Nat := if k = 2 then (W.get64 l n).toNat else (W.get l n).toNat
    match s.laneAccs c (4 * k) .rmw (fun l => W.get64 l a.toNat) fun _ => x.toNat with
    | .error e => .error e
    | .ok as =>
      let r := s.rmwAll x.toNat
        (fun l old => if old = val l d.toNat then some (val l b.toNat) else none) as
      .ok (r.1.startRead c (.cas m d a b sc ord f x)
        (as.filter fun q => r.2.lookup q.lane == some (val q.lane d.toNat)) as (fun l => W.dst d.toNat k l ++ [.flag l f.toNat]) fun q =>
        let old := (r.2.lookup q.lane).getD 0
        (wordsOf (BitVec.ofNat 128 old)).take k ++ [(nzcv false (old == val q.lane d.toNat) false false).setWidth 64])

end Sys2Proof.Machine
end

