-- ==== Sys2Proof/Machine/Placement.lean ====
section
/-! DEFINITION. The placement scheduler: what a gang needs, where it fits, the commit of a new or resumed gang, and
pre-emption (22 R350, R358 to R365). -/

namespace Sys2Proof.Machine

/-- Whether a demand fits every budget of a path but CORES (22 R350). A field that inherits adds no test of its own, since
a region's use counts against its parent too. -/
def State.fitsBudgets (s : State) (p : List (DWord × Rcb)) (d : Demand) : Bool :=
  p.all fun x =>
    (x.2.firnk == 0xFFFFFFFF || decide (s.useFirn x.1 + d.firn ≤ 1024 * x.2.firnk)) &&
    (x.2.cmemk == 0xFFFFFFFF || decide (s.useCmem x.1 + d.cmem ≤ 1024 * x.2.cmemk)) &&
    (x.2.xshare == 0xFFFF || decide (s.useX x.1 + d.wgs.foldl (fun a w => a + w.2.2) 0 ≤ x.2.xshare))

/-- Whether the CORES use of every region of a path stays within its budget, counted after placement (22 R350, R359). -/
def State.fitsCores (s : State) (p : List (DWord × Rcb)) (wgs : Nat) (at' : Place) : Bool :=
  let mine := (List.range wgs).map fun w => at'.id + w
  p.all fun x => x.2.cores == 0xFFFFFFFF || decide ((s.useCores x.1 ++ mine).eraseDups.length ≤ x.2.cores)

/-- The effective priority of a gang, or the one it was placed with where its region cannot be read. -/
def State.prioOf (s : State) (g : Nat) : Nat :=
  match s.regionPath (s.gang g).region with
  | some p => effPrio p
  | none => (s.gang g).prio

/-- Whether a gang waits for placement (22 R359, R365); a new one only while its queue places gangs (R355). -/
def State.waits (s : State) (g : Nat) : Bool :=
  (s.gang g).phase == .saved || ((s.gang g).phase == .waiting && s.queuePlaces (s.gang g).queue)

/-- Whether gang a commits before gang b (22 R360). -/
def State.precedes (s : State) (a b : Nat) : Bool :=
  let p := s.prioOf a
  let q := s.prioOf b
  let saved (g : Nat) := (s.gang g).phase == .saved
  decide (q < p) || (p == q && ((saved a && !saved b) || (saved a == saved b &&
    (decide ((s.gang a).headAt < (s.gang b).headAt) || ((s.gang a).headAt == (s.gang b).headAt && decide (a < b))))))

/-- The places of a column, in the order in which they are tried (22 R359). -/
def placesOf (die col : Nat) : List Place :=
  (List.range 16).map fun n => { die := die, col := col, clu := n / 4, core := n % 4 }

/-- Whether a column may take new gangs of a region: active, of an allowed die, not dead, at code 12 or lower. -/
def State.openColumn (s : State) (p : List (DWord × Rcb)) (c : Nat × Nat) : Bool :=
  (s.colOf c.1 c.2).st == 0 && !s.deadColumn c.1 c.2 && (effDies p).testBit c.1 && decide (s.heatOf c.1 c.2 ≤ 12)

/-- A lane slot at launch (22 R361; 02 R36; 08 R163). -/
def launchLane (entry : Word) (now : Nat) : Lane :=
  { slot := .live, regs := List.replicate 64 0, bank := List.replicate 16 0, latc := 0, sptr := 0, sptrSeen := 0, trapaux := 0,
    faddr := 0, stack := [],
    fib := { pc := entry, w := 0, flags := 0, age := 0, readyAt := now, yieldAt := none, fence := none, rep := none,
             inH := false, saved := none } }

/-- A warp at launch (02 R36, R41, R51; 22 R361). -/
def launchWarp (r : LaunchRec) (wg wid warpSlot now : Nat) (sregs : List DWord) : Warp :=
  { wg := wg, wid := wid, x := 0, lanes := List.replicate warpw (launchLane r.entry now), sregs := sregs, ms := 0, cych := 0,
    sbchk := false, serial := false, handler := false, slim := BitVec.ofNat 32 r.stack, gmiss := 0, trapc := 0, trappc := 0,
    trappcWritten := false, pend := [], issued := List.replicate 7 0, rejoinTab := [], rejoinOut := [], cause := none,
    candidate := 0, raised := false, lastIssue := 0, warpSlot := warpSlot, retired := false }

/-- The warp slots of a core that no resident warp holds, lowest first. -/
def State.slotsOf (s : State) (core : Nat) : List Nat :=
  (List.range Config.warpSlots).filter fun n => !((s.onCore core).any fun p => (s.warp p.1 p.2).warpSlot == n)

/-- s0 to s63 at launch: s0 to s31 from bytes 0 to 255 of the constant table's row, which read 0 at and beyond WIDTH or
where the row cannot be read (02 R41, 22 R354; DEDUCED, log 51). -/
def State.constants (s : State) (asid : Nat) (r : DWord) : List DWord :=
  let bs := if r = 0 then [] else
    match s.refCheck asid r with
    | .error _ => []
    | .ok t => (s.rowRead asid r 0 (min t.desc.width 256)).getD []
  (List.range 64).map fun k => if k < 32 then BitVec.ofNat 64 (lef bs (8 * k) 8) else 0

/-- The producer slot of a gang whose record names a stream program (10 R223). -/
def State.launchStream (s : State) (asid : Nat) (r : LaunchRec) (sregs : List DWord) : Option Producer :=
  if r.lflags % 2 = 0 then none
  else
    let pc := BitVec.ofNat 32 (s.freeNat 13 0)
    match s.streamTable asid r.stream with
    | some t => some (s.loadStream t (fun n => sregs.getD n 0) 0 pc [])
    | none =>
      some { prog := [], next := 0, loops := [], streams := [], captured := [], running := false, ended := false,
             faulted := true, warp := 0, pc := pc, fetching := none,
             pending := [(0, pc, s.streamFlt (engFault 0x0A 8 0))] }

/-- The commit of a new gang at a place (22 R358, R361). -/
def State.startGang (s : State) (g : Nat) (path : List (DWord × Rcb)) (p : Place) : State :=
  let r := (s.gang g).launch
  let asid := effAsid path
  let sregs := s.constants asid r.const
  let warps := ((List.range r.wgs).map fun w =>
    let core := p.id + w
    let free := s.slotsOf core
    (List.range r.warps).map fun k => launchWarp r w k (free.getD k 0) (s.coreSt core).cycle sregs).flatten
  let mx := r.lflags / 4 % 2 == 1
  s.mapGang g fun G =>
    { G with asid := asid, regid := ((path.head?.map fun x => x.2.regid).getD 0), prio := effPrio path, phase := .running,
             place := p, wgs := List.replicate r.wgs { hold := mx, acc := [], sat := [], cursors := [] }, warps := warps,
             cmem := [], firn := [], tiles := [], ops := [], accs := [], producer := s.launchStream asid r sregs,
             queues := if r.lflags % 2 = 1 then List.replicate 8 [] else [] }

/-- The warps of a resumed gang in their new place: cycle counts, holds and standings start anew (04 R86, 22 R363), and the age of
each fibre (04 R77). -/
def State.rehouse (s : State) (g : Nat) (p : Place) : List Warp :=
  let G := s.gang g
  G.warps.mapIdx fun i W =>
    let core := p.id + W.wg
    let k := ((G.warps.take i).filter fun V => V.wg == W.wg && !V.retired).length
    { W.mapAll (fun _ L => L.mapFib fun f => { f with age := 0, readyAt := (s.coreSt core).cycle, yieldAt := none }) with
      warpSlot := (s.slotsOf core).getD k 0, candidate := 0, raised := false, lastIssue := 0 }

/-- The pending `regs.xacq` of a resumed gang join their cores' queues as the youngest (09 R207, 22 R365). -/
def State.requeueXacq (s : State) (g : Nat) : State :=
  (s.gang g).accs.foldl (fun t o =>
    match o.instr with
    | .regsXacq n =>
      let k := t.coreSt (t.coreOf g o.warp)
      t.setCore { k with xacq := k.xacq ++ [(o.id, g, o.warp, n.toNat)] }
    | _ => t) s

/-- The lanes parked at MWAIT whose monitors are lost go on with reason 1 (08 R179, R180). -/
def State.releaseLost (s : State) (g : Nat) : State :=
  (s.monitors.filter fun m => m.ctx == g && m.st == .lost).foldl (fun t m =>
    if ((t.warp g m.warp).lane m.lane).slot matches .parked (.mwait ..) then t.mwaitRelease g m.warp m.lane 1 else t) s

/-- Whether an access has ended, and only its fault is left of it. -/
def Work.isOver (o : Work) : Bool := o.fault.isSome && o.awaits.isEmpty && o.vals.isEmpty && o.mark == 0

/-- The faults that engines have found for a warp and that it has not taken yet become its cause, and those of accesses that ended while it
had another, or while its gang drained (10 R212, 22 R363; DEDUCED, log 59). -/
def State.chargePending (s : State) (g w : Nat) : State :=
  let s1 := ((s.gang g).ops.filter fun o => o.warp == w).foldl (fun t o =>
    match o.fault with
    | some f => t.chargeTo g w o.pc f
    | none => t) s
  let s2 := ((s.gang g).accs.filter fun o => o.warp == w && o.isOver).foldl (fun t o =>
    if (t.warp g w).cause.isSome then t else t.endWork o) s1
  match (s.gang g).producer with
  | none => s2
  | some p =>
    (p.pending.filter fun x => x.1 == w).foldl (fun t x => t.chargeTo g w x.2.1 x.2.2) s2

/-- Faults that engines raised during the drain are taken before the gang's first issue (22 R363). -/
def State.chargeSaved (s : State) (g : Nat) : State :=
  (List.range (s.gang g).warps.length).foldl (fun t w => t.chargePending g w) s

/-- The commit of a resumed gang at a place (22 R365). Pre-emption and resumption act as a fence at device scope, which joins every
alias (16 R292, R294). -/
def State.resumeGang (s : State) (g : Nat) (p : Place) : State :=
  let warps := s.rehouse g p
  let s1 := s.mapGang g fun G => { G with phase := .running, place := p, warps := warps }
  ((((s1.requeueXacq g).releaseLost g).rereadCalls g).chargeSaved g).aliasJoin fun _ => true

/-- The commit of a gang at a place (DEDUCED, log 55). -/
def State.commit (s : State) (g : Nat) (path : List (DWord × Rcb)) (p : Place) : State :=
  let t := if (s.gang g).phase = .saved then s.resumeGang g p else s.startGang g path p
  { t with reserved := t.reserved.filter fun r => r.2 != g }

/-- Whether the commit of a gang at a place leaves the room that pre-emption holds for other gangs (22 R364). -/
def State.keepsHeld (s : State) (g : Nat) (path : List (DWord × Rcb)) (p : Place) : Bool :=
  s.keepsRoom (s.commit g path p) g (p.id / 16)

/-- The places of a column that a gang may take, in the order in which they are tried. -/
def State.placesFor (s : State) (g : Nat) (path : List (DWord × Rcb)) (c : Nat × Nat) : List Place :=
  let d := (s.gang g).demand
  (placesOf c.1 c.2).filter fun p => s.room d p && s.fitsCores path d.wgs.length p && s.keepsHeld g path p

/-- Free warp slots of a column. -/
def State.columnSlots (s : State) (c : Nat × Nat) : Nat := (placesOf c.1 c.2).foldl (fun n p => n + s.freeSlots p.id) 0

/-- Whether column a is chosen before column b, which stands after it in the order of DIEID and COLID (22 R359). -/
def State.cooler (s : State) (a b : Nat × Nat) : Bool :=
  decide (s.heatOf a.1 a.2 < s.heatOf b.1 b.2) ||
    (s.heatOf a.1 a.2 == s.heatOf b.1 b.2 && decide (s.columnSlots b ≤ s.columnSlots a))

/-- The set E of 22 R359: the columns that may take a gang. -/
def State.columnsFor (s : State) (g : Nat) (path : List (DWord × Rcb)) : List (Nat × Nat) :=
  columns.filter fun c => s.openColumn path c && !(s.placesFor g path c).isEmpty

/-- The place that the procedure of 22 R359 gives a gang, if any. -/
def State.placeFor (s : State) (g : Nat) (path : List (DWord × Rcb)) : Option Place :=
  match s.columnsFor g path with
  | [] => none
  | c :: r => (s.placesFor g path (r.foldl (fun a b => if s.cooler a b then a else b) c)).head?

/-- The path of a waiting gang that may be placed: its region is valid and not stopped, and its budgets allow it. -/
def State.pathFor (s : State) (g : Nat) : Option (List (DWord × Rcb)) :=
  match s.regionPath (s.gang g).region with
  | none => none
  | some p => if pathValid p && !effStop p && s.fitsBudgets p (s.gang g).demand then some p else none

/-- Whether a gang can be placed now. -/
def State.placeable (s : State) (g : Nat) : Bool :=
  s.waits g && match s.pathFor g with
    | none => false
    | some p => (s.placeFor g p).isSome

/-- A launch record whose gangs have all been placed: HEAD passes it, and the next one, if any, reaches the head (22 R356, R360). -/
def State.recordPlaced (s : State) (e : Queue) (d : QDesc) : State :=
  (s.rowWrite 0 e.desc 24 (leBytes 8 (d.head + 1))).mapQueue e.num fun (q : Queue) => { q with
    placing := none, interval := 64, headAt := if d.head + 1 < d.tail then some s.tick else none }

/-- A gang of a record that waits for its place. -/
def waitingGang (q idx gangid headAt opened : Nat) (rcb : DWord) (asid : Nat) (regid : Word) (r : LaunchRec) : Gang :=
  { asid := asid, region := rcb, regid := regid, prio := 0, queue := q, recIdx := idx, gangid := gangid, launch := r, headAt := headAt,
    opened := opened, phase := .waiting, place := default, drainAt := 0, wgs := [], warps := [], cmem := [], firn := [], tiles := [], ops := [],
    accs := [], producer := none, queues := [], haltClass := 0, haltCode := 0, haltPc := 0 }

/-- The front-end goes on after a gang of its record has been placed: the next gang waits, or HEAD passes the record. -/
def State.nextOfRecord (s : State) (G : Gang) : State :=
  match s.queue? G.queue with
  | none => s
  | some e =>
    match e.placing, s.qdesc? e.desc with
    | some p, some d =>
      if p.next + 1 < p.launch.gangs then
        { s.mapQueue e.num (fun (q : Queue) => { q with placing := some { p with next := p.next + 1 } }) with
          gangs := s.gangs ++ [waitingGang e.num G.recIdx (p.next + 1) p.headAt p.opened G.region G.asid G.regid p.launch] }
      else s.recordPlaced e d
    | _, _ => s

/-- GANG_PLACEMENT (22 R359, R360): a waiting gang commits, unless one that precedes it fits. The scheduler may read two columns at
different update points of the maps, and an entry may change between the read and the commit (00 R7): here it reads all of them and
commits in one step (DESIGN CHOICE, log 82). -/
def execGangPlacement (ctx : Nat) (s : State) : Host.Outcome State Fault Refusal :=
  if !s.waits ctx || (List.range s.gangs.length).any fun h => h != ctx && s.precedes h ctx && s.placeable h then .next s
  else match s.pathFor ctx with
    | none => .next s
    | some path =>
      match s.placeFor ctx path with
      | none => .next s
      | some p =>
        let G := s.gang ctx
        let t := s.commit ctx path p
        let s1 := (t.writeUse G.region).examineAll (t.gang ctx).cores
        .next (if G.phase = .waiting then s1.nextOfRecord G else s1)

/-- Every sublist of a list. -/
def subsets : List Nat → List (List Nat)
  | [] => [[]]
  | a :: r => subsets r ++ (subsets r).map fun x => a :: x

/-- A choice of victims (22 R364): the cluster and the gangs. -/
structure Victims where
  place : Place
  gangs : List Nat
  deriving DecidableEq, Repr, Inhabited

/-- The sets of running gangs of lower priority whose removal gives a cluster room for a gang. -/
def State.victimsAt (s : State) (g : Nat) (path : List (DWord × Rcb)) (p : Place) : List Victims :=
  let d := (s.gang g).demand
  let low := s.residents.filter fun h =>
    (s.gang h).phase == .running && (s.gang h).place.die == p.die && (s.gang h).place.col == p.col &&
      decide (s.prioOf h < effPrio path)
  ((subsets low).filter fun v => !v.isEmpty && (List.range 4).any fun c =>
    (s.without v).room d { p with core := c } && s.fitsCores path d.wgs.length { p with core := c } &&
      (s.without v).keepsHeld g path { p with core := c }).map
      fun v => { place := p, gangs := v }

/-- The keys of a choice as one number: the highest priority, the number of gangs, the heat, then the cluster (22 R364). -/
def State.victimKey (s : State) (v : Victims) : Nat :=
  let top := v.gangs.foldl (fun a h => max a (s.prioOf h)) 0
  (((top * 65536 + v.gangs.length) * 16 + s.heatOf v.place.die v.place.col) * 65536) + v.place.id

/-- The victims for a waiting gang that finds no place: a set of least key; which of several is free (22 R364; DESIGN CHOICE, log 9). -/
def State.victimsFor (s : State) (g : Nat) (path : List (DWord × Rcb)) : Option Victims :=
  let cs := columns.filter (s.openColumn path)
  let all := (cs.map fun c => ((List.range 4).map fun clu =>
    s.victimsAt g path { die := c.1, col := c.2, clu := clu, core := 0 }).flatten).flatten
  match all with
  | [] => none
  | v :: r =>
    let least := r.foldl (fun a x => min a (s.victimKey x)) (s.victimKey v)
    let best := all.filter fun x => s.victimKey x == least
    best[s.freeNat 14 0 % best.length]?

/-- Whether room is held for a gang in a column that may take it. -/
def State.hasHold (s : State) (g : Nat) (path : List (DWord × Rcb)) : Bool :=
  s.reserved.any fun r => r.2 == g && s.openColumn path (r.1 / 72, r.1 / 4 % 18)

/-- The gang for which victims are sought: the first in the order of 22 R360 that finds E empty, for which no room is held yet in a
column that may take it. -/
def State.seeker (s : State) : Option (Nat × List (DWord × Rcb)) :=
  let ws := (List.range s.gangs.length).filter fun g => s.waits g && match s.pathFor g with
    | none => false
    | some p => !s.hasHold g p && (s.columnsFor g p).isEmpty && (s.victimsFor g p).isSome
  match ws with
  | [] => none
  | g :: r =>
    let f := r.foldl (fun a b => if s.precedes b a then b else a) g
    (s.pathFor f).map fun p => (f, p)

/-- Gangs stop issuing at an instruction boundary and drain (22 R363). -/
def State.drain (s : State) (gs : List Nat) : State :=
  gs.foldl (fun t g => t.mapGang g fun G => { G with phase := .draining, drainAt := t.tick }) s

/-- PREEMPTION (22 R363, R364; 24 R385): for STOP, for a draining column, or as one of the victims for a waiting gang, for
which the cluster's room is then held. -/
def execPreemption (ctx : Nat) (s : State) : Host.Outcome State Fault Refusal :=
  let G := s.gang ctx
  if G.phase ≠ .running then .next s
  else
    let stop := match s.regionPath G.region with
      | some p => effStop p
      | none => false
    if stop || (s.colOf G.place.die G.place.col).st = 1 then .next (s.drain [ctx])
    else match s.seeker with
      | none => .next s
      | some (g, path) =>
        match s.victimsFor g path with
        | none => .next s
        | some v =>
          if v.gangs.contains ctx then .next { s.drain v.gangs with reserved := (s.reserved.filter fun r => r.2 != g) ++ [(v.place.id / 4, g)] }
          else .next s

/-- Whether an access stays pending across a pre-emption: MWAIT `.wait` and a request for blocks (09 R207, 22 R365). -/
def Work.keptPending (o : Work) : Bool :=
  o.mark == 1 && match o.instr with
    | .mwaitWait .. | .regsXacq _ => true
    | _ => false

/-- Whether all that a pre-empted gang has issued is over; a fault that an access has met is saved with the gang (22 R363; 10 R230; 11 R242, R248; 13 R271; 18 R320). -/
def State.drained (s : State) (g : Nat) : Bool :=
  let G := s.gang g
  G.ops.all G.opOver && (G.accs.all fun o => o.keptPending || o.isOver) && (s.idx.all fun o => o.ctx != g) &&
    (G.warps.all fun W => W.pend.isEmpty) && ((G.producer.map fun p => p.fetching.isNone).getD true)

/-- A drained gang as it is saved: the faults that its engines have found stay with it (22 R363), what stands behind them is
discarded with its tiles (11 R242), and its cycle counts, with CYCH, are not saved (02 R53, 04 R86). -/
def Gang.saved (G : Gang) : Gang :=
  let H := (G.ops.filter fun o => o.fault.isNone).foldl Gang.failTile G
  { H with phase := .saved, ops := H.ops.filter fun o => o.fault.isSome,
           warps := H.warps.map fun (W : Warp) => { W with cych := 0 } }

/-- PREEMPTION_SAVE (22 R363; 08 R179): the gang's state is saved, the fence of 16 R292 joins the aliases (R294), and its cores' request queues
are examined (09 R191, R192). -/
def execPreemptionSave (ctx : Nat) (s : State) : Host.Outcome State Fault Refusal :=
  let G := s.gang ctx
  if G.phase ≠ .draining || !s.drained ctx then .next s
  else
    let s1 := s.mapGang ctx Gang.saved
    let s2 := { s1 with
      monitors := s1.monitors.map fun (m : Monitor) => if m.ctx = ctx && m.st ≠ Mon.fired then { m with st := Mon.lost } else m,
      cores := s1.cores.map fun (c : CoreSt) => { c with xacq := c.xacq.filter fun r => r.2.1 != ctx } }
    .next (((s2.writeUse G.region).aliasJoin fun _ => true).examineAll G.cores)

/-- PRIORITY_STANDING_RAISE (22 R362). -/
def execPriorityStandingRaise (ctx warp : Nat) (s : State) : Host.Outcome State Fault Refusal :=
  if 1024 ≤ (s.warp ctx warp).candidate then .next (s.mapWarp ctx warp fun W => { W with raised := true }) else .next s

/-- Whether a warp may retire (08 R164): no fibre, no result pending, every counter 0. -/
def State.mayRetire (s : State) (g w : Nat) : Bool :=
  let G := s.gang g
  let W := G.warp w
  G.resident && decide (w < G.warps.length) && !W.retired && W.cause.isNone && W.fibres.isEmpty && W.pend.isEmpty &&
    (s.awaited g w).isEmpty && (G.ops.all fun o => o.warp != w) && (G.accs.all fun o => o.warp != w) &&
    (s.idx.all fun o => !(o.ctx == g && o.warp == w)) && (s.calls.all fun o => !(o.ctx == g && o.warp == w))

/-- The gang retires once all its warps have (22 R361): its shares, tiles, cursors, producer slot and stores are free, and
its record's account counts it. -/
def State.retireGang (s : State) (g : Nat) : State :=
  let G := s.gang g
  if !(G.warps.all fun W => W.retired) then s
  else
    let s1 := s.mapGang g fun G => { G with phase := .retired, tiles := [], wgs := [], producer := none, queues := [], cmem := [],
                                            firn := [] }
    let s2 := { s1 with
      monitors := s1.monitors.filter fun m => m.ctx != g,
      recs := s1.recs.map fun (r : RecAcct) => if r.queue = G.queue && r.opened = G.opened then { r with retired := r.retired + 1 } else r }
    s2.writeUse G.region

/-- WARP_RETIRE (08 R164): the warp's register blocks and rejoin table are released, its stores are visible, and its core's request queue is
examined (09 R191). -/
def execWarpRetire (ctx warp : Nat) (s : State) : Host.Outcome State Fault Refusal :=
  if s.mayRetire ctx warp then
    .next ((((s.mapWarp ctx warp fun W => { W with retired := true, x := 0, rejoinTab := [], rejoinOut := [] }).release ctx warp 7).retireGang
      ctx).examineAll [s.coreOf ctx warp])
  else .next s

/-- Whether a register write of a warp is pending that its trap entry waits for (24 R372). Engine work that the entry
discards, or that stands behind a fault of its engine, writes nothing; nor does a lane that stays parked (DEDUCED, log 58). -/
def State.entryPending (s : State) (g w : Nat) (soft : Bool) : Bool :=
  let G := s.gang g
  let mine (os : List Work) : Bool := os.any fun o => o.ctx == g && o.warp == w && !o.awaits.isEmpty &&
    !o.keptPending && (soft || !(o.instr matches .tgath ..))
  !(G.warp w).pend.isEmpty || mine G.accs || mine s.idx || mine s.calls ||
    (soft && (G.ops.all fun o => o.fault.isNone) && mine G.ops)

/-- TRAP_ENTRY (24 R372): once nothing of the warp is pending. -/
def execTrapEntry (ctx warp : Nat) (s : State) : Host.Outcome State Fault Refusal :=
  match (s.warp ctx warp).cause with
  | none => .next s
  | some c =>
    if (s.gang ctx).phase ≠ .running || s.entryPending ctx warp (c.cls == 0x11) then .next s
    else .next ((s.enterTrap ctx warp c).examineAll [s.coreOf ctx warp])

end Sys2Proof.Machine
end

