-- ==== Sys2Proof/Machine/Launch.lean ====
section
/-! DEFINITION. Region queues: the front-end's poll and the checks of a record at the head, the completion semaphore, and
LNCH (22 R353 to R357, R366 to R369). -/

namespace Sys2Proof.Machine

/-- The limits of a record's fields (22 R355 code 0x01). -/
def LaunchRec.wellFormed (r : LaunchRec) (zeros : Bool) : Bool :=
  namesSlot r.entry && decide (1 ≤ r.gangs) && decide (1 ≤ r.wgs) && decide (r.wgs ≤ 4) && decide (1 ≤ r.warps) &&
    decide (r.warps ≤ 16) && decide (r.cond ≤ 6) && decide (r.lflags < 8) && decide (r.stack % 16 = 0) &&
    decide (r.cmem ≤ Config.clusterBytes) && decide (r.firn ≤ Config.firnBytes) && zeros

/-- Whether a row reference passes 13 R255 for its row alone, or for the 8 bytes at byte 0. -/
def State.refOk (s : State) (asid : Nat) (r : DWord) : Bool := (s.refCheck asid r).toOption.isSome
def State.wordOk (s : State) (asid : Nat) (r : DWord) : Bool := (s.elemCheck asid r 0 8).toOption.isSome

/-- The row references of a record, checked in the region's address space (22 R355 code 0x03). -/
def State.recordRefsOk (s : State) (asid : Nat) (r : LaunchRec) : Bool :=
  (r.const == 0 || s.refOk asid r.const) && (r.cond == 0 || s.wordOk asid r.sem) &&
    (r.lflags / 2 % 2 == 0 || s.wordOk asid r.done) && (r.lflags % 2 == 0 || (s.handle? asid r.stream).isSome)

/-- Whether a logical column is active, or drains and will be taken over by a spare of its die (24 R385). -/
def State.willServe (s : State) (die col : Nat) : Bool :=
  (s.colOf die col).st == 0 || ((s.colOf die col).st == 1 && s.cols.any fun c => c.die == die && c.st == 3)

/-- Whether one gang of a record could ever fit (22 R355 code 0x04): its demand is within every budget, and some column of
the device that may hold the region's gangs is in service. -/
def State.couldFit (s : State) (p : List (DWord × Rcb)) (r : LaunchRec) : Bool :=
  (p.all fun x =>
    (x.2.cores == 0xFFFFFFFF || decide (r.wgs ≤ x.2.cores)) && (x.2.firnk == 0xFFFFFFFF || decide (r.firn ≤ 1024 * x.2.firnk)) &&
    (x.2.cmemk == 0xFFFFFFFF || decide (r.cmem ≤ 1024 * x.2.cmemk))) &&
  columns.any fun c => s.willServe c.1 c.2 && !s.deadColumn c.1 c.2 && (effDies p).testBit c.1

/-- What the front-end finds in the record at the head: an error code, or the record with its region's path (22 R355). A
ring row that cannot be read is found first; then the lowest code (DEDUCED, log 33). -/
def State.checkRecord (s : State) (d : QDesc) : Except Nat (LaunchRec × List (DWord × Rcb)) :=
  match s.rowRead 0 (d.ringRef d.head) 0 64 with
  | none => .error 5
  | some bs =>
    let r := launchOf bs
    if !r.wellFormed (lef bs 52 4 == 0) then .error 1
    else match s.regionPath d.rcb with
      | none => .error 2
      | some p =>
        if !pathValid p then .error 2
        else if !s.recordRefsOk (effAsid p) r then .error 3
        else if !s.couldFit p r then .error 4
        else .ok (r, p)

/-- The front-end waits an interval and doubles it (22 R356). -/
def Queue.backOff (e : Queue) : Queue := { e with wait := e.interval, interval := min (2 * e.interval) 65536 }

/-- A record at the head: the front-end has seen it there from its first poll on (22 R360; DEDUCED, log 85). -/
def Queue.sees (e : Queue) (now : Nat) : Queue := { e with headAt := some (e.headAt.getD now) }

/-- A record whose test is true is placed: its first gang waits for its place, and its account is opened (22 R356, R357). -/
def State.openRecord (s : State) (e : Queue) (d : QDesc) (r : LaunchRec) (p : List (DWord × Rcb)) : State :=
  let at' := e.headAt.getD s.tick
  { s.mapQueue e.num (fun (q : Queue) =>
      { q with interval := 64, placing := some { launch := r, next := 0, headAt := at', opened := s.tick } }) with
    gangs := s.gangs ++ [waitingGang e.num d.head 0 at' s.tick d.rcb (effAsid p) ((p.head?.map fun x => x.2.regid).getD 0) r],
    recs := (s.recs.filter fun q => !(q.queue == e.num && q.idx == d.head && q.halted)) ++
                      [{ queue := e.num, idx := d.head, opened := s.tick, asid := effAsid p, total := r.gangs, retired := 0, halted := false,
                         done := if r.lflags / 2 % 2 = 1 then some r.done else none }] }

/-- The poll of a record at the head (22 R355, R356). -/
def State.pollRecord (s : State) (e : Queue) (d : QDesc) : State :=
  match s.checkRecord d with
  | .error code => s.queueError e.num code
  | .ok (r, p) =>
    if r.cond = 0 then s.openRecord e d r p
    else match s.rowRead (effAsid p) r.sem 0 8 with
      | none => s.mapQueue e.num Queue.backOff
      | some bs =>
        let v : DWord := BitVec.ofNat 64 (leNat bs)
        let s1 := s.mapQueue e.num fun (q : Queue) => { q with semSeen := v }
        if launchTest r.cond v r.sval then s1.openRecord e d r p else s1.mapQueue e.num Queue.backOff

/-- QUEUE_POLL (22 R356). Queue 0 holds command records, which its own front-end performs (24 R382); its polls of an empty
queue, and of one whose ring row at the head cannot be read (22 R355), are these. -/
def execQueuePoll (queue : Nat) (s : State) : Host.Outcome State Fault Refusal :=
  match s.queue? queue with
  | none => .next s
  | some e =>
    match s.qdesc? e.desc with
    | none => .next s
    | some d =>
      if !e.enabled || e.wait ≠ 0 || e.placing.isSome || d.qstat / 2 % 2 = 1 then .next s
      else if d.tail = d.head then .next (s.mapQueue queue fun q => { q.backOff with headAt := none })
      else if queue = 0 then
        .next (if (s.rowRead 0 (d.ringRef d.head) 0 64).isNone then s.queueError 0 5 else s)
      else .next ((s.mapQueue queue fun q => q.sees s.tick).pollRecord (e.sees s.tick) d)

/-- DONE_INCREMENT (22 R357): every gang of the record has retired and none has halted. -/
def execDoneIncrement (queue idx : Nat) (s : State) : Host.Outcome State Fault Refusal :=
  match s.recs.find? fun r => r.queue == queue && r.idx == idx && !r.halted && decide (r.total ≤ r.retired) with
  | none => .next s
  | some r =>
      let s1 := { s with recs := s.recs.filter fun q => q != r }
      match r.done with
      | none => .next s1
      | some d => .next (s1.addOne r.asid d)

/-- LAUNCH.QUEUE of a handle (22 R367): the queue and its descriptor, or none where it faults (DEDUCED, log 60). -/
def State.launchQueue (s : State) (g : Nat) (h : Word) : Option (Queue × QDesc) :=
  match s.queues.find? fun e => e.num == (fld h 0 16).toNat && e.inc == (fld h 16 16).toNat with
  | none => none
  | some e =>
    match s.qdesc? e.desc with
    | none => none
    | some d =>
      if !e.enabled then none
      else if e.num = 0 then (if (s.gang g).privileged then some (e, d) else none)
      else if s.inSubtree d.rcb (s.gang g).region then some (e, d) else none

/-- Whether a queue takes one more record (22 R367): its ring has room, and its region's QDEPTH allows it. -/
def State.hasRoom (s : State) (d : QDesc) : Bool :=
  decide (d.tail - d.head < d.size) && match (s.regionPath d.rcb).bind effQdepth with
    | none => true
    | some n => decide (s.useQ d.rcb < n)

/-- One lane of LNCH (22 R367): the record's bytes go to the ring and TAIL passes it; the index and f0. It reads the descriptor and the
region's control blocks. -/
def State.enqueue (s : State) (e : Queue) (bytes : List Byte) : State × Word × BitVec 4 :=
  match s.qdesc? e.desc with
  | none => (s, BitVec.allOnes 32, nzcv false false false true)
  | some d =>
    let s := s.noteRows (s.spansOf 0 e.desc 1 0 64 0 false ++ s.pathRows 8 d.rcb)
    if s.hasRoom d then
      ((s.rowWrite 0 (d.ringRef d.tail) 0 bytes).rowWrite 0 e.desc 32 (leBytes 8 (d.tail + 1)),
        BitVec.ofNat 32 d.tail, nzcv false true false false)
    else (s, BitVec.allOnes 32, nzcv false false false true)

/-- The lanes of LNCH enqueue their records in ascending order, but for those whose record cannot be read; each lane's answer. -/
def State.enqueueAll (s : State) (e : Queue) (as : List LaneAcc) : State × List (Nat × Word × BitVec 4) :=
  (as.filter fun q => !q.isBad s).foldl (fun t q =>
    let y := t.1.enqueue e (t.1.loadBytes q.tab q.row 0 0 q.cells)
    (y.1, t.2 ++ [(q.lane, y.2)])) (s, [])

/-- LNCH (22 R366 to R369). -/
def execLnch (d a : BitVec 7) (sc : BitVec 3) (ord : BitVec 2) (r : BitVec 7) (s : State) : Host.Outcome State Fault Refusal :=
  slot (.lnch d a sc ord r) s noPre fun c s =>
    let W := s.warp c.gang c.warp
    match s.launchQueue c.gang ((W.s r.toNat).setWidth 32) with
    | none => .error (flt 0x0F 1)
    | some (e, _) =>
      match s.laneAccs c 64 .read (fun l => W.get64 l a.toNat) fun _ => 0 with
      | .error f => .error f
      | .ok as =>
        let out := s.enqueueAll e as
        .ok (out.1.startRead c (.lnch d a sc ord r) [] as (fun l => W.dst d.toNat 1 l ++ [.flag l 0]) fun q =>
          let y := (out.2.lookup q.lane).getD (0, 0)
          [y.1.setWidth 64, y.2.setWidth 64])

end Sys2Proof.Machine
end

