-- ==== Sys2Proof/Machine/Hbm.lean ====
section
/-! DEFINITION. The HBM4E controllers: accesses, refresh and self-refresh (20 R338 to R341, 21 R348); page walks, evictions, region
merging, and the encryption of protected regions (20 R328, R331 to R336, R343 to R345). -/

namespace Sys2Proof.Machine

/-- A pseudo-channel as it leaves reset: P = 0, the rotation at bank 0, which falls due after tREFIpb (20 R339). -/
def freshPchan (p : Nat) : PChan :=
  { pch := p, clock := 0, rot := 0, owed := 0, due := 342, idle := 0, self := false, pendingAll := false, pendingSelf := false,
    refresh := none }

/-- A pseudo-channel. -/
def State.pchan (s : State) (p : Nat) : PChan := (s.pchans.find? fun c => c.pch == p).getD { freshPchan p with edge := s.refTime }

/-- The state with a pseudo-channel replaced. -/
def State.setPchan (s : State) (c : PChan) : State := { s with pchans := c :: s.pchans.filter fun d => d.pch != c.pch }

/-- Whether an access of a pseudo-channel is at the controller, from its arrival until its service ends (20 R339). -/
def State.atController (s : State) (p : Nat) : Bool :=
  s.dram.any fun r => r.pch == p && (r.phase == .wait || r.phase == .service)

/-- Whether an access of a pseudo-channel is in service. -/
def State.inService (s : State) (p : Nat) : Bool := s.dram.any fun r => r.pch == p && r.phase == .service

/-- Whether an access to a bank may start: no all-bank refresh is forced or owed, no refresh or exit covers the bank, the
pseudo-channel is not in self-refresh, and no access to the bank is in service (20 R338 to R340). -/
def State.mayServe (s : State) (c : PChan) (bank : Nat) : Bool :=
  !c.pendingAll && !c.self && (match c.refresh with
    | none => true
    | some f => f.bank.isSome && f.bank != some bank) &&
  !(s.dram.any fun r => r.pch == c.pch && r.bank == bank && r.phase == .service)

/-- The waiting accesses of a pseudo-channel start, in arrival order, where they may. A bank-private one takes the full service time; the
others have no rated latency (20 R338). -/
def State.startAccesses (s : State) (p : Nat) : State :=
  let c := s.pchan p
  (s.dram.filter fun r => r.pch == p && r.phase == .wait).foldl (fun t r =>
    if t.mayServe c r.bank then
      { t with dram := t.dram.map fun (q : DramReq) =>
          if q.id = r.id then { q with phase := .service, ready := c.clock + if q.priv then 110 else t.freeNat 7 r.id } else q }
    else t) s

/-- A pending all-bank refresh begins once nothing is in service and no other refresh is in progress (20 R339, R340). -/
def State.beginAll (s : State) (p : Nat) : State :=
  let c := s.pchan p
  if c.pendingAll && c.refresh.isNone && !s.inService p then
    s.setPchan { c with pendingAll := false, refresh := some { bank := none, ends := c.clock + 490, exit := false } }
  else s

/-- An access of a request number. -/
def State.dramReq? (s : State) (id : Nat) : Option DramReq := s.dram.find? fun r => r.id == id

/-- An access of a request number whose way to the controller, or whose service, is over. -/
def State.dramOver? (s : State) (id : Nat) (ph : DramPhase) : Option DramReq :=
  (s.dramReq? id).filter fun r => r.phase == ph && decide (r.ready ≤ (s.pchan r.pch).clock)

/-- The refresh of a pseudo-channel, or its exit from self-refresh, that is over. -/
def State.refreshOver? (s : State) (p : Nat) (exit : Bool) : Option Refresh :=
  (s.pchan p).refresh.filter fun f => f.exit == exit && decide (f.ends ≤ (s.pchan p).clock)

/-- An access arrives and waits: it ends idleness, abandons a self-refresh that has not begun, and starts the exit from one that has
(20 R338, R340, R341). -/
def State.arriveAt (s : State) (id : Nat) : State :=
  match s.dramOver? id .travel with
  | none => s
  | some r =>
    let c := s.pchan r.pch
    let s1 := { s with dram := (s.dram.filter fun (q : DramReq) => q.id != id) ++ [{ r with phase := .wait }] }
    s1.setPchan { c with idle := 0, pendingSelf := false,
                         refresh := if c.self && c.refresh.isNone then
                           some { bank := none, ends := c.clock + 700, exit := true } else c.refresh }

/-- A bank ends its service of an access. A bank-private one takes 20 cycles back (20 R338). -/
def State.endServiceAt (s : State) (id : Nat) : State :=
  match s.dramOver? id .service with
  | none => s
  | some r =>
    let s1 := { s with dram := s.dram.map fun (q : DramReq) =>
      if q.id = id then { q with phase := .back, ready := q.ready + if q.priv then 20 else s.freeNat 8 id } else q }
    s1.beginAll r.pch

/-- A refresh falls due (20 R339, 21 R348): covered by an all-bank refresh pending or in progress; forced where P is 8;
postponed where an access is at the controller; else of the bank at the rotation. The rotation advances. -/
def State.due (s : State) (p : Nat) : State :=
  let c := s.pchan p
  if c.self || c.clock < c.due then s
  else
    let next := { c with rot := (c.rot + 1) % 16, due := c.due + 342 }
    let all := match c.refresh with
      | some f => f.bank.isNone
      | none => false
    if c.pendingAll || all then s.setPchan next
    else if c.owed = 8 then (s.setPchan { next with pendingAll := true }).beginAll p
    else if s.atController p then s.setPchan { next with owed := c.owed + 1 }
    else s.setPchan { next with refresh := some { bank := some c.rot, ends := c.clock + 182, exit := false } }

/-- A refresh ends: after an all-bank one P is 0. A self-refresh that waited for it begins. -/
def State.endRefreshAt (s : State) (p : Nat) : State :=
  let c := s.pchan p
  match s.refreshOver? p false with
  | none => s
  | some f =>
    (s.setPchan { c with refresh := none, owed := if f.bank.isNone || c.pendingSelf then 0 else c.owed, self := c.pendingSelf,
                         pendingSelf := false }).beginAll p

/-- After 490 idle cycles with refreshes owed, an all-bank refresh repays them (20 R340). -/
def State.repay (s : State) (p : Nat) : State :=
  let c := s.pchan p
  let all := match c.refresh with
    | some f => f.bank.isNone
    | none => false
  if c.idle < 490 || c.owed = 0 || c.pendingAll || all then s else (s.setPchan { c with pendingAll := true }).beginAll p

/-- After 14,000 idle cycles the pseudo-channel enters self-refresh, or waits for the refresh in progress (20 R340). -/
def State.enterSelf (s : State) (p : Nat) : State :=
  let c := s.pchan p
  if c.idle < 14000 || c.self then s
  else if c.refresh.isSome then s.setPchan { c with pendingSelf := true }
  else s.setPchan { c with self := true, owed := 0 }

/-- The exit from self-refresh completes: the next refresh falls due tREFIpb cycles later. -/
def State.exitSelfAt (s : State) (p : Nat) : State :=
  let c := s.pchan p
  if (s.refreshOver? p true).isNone then s else s.setPchan { c with refresh := none, self := false, due := c.clock + 342 }

/-- The same of an access or a refresh by themselves: where they are over, the accesses that then may start do. -/
def State.arrive (s : State) (id : Nat) : State :=
  match s.dramOver? id .travel with
  | none => s
  | some r => (s.arriveAt id).startAccesses r.pch
def State.endService (s : State) (id : Nat) : State :=
  match s.dramOver? id .service with
  | none => s
  | some r => (s.endServiceAt id).startAccesses r.pch
def State.endRefresh (s : State) (p : Nat) : State :=
  if (s.refreshOver? p false).isNone then s else (s.endRefreshAt p).startAccesses p
def State.exitSelf (s : State) (p : Nat) : State := if (s.refreshOver? p true).isNone then s else (s.exitSelfAt p).startAccesses p

/-- DRAM_ACCESS_ARRIVAL (20 R338). -/
def execDramAccessArrival (req : Nat) (s : State) : Host.Outcome State Fault Refusal := .next (s.arrive req)
/-- DRAM_SERVICE_COMPLETE (20 R338). -/
def execDramServiceComplete (req : Nat) (s : State) : Host.Outcome State Fault Refusal := .next (s.endService req)
/-- REFRESH_DUE (20 R339). -/
def execRefreshDue (pch : Nat) (s : State) : Host.Outcome State Fault Refusal := .next (s.due pch)
/-- REFRESH_COMPLETE (20 R339). -/
def execRefreshComplete (pch : Nat) (s : State) : Host.Outcome State Fault Refusal := .next (s.endRefresh pch)
/-- IDLE_REPAY (20 R340). -/
def execIdleRepay (pch : Nat) (s : State) : Host.Outcome State Fault Refusal := .next (s.repay pch)
/-- SELF_REFRESH_ENTRY (20 R340; DEDUCED, log 62). -/
def execSelfRefreshEntry (pch : Nat) (s : State) : Host.Outcome State Fault Refusal := .next (s.enterSelf pch)
/-- SELF_REFRESH_EXIT_COMPLETE (20 R340). -/
def execSelfRefreshExitComplete (pch : Nat) (s : State) : Host.Outcome State Fault Refusal := .next (s.exitSelf pch)

/-- The idle count of a pseudo-channel after a cycle (20 R340). -/
def State.countIdle (s : State) (p : Nat) : State :=
  let c := s.pchan p
  s.setPchan { c with idle := if s.atController p || c.self then 0 else c.idle + 1 }

/-- One cycle of a pseudo-channel's controller (20 R338 to R341): services end, accesses arrive, refreshes end, then the idle
repay, the due refresh and self-refresh take their turn, and then accesses start. An access that arrives wins over self-refresh, a repay over
a due, and a due over the accesses that could start with it. Reads that have travelled back leave (DEDUCED, log 63). -/
def State.hbmCycle (s : State) (p : Nat) : State :=
  let c := s.pchan p
  let s1 := s.setPchan { c with clock := c.clock + 1, edge := c.edge + 11 }
  let ids := (s1.dram.filter fun r => r.pch == p).map (·.id)
  let s2 := ids.foldl (fun t i => t.arriveAt i) (ids.foldl (fun t i => t.endServiceAt i) s1)
  let s3 := ((s2.endRefreshAt p).exitSelfAt p).countIdle p
  let s4 := (((s3.repay p).due p).enterSelf p).startAccesses p
  { s4 with dram := s4.dram.filter fun r => !(r.pch == p && r.phase == .back && decide (r.ready ≤ c.clock + 1)) }

/-- Whether a controller's clock has its next edge: no clock of a core or controller stands further back (20 R338; DESIGN CHOICE, log 6). -/
def State.pchanTicks (s : State) (p : Nat) : Bool := (s.pchan p).edge ≤ s.refTime

/-- A walk ends: a translation that it has found is kept by its die's cache, and by those of the cores attached to it and of their
clusters, and a waiting walk takes the walker (20 R328). -/
def State.endWalk (s : State) (w : Walk) : State :=
  let s1 := { s with walks := s.walks.filter fun v => v != w }
  match w.result with
  | none => s1.startWalks
  | some t => (w.attached.foldl (fun u k => u.keepFor t k) (s1.keepXlat (.die w.die) t)).startWalks

/-- PAGE_WALK_COMPLETE (20 R328): a walk of a page ends, once its reads of entries have returned, and its result has served every miss
attached to it. Where those reads wait, their banks thaw for them (24 R386). -/
def execPageWalkComplete (asid page : Nat) (s : State) : Host.Outcome State Fault Refusal :=
  let ws := s.walks.filter fun w => w.asid == asid && w.page == page && w.started
  match ws.find? fun w => !s.walkHeld w with
  | some w => .next (s.endWalk w)
  | none => .next (s.wakeAll (ws.flatMap fun w => s.walkReads w.asid (4096 * w.page)))

/-- A core's L1 writes back or drops a line under an aperture tag (20 R331, R334). -/
def State.evictL1 (s : State) (core line aper : Nat) : State :=
  s.putCaches ((s.l1.filter fun e => e.core == core && e.line == line && e.aper == aper).foldl Caches.dropL1 s.caches)

/-- An L2 slice of a die writes back or drops a line (20 R331, R334). No path reads anything else for it (16 R294, 10 R221). -/
def State.evict (s : State) (die line : Nat) : State := s.putCaches (s.caches.dropL2 die line)

/-- A home die gives up the entry of a region, once every copy in it is recalled (20 R336). -/
def State.evictRegion (s : State) (home base : Nat) : State :=
  match s.regions.find? fun r => r.home == home && r.base == base with
  | none => s
  | some r => s.putCaches ({ s.caches with regions := s.regions.filter fun q => q != r }.recall r r.holders true)

/-- A translation cache drops an entry (20 R328). -/
def State.dropTlb (s : State) (cache : XCache) (asid vbase : Nat) : State :=
  { s with tlb := s.tlb.filter fun t => !(t.cache == cache && t.asid == asid && t.vbase == vbase) }

/-- Whether two regions hold the same state (20 R336). -/
def Region.sameState (a b : Region) : Bool :=
  a.owner == b.owner && (a.sharers.all fun d => b.sharers.contains d) && b.sharers.all fun d => a.sharers.contains d

/-- Whether two regions are halves of one parent that may merge: they hold one state, and 4,096 operations have passed without a
conflict (20 R336). -/
def Region.merges (a b : Region) : Bool :=
  a.home == b.home && b.base == a.base + a.size && b.size == a.size && a.base % (2 * a.size) == 0 && decide (a.size < 65536) &&
    a.sameState b && decide (4096 ≤ a.ops) && decide (4096 ≤ b.ops)

/-- REGION_MERGE (20 R336): of the homes that track a region from a base on, the first whose halves may merge. -/
def execRegionMerge (base : Nat) (s : State) : Host.Outcome State Fault Refusal :=
  match s.regions.find? fun r => r.base == base && s.regions.any r.merges with
  | none => .next s
  | some a =>
    .next { s with regions := (s.regions.filter fun r => r != a && !a.merges r) ++ [{ a with size := 2 * a.size, ops := 0 }] }

/-- PAGE_REENCRYPTION_COMPLETE (20 R344): the write-backs that waited are made. A page whose major counter is used up waits for its
key's rotation. -/
def execPageReencryptionComplete (page : Nat) (s : State) : Host.Outcome State Fault Refusal :=
  .next (s.putCaches ((s.prot.filter fun p => p.page == page && p.busy && decide (p.major < 2 ^ 56)).foldl Caches.goOn s.caches))

/-- KEY_ROTATION (20 R345): the management plane installs a new key, and the sweep begins. -/
def execKeyRotation (slot : Nat) (s : State) : Host.Outcome State Fault Refusal :=
  if s.keySpent slot && !s.sweeps.contains slot then
    .next { s with sweeps := s.sweeps ++ [slot],
                   keys := (slot, Config.freshKey s.tick) :: s.keys.filter fun k => k.1 != slot }
  else .next s

/-- The counters of a key's pages and of the tree nodes above them are 0 (20 R345). -/
def State.zeroKey (s : State) (slot : Nat) : State :=
  let pages := (s.prot.filter fun p => p.key == slot).map (·.page)
  { s with
    sweeps := s.sweeps.filter fun k => k != slot,
    prot := s.prot.map fun (p : ProtPage) => if p.key = slot then { p with major := 0, minors := [] } else p,
    tree := s.tree.filter fun n => !(pages.any fun g => (List.range 9).any fun k => n.1 == treeNode k (g / 8 ^ k)) }

/-- KEY_SWEEP_COMPLETE (20 R345): every line stands under the new key with all counters at 0; then the write-backs that waited are
made. -/
def execKeySweepComplete (slot : Nat) (s : State) : Host.Outcome State Fault Refusal :=
  if s.sweeps.contains slot then
    let t := s.zeroKey slot
    .next (t.putCaches ((t.prot.filter fun p => p.key == slot).foldl Caches.goOn t.caches))
  else .next s

end Sys2Proof.Machine
end

