-- ==== Sys2Proof/Machine/Commands.lean ====
section
/-! DEFINITION. The system commands that queue 0's front-end performs (24 R382; 13 R249 to R251; 18 R302, R303, R306; 07
R155; 20 R329). -/

namespace Sys2Proof.Machine

/-- A command record (24 R382). -/
structure Cmd where
  code : Nat
  asid : Nat
  arg0 : Nat
  arg1 : DWord
  arg2 : DWord
  done : DWord
  zeros : Bool
  deriving DecidableEq, Repr, Inhabited

/-- A command record from its 64 bytes. -/
def Cmd.ofBytes (bs : List Byte) : Cmd :=
  { code := lef bs 0 1, asid := lef bs 2 2 % 4096, arg0 := lef bs 4 4, arg1 := BitVec.ofNat 64 (lef bs 8 8),
    arg2 := BitVec.ofNat 64 (lef bs 16 8), done := BitVec.ofNat 64 (lef bs 56 8),
    zeros := lef bs 2 2 / 4096 == 0 && (((bs.drop 24).take 32).all fun b => b == 0) }

/-- The command at the head of queue 0, once its front-end polls it (22 R356, 24 R382). -/
def State.command? (s : State) : Option (Queue × QDesc × Cmd) :=
  match s.queue? 0 with
  | none => none
  | some e =>
    match s.qdesc? e.desc with
    | none => none
    | some d =>
      if !e.enabled || e.wait ≠ 0 || d.qstat / 2 % 2 = 1 || d.tail = d.head then none
      else (s.rowRead 0 (d.ringRef d.head) 0 64).map fun bs => (e, d, Cmd.ofBytes bs)

/-- A command ends: its CSTAT is written, DONE gains 1, and HEAD passes it (24 R382). -/
def State.endCommand (s : State) (e : Queue) (d : QDesc) (c : Cmd) (cstat : Byte) : State :=
  let s1 := s.rowWrite 0 (d.ringRef d.head) 1 [cstat]
  let s2 := if c.done = 0 then s1 else s1.addOne 0 c.done
  (s2.rowWrite 0 e.desc 24 (leBytes 8 (d.head + 1))).mapQueue 0 fun (q : Queue) => { q with interval := 64 }

/-- The command at the head is performed where it has one of some codes: 0x81 for a field that must be zero, 0x82 with no
effect where its arguments fail, and else its effect and 0x01. -/
def State.perform (s : State) (is : Nat → Bool) (f : Cmd → Option State) : State :=
  match s.command? with
  | none => s
  | some (e, d, c) =>
    if !is c.code then s
    else if !c.zeros then s.endCommand e d c 0x81
    else match f c with
      | none => s.endCommand e d c 0x82
      | some t => t.endCommand e d c 0x01

/-- A table descriptor from its 64 bytes (13 R251). -/
def Desc.ofBytes (bs : List Byte) : Desc :=
  { tkind := lef bs 0 1, aper := lef bs 1 1, keyt := lef bs 2 1, tflags := BitVec.ofNat 8 (lef bs 3 1), width := lef bs 4 4,
    cap := lef bs 8 4, inc := lef bs 12 2, gen := lef bs 14 2, rowbase := lef bs 16 8, index := lef bs 24 8, live := lef bs 32 4,
    miss := lef bs 36 4, crcbase := lef bs 40 8, home := lef bs 48 2 }

/-- The keys of an index that a descriptor names: none where LIVE is 0 (DESIGN CHOICE, log 36). -/
def Desc.keysAt (d : Desc) : List KeyRow :=
  if d.tkind = 0 || d.live = 0 then []
  else (Config.indexKeys d.index).foldl (fun ks k =>
    if ks.any fun e => e.key == k.1 then ks
    else insertKey { key := k.1, row := k.2.1, hits := k.2.2 % 256 } ks) []

/-- The incarnation that a directory slot holds or last held (13 R250). -/
def State.slotInc (s : State) (asid slot : Nat) : Option Nat :=
  match s.table? asid slot with
  | some t => some t.desc.inc
  | none => (s.slotIncs.find? fun x => x.1 == asid && x.2.1 == slot).map fun x => x.2.2

/-- The directory without the table of a slot. -/
def State.clearSlot (s : State) (asid slot : Nat) : State :=
  match s.table? asid slot with
  | none => s
  | some t =>
    { s with tables := s.tables.filter fun u => !(u.asid == asid && u.slot == slot),
             slotIncs := (asid, slot, t.desc.inc) :: s.slotIncs.filter fun x => !(x.1 == asid && x.2.1 == slot) }

/-- DIR.SET's effect (24 R382). -/
def State.dirSet (s : State) (c : Cmd) : Option State :=
  if 0xFFFE < c.arg0 then none
  else match s.rowRead 0 c.arg1 0 64 with
    | none => none
    | some bs =>
      let d := Desc.ofBytes bs
      if s.slotInc c.asid c.arg0 = some d.inc then none
      else
        let t := s.clearSlot c.asid c.arg0
        some { t with tables := t.tables ++ [{ asid := c.asid, slot := c.arg0, desc := d, keys := d.keysAt, gens := [] }] }

/-- CMD_DIR_SET (24 R382). -/
def execCmdDirSet (s : State) : Host.Outcome State Fault Refusal := .next (s.perform (· == 1) s.dirSet)

/-- CMD_DIR_CLR (24 R382). -/
def execCmdDirClr (s : State) : Host.Outcome State Fault Refusal :=
  .next (s.perform (· == 2) fun c => if 0xFFFE < c.arg0 then none else some (s.clearSlot c.asid c.arg0))

/-- `n` bytes of a dense table as one run from a row on: an OBJECT record may be longer than a row (DEDUCED, log 37). -/
def State.runRead (s : State) (r : DWord) (n : Nat) : Option (List Byte) :=
  match s.refCheck 0 r with
  | .error _ => none
  | .ok t =>
    if t.desc.width * t.desc.cap < refRow r * t.desc.width + n then none
    else match s.rowCells t (refRow r) 0 n .read with
      | .error _ => none
      | .ok cs =>
        if (s.lineFault t.asid (t.va (refRow r) 0) (refRow r) cs .read).isSome then none
        else some (cs.map (s.readCell (pathOf t.desc.aper 0)))

/-- The quads of a method's own code (18 R306), or none where one cannot be fetched. -/
def State.codeWords (s : State) (asid : Nat) (first : Word) (quads : Nat) : Option (List Word) :=
  ((List.range quads).mapM fun k => (s.readQuad Site.elsewhere asid ((first + BitVec.ofNat 32 (16 * k)).toNat)).toOption).map List.flatten

/-- The method of an entry of an OBJECT record (07 R155): its code begins at the code base plus its entry offset. None where a field that must
be zero is not, or where PRESENT and NQUAD disagree; the spec does not say that OBJ.SET checks this (DESIGN CHOICE, log 91). -/
def State.methodOf (s : State) (asid : Nat) (base : Word) (bs : List Byte) : Option Method :=
  let off : Word := BitVec.ofNat 32 (lef bs 0 4)
  let w := lef bs 4 4
  let present := w / 2 % 2 == 1
  if w / 4 % 2 ^ 14 ≠ 0 || present != decide (w / 2 ^ 16 ≠ 0) then none
  else (s.codeWords asid (base + off) (w / 2 ^ 16)).map fun ws =>
    { entry := base + off + 4, present := present, ro := w % 2 == 1, code := ws }

/-- The incarnation that a new object receives: it differs from the one before, and is otherwise free (18 R303; DESIGN
CHOICE, log 57). -/
def State.newObjInc (s : State) (asid slot : Nat) : Nat :=
  match (s.objAt asid slot).map (·.inc) with
  | some i => (i + 1 + s.freeNat 0 0 % 65535) % 65536
  | none =>
    match s.objIncs.find? fun x => x.1 == asid && x.2.1 == slot with
    | some x => (x.2.2 + 1 + s.freeNat 0 0 % 65535) % 65536
    | none => s.freeNat 0 0 % 65536

/-- The directory without the object of a slot. -/
def State.clearObj (s : State) (asid slot : Nat) : State :=
  match s.objAt asid slot with
  | none => s
  | some o =>
    { s with objs := s.objs.filter fun p => !(p.asid == asid && p.slot == slot),
             objIncs := (asid, slot, o.inc) :: s.objIncs.filter fun x => !(x.1 == asid && x.2.1 == slot) }

/-- Whether the replay engine of a die has failed (18 R321, 24 R380). -/
def State.engineDead (s : State) (die : Nat) : Bool :=
  s.dead.any fun a => match a with
    | .computeDie k | .replayEngine k => k == die
    | _ => false

/-- A new object (18 R302): one replica on each die whose replay engine works, with the initial state, and an empty log. The home role
of a die whose engine has failed lies with its mirror from the start, and with no engine at all the calls are lost (18 R321). -/
def State.newObj (s : State) (asid slot home : Nat) (ms : List Method) (block : List Byte) : Obj :=
  let o : Obj :=
    { asid := asid, slot := slot, inc := s.newObjInc asid slot, home := home, mirror := none, copying := false, lost := false,
      size := block.length, methods := ms, tail := 0, log := [],
      reps := (List.range 4).map fun d =>
        { die := d, state := block, applied := 0, known := 0, failed := s.engineDead d, outs := [] } }
  let p := if !s.engineDead home then o
    else match o.mirrorOf with
      | some m => { o with home := m }
      | none => { o with lost := true }
  { p with mirror := p.mirrorOf }

/-- OBJ.SET's effect (24 R382): slot, home, sizes and every method's code are checked (07 R155, 18 R302; DEDUCED, log 47; DESIGN CHOICE, log 91). -/
def State.objSet (s : State) (c : Cmd) : Option State :=
  if 1024 ≤ c.arg0 then none
  else match s.runRead c.arg1 8 with
    | none => none
    | some hd =>
      let home := lef hd 0 1
      let n := lef hd 1 1
      let size := lef hd 4 4
      if (3 < home && home ≠ 0xFF) || 64 < n || lef hd 2 2 ≠ 0 || size < 4 || 65536 < size || size % 4 ≠ 0 then none
      else match s.runRead c.arg1 (8 + 8 * n + size) with
        | none => none
        | some bs =>
          let base : Word := c.arg2.setWidth 32
          match (List.range n).mapM fun k => s.methodOf c.asid base ((bs.drop (8 + 8 * k)).take 8) with
          | none => none
          | some ms =>
            let h := if home = 0xFF then s.freeNat 1 0 % 4 else home
            let o := s.newObj c.asid c.arg0 h ms (bs.drop (8 + 8 * n))
            let t := s.clearObj c.asid c.arg0
            some { t with objs := t.objs ++ [o] }

/-- CMD_OBJ_SET (24 R382). -/
def execCmdObjSet (s : State) : Host.Outcome State Fault Refusal := .next (s.perform (· == 3) s.objSet)

/-- CMD_OBJ_CLR (24 R382). -/
def execCmdObjClr (s : State) : Host.Outcome State Fault Refusal :=
  .next (s.perform (· == 4) fun c => if 1024 ≤ c.arg0 then none else some (s.clearObj c.asid c.arg0))

/-- The monitors of a range of an address space are lost, and the lanes that wait on them go on (20 R329, 08 R179). -/
def State.loseMonitors (s : State) (asid va n : Nat) : State :=
  let hitBy (m : Monitor) : Bool :=
    m.asid == asid && m.st != .fired && decide (m.va / 64 * 64 < va + n) && decide (va < m.va / 64 * 64 + 64)
  let ms := s.monitors.filter hitBy
  let s1 := { s with monitors := s.monitors.map fun (m : Monitor) => if hitBy m then { m with st := Mon.lost } else m }
  ms.foldl (fun t m =>
    if (t.gang m.ctx).resident && ((t.warp m.ctx m.warp).lane m.lane).slot matches .parked (.mwait ..) then
      t.mwaitRelease m.ctx m.warp m.lane 1
    else t) s1

/-- The invalidation of 20 R329: no cached translation, no walk and no quad of code of the range is left. A walk goes with the page it
was asked for, and with the whole page of 2 MiB or run that it has found. -/
def State.invalidate (s : State) (asid va n : Nat) : State :=
  let hit (a base size : Nat) : Bool := a == asid && decide (base < va + n) && decide (va < base + size)
  { s with
    tlb := s.tlb.filter fun t => !hit t.asid t.vbase t.size,
    walks := s.walks.filter fun w => !(hit w.asid (4096 * w.page) 4096 || match w.result with
      | some t => hit t.asid t.vbase t.size
      | none => false),
    icache := s.icache.filter fun l => !hit l.asid l.quad 16,
    loops := s.loops.map fun (b : LoopBuf) => { b with quads := b.quads.filter fun l => !hit l.asid l.quad 16 } }.startWalks

/-- CMD_XLAT_INV (24 R382, 20 R329). -/
def execCmdXlatInv (s : State) : Host.Outcome State Fault Refusal :=
  .next (s.perform (· == 5) fun c =>
    if 2 ^ 48 < c.arg1.toNat + c.arg2.toNat then none
    else some ((s.invalidate c.asid c.arg1.toNat c.arg2.toNat).loseMonitors c.asid c.arg1.toNat c.arg2.toNat))

/-- A queue named by QUEUE.SET: a record that is being placed goes on only under the same descriptor (DEDUCED, log 38). -/
def State.nameQueue (s : State) (q inc : Nat) (desc : DWord) : State :=
  let old := (s.queue? q).filter fun e => e.desc == desc
  let placing := old.bind (·.placing)
  let e : Queue := { num := q, headAt := old.bind (·.headAt), inc := inc, enabled := true, desc := desc, interval := 64, wait := 0,
                     placing := placing,
                     semSeen := (old.map (·.semSeen)).getD 0 }
  { s with
    queues := s.queues.filter (fun f => f.num != q) ++ [e],
    gangs := if placing.isSome then s.gangs else s.gangs.map fun (G : Gang) =>
      if G.queue = q && G.phase = Phase.waiting then { G with phase := .retired } else G }

/-- CMD_QUEUE_SET (24 R382): QSTAT shows the queue enabled and without error. -/
def execCmdQueueSet (s : State) : Host.Outcome State Fault Refusal :=
  .next (s.perform (· == 6) fun c =>
    if 4096 ≤ c.arg0 || (s.qdesc? c.arg1).isNone then none
    else some ((s.nameQueue c.arg0 (c.arg2.toNat % 65536) c.arg1).rowWrite 0 c.arg1 40 (leBytes 4 1)))

/-- CMD_QUEUE_CLR (24 R382): the queue is disabled; its placed gangs run on. -/
def execCmdQueueClr (s : State) : Host.Outcome State Fault Refusal :=
  .next (s.perform (· == 7) fun c =>
    match s.queue? c.arg0 with
    | none => none
    | some e =>
      let s1 := match s.qdesc? e.desc with
        | some d => s.rowWrite 0 e.desc 40 (leBytes 4 (d.qstat / 2 * 2))
        | none => s
      some (s1.mapQueue c.arg0 fun (f : Queue) => { f with enabled := false }))

/-- Whether a gang is still in being: it waits, runs, drains or is saved. -/
def Gang.inBeing (G : Gang) : Bool := G.phase == .waiting || G.phase == .running || G.phase == .draining || G.phase == .saved

/-- CMD_REGION_HALT (24 R378, R382): every gang of the subtree halts, with class, code and TRAPPC 0. -/
def execCmdRegionHalt (s : State) : Host.Outcome State Fault Refusal :=
  .next (s.perform (· == 8) fun c =>
    if (s.rcb? c.arg1).isNone then none
    else some ((List.range s.gangs.length).foldl (fun t g =>
      if (t.gang g).inBeing && t.inSubtree (t.gang g).region c.arg1 then t.haltGang g 0 0 0 false else t) s))

/-- CMD_CONTAIN_CLR (24 R381, R382). -/
def execCmdContainClr (s : State) : Host.Outcome State Fault Refusal :=
  .next (s.perform (· == 9) fun c =>
    if inHole c.arg1.toNat || 2 ^ 44 < c.arg1.toNat + c.arg2.toNat then none
    else some { s with cleared := s.cleared ++ [(c.arg1.toNat, c.arg2.toNat, s.dead.length)] })

/-- A 64-byte line as the control plane accesses it, row-major. -/
def State.lineBlock (s : State) (line : Nat) : Block :=
  { aper := 0, line := line / 2, lo := line % 2 * 64, hi := line % 2 * 64 + 63, pa := line / 2 * 128, key := s.keyAt (64 * line) }

/-- CMD_LINE_CLR (24 R379, R382): the line is readable again, and reads zero; monitors on it fire (08 R179). -/
def execCmdLineClr (s : State) : Host.Outcome State Fault Refusal :=
  .next (s.perform (· == 10) fun c =>
    let line := c.arg1.toNat / 64
    if inHole c.arg1.toNat then none
    else if !s.lost.contains line then some s
    else
      let t := s.touchDie (homeDie (64 * line)) true [s.lineBlock line]
      let st := s.stale.filter fun e => e.cell / 64 != line
      some { t with
        lost := s.lost.filter fun l => l != line,
        mem := Memory.putBytes s.mem (64 * line) (List.replicate 64 0),
        stale := st,
        monitors := monitorsAt s.monitors st (64 * line) })

/-- CMD_RESERVED (24 R382): a code that names no command is answered with 0x81. -/
def execCmdReserved (s : State) : Host.Outcome State Fault Refusal :=
  match s.command? with
  | none => .next s
  | some (e, d, c) => if c.code = 0 || 0x0B ≤ c.code then .next (s.endCommand e d c 0x81) else .next s

end Sys2Proof.Machine
end

