-- ==== Sys2Proof/Machine/Management.lean ====
section
/-! DEFINITION. The management plane and the outside world: the mailbox, bring-up, host and remote accesses, spares,
retention, scrubbing and heat (24 R371, R379, R383 to R388; 20 R337). -/

namespace Sys2Proof.Machine

/-- The measurements: SHA-384 of each firmware image, in load order (24 R383). -/
def State.measurements (s : State) : List Byte := (s.images.map fun i => Config.sha384 i.1).flatten

/-- Whether the image in a slot verifies under its own signature, and so runs: 0 the boot ROM stage, 1 the management firmware, 2 the
control-plane firmware (24 R383, R388). -/
def imageRuns (is : List (List Byte × List Byte)) (slot : Nat) : Bool := (is[slot]?.map fun i => Config.verifies i.1 i.2).getD false

/-- The mailbox answers. Until firmware runs the device accepts no command but IDENT (24 R388; DEDUCED, log 65). -/
def State.reply (s : State) (op : Nat) (t : State) (payload : Option (List Byte)) : State :=
  if !s.firmware then { s with replies := s.replies ++ [.busy op] }
  else match payload with
    | some bs => { t with replies := t.replies ++ [.success op bs] }
    | none => { s with replies := s.replies ++ [.invalidInput op] }

/-- The order code NC9-X1152 (00 R1). -/
def orderCode : List Byte := [0x4E, 0x43, 0x39, 0x2D, 0x58, 0x31, 0x31, 0x35, 0x32]

/-- What IDENT returns (24 R383, R388): the order code, the serial number, the version of the firmware images in place, the certificate
chain, and a byte for each image, 1 where the boot ROM found that it does not verify (DESIGN CHOICE, log 65). -/
def State.identity (s : State) : List Byte :=
  orderCode ++ Config.serial ++ Config.firmwareVersion (s.images.map (·.1)) ++ Config.certificates ++
    (List.range s.images.length).map fun k => if imageRuns s.images k then 0 else 1

/-- IDENT (24 R383, R388). -/
def execIdent (s : State) : Host.Outcome State Fault Refusal :=
  .next { s with replies := s.replies ++ [.success 0xC001 s.identity] }

/-- ATTEST (24 R383). -/
def execAttest (nonce : List Byte) (s : State) : Host.Outcome State Fault Refusal :=
  .next (s.reply 0xC002 s (if nonce.length = 48 then
    some (s.measurements ++ Config.identitySign (Config.sha384 (nonce ++ s.measurements))) else none))

/-- A number of a summary's entry: 8 bytes, little-endian (24 R384, DESIGN CHOICE, log 35). -/
def num8 (n : Nat) : List Byte := leBytes 8 n

/-- The state code of a gang in the summary. -/
def Phase.code : Phase → Nat
  | .running | .draining => 0
  | .waiting => 1
  | .saved => 2
  | .halted | .retired => 3

/-- A gang's entry in the summary: die, column, cluster and first core are 0 where it holds no place. -/
def State.contextEntry (s : State) (g : Nat) : List Byte :=
  let G := s.gang g
  let p := if G.resident then G.place else { die := 0, col := 0, clu := 0, core := 0 }
  ([g, G.asid, G.regid.toNat, G.queue, G.recIdx, G.gangid, G.phase.code, p.die, p.col, p.clu, p.core,
    G.haltClass.toNat * 256 + G.haltCode.toNat, G.haltPc.toNat].map num8).flatten

/-- A queue's entry in the summary. -/
def State.queueEntry (s : State) (e : Queue) : List Byte :=
  let d := (s.qdesc? e.desc).getD default
  ([e.num, e.inc, d.head, d.tail, d.qstat, e.semSeen.toNat].map num8).flatten

/-- A range without what another one covers: first address and bytes. -/
def minus (r c : Nat × Nat) : List (Nat × Nat) :=
  [(r.1, min (r.1 + r.2) c.1 - r.1), (max r.1 (c.1 + c.2), r.1 + r.2 - max r.1 (c.1 + c.2))].filter fun x => x.2 != 0

/-- What is still contained of a range that the dead agent of number `n` contains: no CONTAIN.CLR since its death has cleared it
(24 R381, R382). -/
def State.standing' (s : State) (n : Nat) (r : Nat × Nat) : List (Nat × Nat) :=
  (s.cleared.filter fun c => decide (n < c.2.2)).foldl (fun rs c => rs.flatMap fun x => minus x (c.1, c.2.1)) [r]

/-- The ranges that an agent contains once it is dead (24 R380), each with its kind: 6 every address of it, 16 + k the cells of stack k
in it, 24 + h those of hub h (DESIGN CHOICE, log 35). A dead hub contains the windows of the devices behind its ports (log 11). -/
def State.agentRanges (s : State) (a : Agent) : List (Nat × Nat × Nat) :=
  let window (p : Nat × Nat) : Nat × Nat × Nat := (6, 0x40000000000 + 2 ^ 36 * p.1, 2 ^ 36)
  match a with
  | .computeDie k => [(16 + 2 * k, 0, 0x6000000000), (17 + 2 * k, 0, 0x6000000000)]
  | .stack k => [(16 + k, 0, 0x6000000000)]
  | .hub h => (24 + h, 0x10000000000, 0x10000000000) :: (s.peers.filter fun p =>
      (hubPorts h).any fun l => (agentsOf s.peers)[Config.linkAgent l]? == some (.remote p.2)).map window
  | .remote d => (s.peers.filter fun p => p.2 == d).map window
  | .column .. | .replayEngine _ => []

/-- The contained ranges as the summary lists them. -/
def State.containedRanges (s : State) : List (Nat × Nat × Nat) :=
  s.dead.zipIdx.flatMap fun a =>
    let mine := (s.taken.filter fun r => r.2.2 == a.2).map fun r => (6, r.1, r.2.1)
    (s.agentRanges a.1 ++ mine).flatMap fun (r : Nat × Nat × Nat) =>
      (s.standing' a.2 r.2).map fun x => (r.1, x.1, x.2)

/-- The kind and identifier of a dead agent in the summary (DESIGN CHOICE, log 35). -/
def agentEntry : Agent → List Byte
  | .computeDie k => (num8 0 ++ num8 k) ++ num8 0
  | .stack k => (num8 1 ++ num8 k) ++ num8 0
  | .hub h => (num8 2 ++ num8 h) ++ num8 0
  | .remote d => (num8 3 ++ num8 d) ++ num8 0
  | .column d c => (num8 4 ++ num8 (18 * d + c)) ++ num8 0
  | .replayEngine d => (num8 5 ++ num8 d) ++ num8 0

/-- The sections of the summary after its header (24 R384). -/
def State.summary (s : State) : List (List Byte) :=
  let ctxs := (List.range s.gangs.length).filter fun g => (s.gang g).inBeing || (s.gang g).phase == .halted
  [(ctxs.map s.contextEntry).flatten,
   (s.queues.map s.queueEntry).flatten,
   (s.cols.map fun c => ([20 * c.die + c.phys, c.logical, c.st, c.corrected, c.uncorrected].map num8).flatten).flatten ++
     (s.slices.map fun c => ([34 * c.die + c.phys, c.logical, c.st, c.corrected, c.uncorrected].map num8).flatten).flatten,
   (s.dead.map agentEntry).flatten ++ (s.containedRanges.map fun r => (num8 r.1 ++ num8 r.2.1) ++ num8 r.2.2).flatten ++
     (s.lost.map fun l => (num8 7 ++ num8 (64 * l)) ++ num8 64).flatten,
   (columns.map fun c => [BitVec.ofNat 8 (s.heatOf c.1 c.2)]).flatten,
   s.measurements]

/-- RESYNC (24 R384): halted entries are removed once reported. -/
def execResync (s : State) : Host.Outcome State Fault Refusal :=
  let parts := s.summary
  let head := leBytes 4 0x4E435253 ++ leBytes 4 0 ++ num8 s.snapshot ++ (parts.map fun p => num8 p.length).flatten
  let t := { s with snapshot := s.snapshot + 1,
                    gangs := s.gangs.map fun (G : Gang) => if G.phase = Phase.halted then { G with phase := .retired } else G }
  .next (s.reply 0xC003 t (some (head ++ parts.flatten)))

/-- Whether some leaf below a page table of a level names a key slot (24 R383). -/
def State.tableNames (s : State) (slot : Nat) : Nat → Nat → Bool
  | 0, _ => false
  | lvl + 1, table => (List.range 512).any fun k =>
    let e := s.qword (table + 8 * k)
    ebit e 0 && (if ebit e 1 then nfld e 48 8 == slot else s.tableNames slot lvl (entryAddr e))

/-- Whether any leaf of any address space names a key slot. -/
def State.leafNames (s : State) (slot : Nat) : Bool :=
  (List.range 4096).any fun a =>
    let e := s.qword (s.asidTable + 8 * a)
    ebit e 0 && s.tableNames slot 4 (entryAddr e)

/-- KEY.SET (24 R383). -/
def execKeySet (slot : Nat) (wrapped : List Byte) (s : State) : Host.Outcome State Fault Refusal :=
  match Config.unwrapKey wrapped with
  | none => .next (s.reply 0xC004 s none)
  | some k =>
    let t := { s with keys := (slot, k) :: s.keys.filter fun e => e.1 != slot }
    .next (s.reply 0xC004 t (if slot = 0 || 255 < slot || s.leafNames slot then none else some []))

/-- KEY.CLR (24 R383). -/
def execKeyClr (slot : Nat) (s : State) : Host.Outcome State Fault Refusal :=
  let t := { s with keys := s.keys.filter fun e => e.1 != slot }
  .next (s.reply 0xC005 t (if slot = 0 || 255 < slot || s.leafNames slot then none else some []))

/-- PEER.MAP (24 R383). -/
def execPeerMap (window device : Nat) (s : State) : Host.Outcome State Fault Refusal :=
  let t := { s with peers := (window, device) :: s.peers.filter fun e => e.1 != window }
  .next (s.reply 0xC006 t (if 64 ≤ window then none else some []))

/-- FW.LOAD (24 R383): the image is staged; whether its signature verifies is found at the next device reset. -/
def execFwLoad (image signature : List Byte) (s : State) : Host.Outcome State Fault Refusal :=
  .next (s.reply 0xC007 { s with staged := s.staged ++ [(image, signature)] } (some []))

/-- The firmware images that a reset boots, each with its signature: those in place, with every staged image whose signature verifies in
its slot (24 R383, R388). -/
def State.bootImages (s : State) : List (List Byte × List Byte) :=
  (s.staged.filter fun x => Config.verifies x.1 x.2).foldl (fun is x => is.set (Config.imageSlot x.1 % 3) x)
    (if s.images.isEmpty then Config.firmwareImages else s.images)

/-- A page-table entry: a pointer, or a 2 MiB leaf with every permission (20 R325). -/
def ptPointer (pa : Nat) : Nat := pa + 1
def ptLeaf2M (pa : Nat) : Nat := pa + 0x1F

/-- Eight-byte numbers written from a cell on. -/
def putWords8 (m : List Host.Cell) (a : Nat) (vs : List Nat) : List Host.Cell :=
  Memory.putBytes m a ((vs.map fun v => leBytes 8 v).flatten)

/-- A dense table of ASID 0 that firmware creates. -/
def systemTable (slot width cap base : Nat) : Table :=
  { asid := 0, slot := slot, keys := [], gens := [],
    desc := { tkind := 0, aper := 0, keyt := 0xFF, tflags := 0, width := width, cap := cap, inc := 1, gen := 1, rowbase := base,
              index := 0, live := 0, miss := 0, crcbase := 0, home := 0 } }

/-- The reference of a row of a system table. -/
def systemRef (slot row : Nat) : DWord := BitVec.ofNat 64 (slot * 2 ^ 48 + 2 ^ 32 + row)

/-- The root's RCB: every field inherits (22 R349, R350). -/
def rootRcb : List Byte :=
  leBytes 8 0 ++ List.replicate 16 0xFF ++ [0xFF, 0, 0, 0] ++ leBytes 4 0 ++ leBytes 4 0xFFFFFFFF ++ List.replicate 28 0

/-- The descriptor of queue 0 (22 R353, 24 R382): the root owns it, and its ring is the command ring. -/
def commandQueue (b : Config.Bringup) : List Byte :=
  leBytes 8 (systemRef b.regionSlot 0).toNat ++ leBytes 8 (systemRef 0xFF02 0).toNat ++ leBytes 4 b.ringRows ++ leBytes 4 0 ++
    leBytes 8 0 ++ leBytes 8 0 ++ leBytes 4 1 ++ List.replicate 20 0

/-- FIRMWARE'S BRING-UP (24 R371, R388): the system tables, ASID 0's entry with a page table that maps its first GiB onto the
same physical addresses, queue 0 and the root region. Table 0xFF00 is the ASID table that the walkers read (20 R323). Where they lie is
firmware's own choice (DESIGN CHOICE, log 3). Queue 0 belongs to the control plane: where its firmware is not run, no queue is named (log
65). -/
def State.bringUp (s : State) (b : Config.Bringup) : State :=
  let l4 := b.pagesAt
  let m1 := putWords8 s.mem b.asidAt [ptPointer l4]
  let m2 := putWords8 (putWords8 m1 l4 [ptPointer (l4 + 4096)]) (l4 + 4096) [ptPointer (l4 + 8192)]
  let m3 := putWords8 m2 (l4 + 8192) ((List.range 512).map fun k => ptLeaf2M (k * 2097152))
  let m4 := Memory.putBytes (Memory.putBytes m3 b.regionAt rootRcb) b.queueAt (commandQueue b)
  { s with
    firmware := true, mem := m4, asidTable := b.asidAt,
    tables := [systemTable 0xFF00 8 4096 b.asidAt, systemTable 0xFF01 16 4096 b.contextAt,
               systemTable 0xFF02 64 b.ringRows b.ringAt, systemTable b.regionSlot 64 1 b.regionAt,
               systemTable b.queueSlot 64 4096 b.queueAt],
    queues := if !imageRuns s.images 2 then [] else
              [{ num := 0, headAt := none, inc := b.ringInc, enabled := true, desc := systemRef b.queueSlot 0, interval := 64, wait := 0,
                 placing := none, semSeen := 0 }] }

/-- The device as a reset leaves it before its boot ROM runs: DRAM, the spare map, repaired parts and lost lines are not
part of the reset; error counts start anew (24 R370, DEDUCED, log 39). -/
def State.afterReset (s : State) : State :=
  { State.reset with
    tick := s.tick, mover := s.mover, nextId := s.nextId, mem := s.mem, images := s.bootImages, staged := [],
    cols := s.cols.map fun (c : ColSt) => { c with corrected := 0, uncorrected := 0 },
    slices := s.slices.map fun (c : SliceSt) => { c with corrected := 0, uncorrected := 0 },
    repaired := s.repaired, lost := s.lost }

/-- DEVICE_RESET (24 R388): each image is verified under its own signature, and one that fails is not run. The management firmware brings
the device up (DESIGN CHOICE, log 65). -/
def execDeviceReset (s : State) : Host.Outcome State Fault Refusal :=
  let t := s.afterReset
  if imageRuns t.images 1 then .next (t.bringUp Config.bringup) else .next t

/-- The blocks of a run of physical addresses, row-major, as an access from outside names them (20 R337). -/
def State.paBlocks (s : State) (pa n : Nat) : List Block :=
  (List.range ((pa + n - 1) / 128 + 1 - pa / 128)).map fun k =>
    let l := pa / 128 + k
    { aper := 0, line := l, lo := max pa (128 * l) - 128 * l, hi := min (pa + n) (128 * l + 128) - 1 - 128 * l, pa := 128 * l,
      key := s.keyAt (128 * l) }

/-- What an access from outside a core leaves in the caches and at the controllers: the home slices of its cells serve it, and a write
invalidates the L1 copies (20 R334 to R337). -/
def State.touchHome (s : State) (pa n : Nat) (write : Bool) : State :=
  (s.paBlocks pa n).foldl (fun t b => t.touchDie (homeDie (128 * b.line)) write [b]) s

/-- Whether an access from outside waits: for a bank, a swap, a sweep or a re-encryption (20 R344, R345; 24 R385, R386). -/
def State.outsideHeld (s : State) (pa n : Nat) (write : Bool) : Bool :=
  ((List.range n).any fun i => s.heldBack (pa + i)) ||
    (s.paBlocks pa n).any fun b => b.key != 0 && s.keyHeld b.key (b.pa / 4096) write

/-- An access from outside that waits arrives at its banks, which thaw for it (24 R386); it comes again. -/
def State.wakeOutside (s : State) (pa n : Nat) : State := s.wakeAll ((List.range n).map (pa + ·))

/-- The 64-byte lines of a protected region whose checks fail as a run of bytes is read from outside (20 R346; DESIGN CHOICE, log 69). -/
def State.outsideFails (s : State) (pa n : Nat) : List Nat :=
  ((List.range ((pa + n - 1) / 64 + 1 - pa / 64)).map (pa / 64 + ·)).filter s.paFails

/-- Whether a cell can be read and written: neither contained nor lost. -/
def State.usable (s : State) (cell : Nat) : Bool := !s.containedCell cell && !s.lostCell cell

/-- Bytes written from outside, row-major; a contained or lost byte is not written (20 R337, 24 R379, R381). -/
def State.outsideWrite (s : State) (pa : Nat) (bs : List Byte) : State :=
  (bs.zipIdx).foldl (fun t x => if t.usable (pa + x.2) then t.writeCell 0 (pa + x.2) x.1 else t) (s.touchHome pa bs.length true)

/-- Bytes read from outside, row-major; none where a byte is contained or lost, or its line's check fails (DEDUCED, log 54). -/
def State.outsideRead (s : State) (pa n : Nat) : List Byte :=
  if ((List.range n).all fun i => s.usable (pa + i)) && (s.outsideFails pa n).isEmpty then
    (List.range n).map fun i => s.readCell 0 (pa + i)
  else []

/-- What a read from outside leaves: a line whose check fails is retired (20 R346). -/
def State.noteRead (s : State) (pa n : Nat) : State := (s.touchHome pa n false).retire (s.outsideFails pa n)

/-- The first hole that a run of bytes touches. -/
def holeIn (pa n : Nat) : Option Nat := ((List.range n).map (pa + ·)).find? inHole

/-- HOST_WRITE (16 R291, 20 R337). An access that waits has not been made: it comes again. One to the host's own window drops the device's
copies of its lines. -/
def execHostWrite (pa : Nat) (bytes : List Byte) (s : State) : Host.Outcome State Fault Refusal :=
  match holeIn pa bytes.length with
  | some a => .fault (.hole a)
  | none => if s.outsideHeld pa bytes.length true then .next (s.wakeOutside pa bytes.length) else .next (s.outsideWrite pa bytes)

/-- HOST_READ (20 R337). -/
def execHostRead (pa len : Nat) (s : State) : Host.Outcome State Fault Refusal :=
  match holeIn pa len with
  | some a => .fault (.hole a)
  | none =>
    if s.outsideHeld pa len false then .next (s.wakeOutside pa len)
    else .next { s.noteRead pa len with hostOut := s.hostOut ++ [(pa, s.outsideRead pa len)] }

/-- Whether a run of bytes lies in device memory. -/
def inDevice (pa n : Nat) : Bool := (List.range n).all fun i => inHbm (pa + i) || inCapacity (pa + i)

/-- An AMO or CAS of a remote device, performed atomically on the youngest writes; the answer is the old value (24 R388, 16 R282). -/
def State.remoteRmw (s : State) (device pa n : Nat) (new : Nat → Option Nat) : State :=
  let s := s.publishCells 0 ((List.range n).map (pa + ·))
  let bs := s.outsideRead pa n
  let t := match new (leNat bs) with
    | some v => if bs.isEmpty then s.noteRead pa n else s.outsideWrite pa (leBytes n v)
    | none => s.noteRead pa n
  { t with remoteOut := t.remoteOut ++ [(device, pa, bs)] }

/-- REMOTE_DEVICE_ACCESS (24 R388): a dead device's accesses do not arrive. -/
def execRemoteDeviceAccess (device pa : Nat) (access : Remote) (s : State) : Host.Outcome State Fault Refusal :=
  let n := match access with
    | .load len => len
    | .store bs => bs.length
    | .amo _ wide _ | .cas wide _ _ => if wide then 8 else 4
  if s.dead.contains (.remote device) then .next s
  else if !inDevice pa n then .fault (.hole pa)
  else if s.outsideHeld pa n !(access matches .load _) then .next (s.wakeOutside pa n)
  else match access with
    | .load len => .next { s.noteRead pa len with remoteOut := s.remoteOut ++ [(device, pa, s.outsideRead pa len)] }
    | .store bs => .next (s.outsideWrite pa bs)
    | .amo op wide v => .next (s.remoteRmw device pa n fun old =>
        some (if wide then (amoNew 64 op.toNat (BitVec.ofNat 64 old) v).toNat
          else (amoNew 32 op.toNat (BitVec.ofNat 32 old) (v.setWidth 32)).toNat))
    | .cas wide e v => .next (s.remoteRmw device pa n fun old =>
        if old = (if wide then e.toNat else e.toNat % 2 ^ 32) then some (if wide then v.toNat else v.toNat % 2 ^ 32) else none)

/-- The heat code of a temperature (24 R387). -/
def heatCode (temp : Nat) : Nat := min ((temp - 45) / 4) 15

/-- HEAT_CODE_WRITE (24 R387): at 120 degrees the column is declared dead. -/
def execHeatCodeWrite (die col temp : Nat) (s : State) : Host.Outcome State Fault Refusal :=
  if 4 ≤ die || 18 ≤ col then .next s
  else
    let k := die * 18 + col
    let t := { s with heat := (k, heatCode temp) :: s.heat.filter fun h => h.1 != k }
    .next (if 120 ≤ temp then t.declareDead (.column die col) else t)

/-- Whether a part has worn out: it has shown an uncorrectable error, or 256 corrected ones within 24 hours (24 R385). -/
def State.worn (s : State) (p : Part) : Bool :=
  match s.errors.lookup p with
  | some (n, u) => u || decide (256 ≤ n)
  | none => false

/-- The errors of a part with one more (24 R385). -/
def State.countPart (s : State) (p : Part) (found : Flaw) : State :=
  let old := (s.errors.lookup p).getD (0, false)
  let new := match found with
    | .clean => old
    | .corrected => (old.1 + 1, old.2)
    | .uncorrectable => (old.1, true)
  if new = (0, false) then s else { s with errors := (p, new) :: s.errors.filter fun e => e.1 != p }

/-- A corrected error of a part is 24 hours old, and no longer counts (24 R385): when that is, is free (DESIGN CHOICE, log 40). -/
def State.agePart (s : State) (p : Part) : State :=
  { s with errors := s.errors.map fun e => if e.1 = p then (p, e.2.1 - 1, e.2.2) else e }

/-- The state with an entry of the spare map changed. -/
def State.mapCol (s : State) (die phys : Nat) (f : ColSt → ColSt) : State :=
  { s with cols := s.cols.map fun c => if c.die = die && c.phys = phys then f c else c }
def State.mapSlice (s : State) (die phys : Nat) (f : SliceSt → SliceSt) : State :=
  { s with slices := s.slices.map fun c => if c.die = die && c.phys = phys then f c else c }

/-- Whether a port has used its spare lane (24 R385, R388). -/
def State.laneSpent (s : State) (port : Nat) : Bool :=
  s.repaired.any fun p => match p with
    | .perpelLane q _ => q == port
    | _ => false

/-- SPARE_SWAP (24 R385): the swap of a worn part begins. A replay engine that the management plane finds failed has no spare: its die
fails over to the home die (18 R321). -/
def execSpareSwap (part : Part) (s : State) : Host.Outcome State Fault Refusal :=
  match part with
  | .replayEngine die => .next (s.declareDead (.replayEngine die))
  | p =>
    if s.swaps.contains p || !s.worn p then .next s
    else
      let t := { s with swaps := s.swaps ++ [p] }
      match p with
      | .column die phys =>
        .next (if s.cols.any fun c => c.die == die && c.phys == phys && c.st == 0 then
          t.mapCol die phys fun (c : ColSt) => { c with st := 1 } else s)
      | .slice die phys =>
        .next (if s.slices.any fun c => c.die == die && c.phys == phys && c.st == 0 then
          t.mapSlice die phys fun (c : SliceSt) => { c with st := 1 } else s)
      | .perpelLane port _ =>
        .next (if s.laneSpent port then s else { t with retraining := port :: t.retraining.filter fun l => l != port })
      | _ => .next t

/-- The lowest spare column, or slice, of a die. -/
def State.spareCol (s : State) (die : Nat) : Option ColSt := s.cols.find? fun c => c.die == die && c.st == 3
def State.spareSlice (s : State) (die : Nat) : Option SliceSt := s.slices.find? fun c => c.die == die && c.st == 3

/-- What the cores and clusters of a logical column cache is given up with its physical column: the L1s' dirty lines are written back, and
the physical cores that take over hold nothing (20 R328, R334; 24 R385). -/
def State.emptyColumn (s : State) (die col : Nat) : State :=
  let mine (core : Nat) : Bool := core / 16 == die * 18 + col
  let t := s.putCaches ((s.l1.filter fun e => mine e.core).foldl Caches.dropL1 s.caches)
  { t with
    icache := t.icache.filter fun l => !mine l.core, loops := t.loops.filter fun b => !mine b.core,
    tlb := t.tlb.filter fun e => match e.cache with
      | .core k => !mine k
      | .cluster k => !mine (4 * k)
      | .die _ => true }

/-- A worn column is retired, and a spare, where the die has one left, becomes active under its logical number. The heat code kept under that
number stays until the next heat code is written: the spec does not say what it is meanwhile (00 R7, 24 R385; DESIGN CHOICE, log 93). -/
def State.swapColumn (s : State) (die phys : Nat) : State :=
  match s.cols.find? fun c => c.die == die && c.phys == phys with
  | none => s
  | some w =>
    let t := (s.emptyColumn die w.logical).mapCol die phys fun (c : ColSt) => { c with st := 2 }
    match s.spareCol die with
    | none => t
    | some sp => t.mapCol die sp.phys fun (c : ColSt) => { c with st := 0, logical := w.logical }

/-- The lines in a die's caches that lie in a logical slice of it. -/
def State.sliceLines (s : State) (die logical : Nat) : List Nat :=
  (((s.l2.filter fun e => e.die == die).map (·.line) ++ (s.l1.filter fun e => e.core / 288 == die).map (·.line)).eraseDups).filter
    fun l => sliceOf l == logical

/-- A worn slice is retired: its lines are written back, its directory entries recalled, and a spare takes over its cells. -/
def State.swapSlice (s : State) (die phys : Nat) : State :=
  match s.slices.find? fun c => c.die == die && c.phys == phys with
  | none => s
  | some w =>
    let back := s.putCaches ((s.sliceLines die w.logical).foldl (fun c l => c.dropL2 die l) s.caches)
    let t := back.mapSlice die phys fun (c : SliceSt) => { c with st := 2 }
    match s.spareSlice die with
    | none => t
    | some sp => t.mapSlice die sp.phys fun (c : SliceSt) => { c with st := 0, logical := w.logical }

/-- Whether a gang still holds a physical column. -/
def State.colBusy (s : State) (die phys : Nat) : Bool :=
  match s.cols.find? fun c => c.die == die && c.phys == phys with
  | none => false
  | some c => s.residents.any fun g => (s.gang g).place.die == die && (s.gang g).place.col == c.logical

/-- SPARE_SWAP_COMPLETE (24 R385). -/
def execSpareSwapComplete (part : Part) (s : State) : Host.Outcome State Fault Refusal :=
  if !s.swaps.contains part then .next s
  else
    let t := { s with swaps := s.swaps.filter (fun p => p != part), errors := s.errors.filter fun e => e.1 != part }
    match part with
    | .column die phys => if s.colBusy die phys then .next s else .next (t.swapColumn die phys)
    | .slice die phys => .next (t.swapSlice die phys)
    | _ => .next { t with repaired := t.repaired ++ [part] }

/-- A 64-byte line is lost: an error of it could not be corrected (24 R379). -/
def State.loseLine (s : State) (line : Nat) : State := s.retire [line]

/-- The row of HBM4E that holds a 64-byte line (20 R332). -/
def rowOf (line : Nat) : Part := .hbmRow (stackOf (64 * line)) (nfld (64 * line) 23 16)

/-- An error in a line of memory: a corrected one is counted and written back, and another loses the line (24 R379). -/
def State.memoryError (s : State) (line : Nat) (found : Flaw) : State :=
  let t := if inHbm (64 * line) then s.countPart (rowOf line) found else s
  match found with
  | .clean => s
  | .corrected => { t with memErrors := t.memErrors + 1 }
  | .uncorrectable => t.loseLine line

/-- An error that cannot be corrected in a copy of a line that an L2 of a die holds, which one is free: a clean copy is dropped and
fetched again, and a dirty one is a memory error (24 R379). -/
def State.l2Error (s : State) (die : Nat) : State :=
  let mine := s.l2.filter fun e => e.die == die
  match mine[s.freeNat 9 0 % mine.length]? with
  | none => s
  | some e =>
    let t := { s with l2 := s.l2.filter fun f => f != e }
    if e.dirty = 0 then t else t.loseLine (2 * e.line + if s.free 0 0 then 1 else 0)

/-- An error that cannot be corrected in a copy of a line that an L1 of a logical column holds, if one holds any. -/
def State.l1Error (s : State) (die col : Nat) : State :=
  let mine := s.l1.filter fun e => e.core / 16 == die * 18 + col
  match mine[s.freeNat 9 0 % mine.length]? with
  | none => s
  | some e =>
    let t := { s with l1 := s.l1.filter fun f => f != e }
    if e.st = .m || e.st = .o then t.loseLine (2 * e.line + if s.free 0 0 then 1 else 0) else t

/-- Where a scrubbed line lies: HBM4E by line number, then firn and L2 by physical column and slice (DESIGN CHOICE, log 40). -/
inductive Scrubbed where
  | memory (line : Nat)
  | firn (die phys : Nat)
  | l2 (die phys : Nat)
  deriving DecidableEq, Repr

/-- The place of a line number of the scrubber. -/
def scrubbed (line : Nat) : Scrubbed :=
  if line < 2 ^ 40 then .memory line
  else if line < 2 ^ 41 then .firn ((line - 2 ^ 40) / 2 ^ 21 / 20 % 4) ((line - 2 ^ 40) / 2 ^ 21 % 20)
  else .l2 ((line - 2 ^ 41) / 2 ^ 21 / 34 % 4) ((line - 2 ^ 41) / 2 ^ 21 % 34)

/-- A corrected error counted in a column (24 R370, R385). -/
def State.countCorrected (s : State) (die phys : Nat) : State :=
  let k := die * 20 + phys
  { s.mapCol die phys (fun (c : ColSt) => { c with corrected := c.corrected + 1 }) with
    ecnt := (k, min ((s.ecnt.lookup k).getD 0 + 1) 0xFFFFFFFF) :: s.ecnt.filter fun e => e.1 != k }

/-- The gangs that hold firn in a physical column. -/
def State.firnHolders (s : State) (die phys : Nat) : List Nat :=
  match s.cols.find? fun c => c.die == die && c.phys == phys with
  | none => []
  | some c => s.residents.filter fun g =>
      (s.gang g).place.die == die && (s.gang g).place.col == c.logical && decide (0 < (s.gang g).launch.firn)

/-- A word of firn is lost: the gang that holds it, if one does, halts with MEM.UE; which one is free (24 R378, R379; DESIGN CHOICE, log 40). -/
def State.firnError (s : State) (die phys : Nat) : State :=
  let hs := s.firnHolders die phys
  match hs[s.freeNat 10 0 % (hs.length + 1)]? with
  | none => s
  | some g => s.haltGang g 0x0E 1 (BitVec.ofNat 32 (s.freeNat 11 0)) true

/-- A word of a gang's registers, handler banks, accumulators or cluster memory is in error: a corrected error is counted in its
column, and with another the gang halts with MEM.UE (24 R370, R378, R379) and a free TRAPPC (DESIGN CHOICE, log 9). -/
def State.upset (s : State) (ctx : Nat) (found : Flaw) : State :=
  let G := s.gang ctx
  let k := (s.colOf G.place.die G.place.col).phys
  let d := G.place.die
  if !G.resident then s
  else match found with
    | .clean => s
    | .corrected => (s.countCorrected d k).countPart (.column d k) found
    | .uncorrectable => (((s.haltGang ctx 0x0E 1 (BitVec.ofNat 32 (s.freeNat 11 0)) true).countPart (.column d k) found).mapCol
        d k fun (c : ColSt) => { c with uncorrected := c.uncorrected + 1 })

/-- An error in the firn of a physical column, in one of its rows. -/
def State.firnRowError (s : State) (die phys row : Nat) (found : Flaw) : State :=
  match found with
  | .clean => s
  | .corrected => (s.countCorrected die phys).countPart (.firnRow die phys row) found
  | .uncorrectable => ((s.firnError die phys).countPart (.firnRow die phys row) found).mapCol die phys fun (c : ColSt) =>
      { c with uncorrected := c.uncorrected + 1 }

/-- An error in an L2 slice. -/
def State.sliceError (s : State) (die phys : Nat) (found : Flaw) : State :=
  match found with
  | .clean => s
  | .corrected => (s.countPart (.slice die phys) found).mapSlice die phys fun (c : SliceSt) => { c with corrected := c.corrected + 1 }
  | .uncorrectable => ((s.l2Error die).countPart (.slice die phys) found).mapSlice die phys fun (c : SliceSt) =>
      { c with uncorrected := c.uncorrected + 1 }

/-- An access meets an error in a part (24 R379, R385): in a column, of a copy that an L1 of it holds; in a row of HBM4E, of a line of
it; which one is free (DESIGN CHOICE, log 40). -/
def State.partError (s : State) (p : Part) (found : Flaw) : State :=
  match p with
  | .column d k =>
    let t := s.countPart p found
    match found, s.cols.find? fun c => c.die == d && c.phys == k with
    | .corrected, some _ => t.countCorrected d k
    | .uncorrectable, some c => (t.l1Error d c.logical).mapCol d k fun (c : ColSt) => { c with uncorrected := c.uncorrected + 1 }
    | _, _ => s
  | .slice d k => s.sliceError d k found
  | .firnRow d k row => s.firnRowError d k row found
  | .hbmRow st row =>
    let n := s.freeNat 12 0
    s.memoryError (2 ^ 17 * (row % 49152) + 32 * (n / 4 % 4096) + 4 * (st % 8) + n % 4) found
  | .perpelLane .. | .replayEngine _ => s.countPart p found

/-- PATROL_SCRUB (24 R379): what it finds in a line of memory, of firn or of an L2 is corrected and counted, or handled as an error
that an access meets. -/
def execPatrolScrub (line : Nat) (found : Flaw) (s : State) : Host.Outcome State Fault Refusal :=
  match scrubbed line with
  | .memory l => .next (s.memoryError l found)
  | .firn d k => .next (s.firnRowError d k (Config.firnRow ((line - 2 ^ 40) % 2 ^ 21 * 64)) found)
  | .l2 d k => .next (s.sliceError d k found)

/-- The bank list with one bank's state replaced; an active bank is not listed. -/
def setBank (bs : List (Nat × BankSt)) (bank : Nat) (st : Option BankSt) : List (Nat × BankSt) :=
  (st.map fun x => (bank, x)).toList ++ bs.filter fun b => b.1 != bank

/-- BANK_FREEZE (24 R386). -/
def execBankFreeze (bank : Nat) (s : State) : Host.Outcome State Fault Refusal :=
  match s.banks.lookup bank with
  | none => .next { s with banks := setBank s.banks bank (some .freezing) }
  | some _ => .next s

/-- FREEZE_COMPLETE (24 R386): an access that came meanwhile makes the bank thaw. -/
def execFreezeComplete (bank : Nat) (s : State) : Host.Outcome State Fault Refusal :=
  match s.banks.lookup bank with
  | some .freezing => .next { s with banks := setBank s.banks bank (some .frozen) }
  | some .freezingThenThaw => .next { s with banks := setBank s.banks bank (some .thawing) }
  | _ => .next s

/-- THAW_COMPLETE (24 R386). -/
def execThawComplete (bank : Nat) (s : State) : Host.Outcome State Fault Refusal :=
  match s.banks.lookup bank with
  | some .thawing => .next { s with banks := setBank s.banks bank none }
  | _ => .next s

/-- CXL_CACHE_SNOOP (20 R337): the host's protocol acts on a line of the host window that the device's L2 slices, and the L1s above them,
hold: what is dirty goes to the host, and the copies are dropped, or stay shared. `line` numbers lines of 128 bytes (R333; DESIGN CHOICE,
log 53). -/
def execCxlCacheSnoop (line : Nat) (snoop : Snoop) (s : State) : Host.Outcome State Fault Refusal :=
  if !inHost (128 * line) then .next s
  else
    let c := (List.range 4).foldl (fun (c : Caches) d => match snoop with
      | .drop => c.dropL2 d line
      | .writeBack | .downgrade => c.downgrade d line) s.caches
    .next (s.putCaches c)

end Sys2Proof.Machine
end

