-- ==== Sys2Proof/Machine/SmallMatrix.lean ====
section
/-! DEFINITION. Per-lane small matrices (06 R119 to R135, 03 R70). Every value is an `f32` code; every operation rounds to
nearest even. -/

namespace Sys2Proof.Machine

/-- A matrix in working values, by rows. -/
abbrev Grid := List (List Nat)

/-- Element (i, j). -/
def Grid.at (a : Grid) (i j : Nat) : Nat := (a.getD i []).getD j 0

/-- The matrix with element (i, j) replaced. -/
def Grid.put (a : Grid) (i j v : Nat) : Grid := a.modify i fun r => r.set j v

/-- The matrix of a function. -/
def Grid.of (p q : Nat) (f : Nat → Nat → Nat) : Grid := (List.range p).map fun i => (List.range q).map fun j => f i j

/-- The stored elements of a layout in storage order (06 R119): `n` is the order of a packed matrix. -/
def storedCells (lay p q : Nat) : List (Nat × Nat) :=
  ((List.range p).map fun i =>
    match lay with
    | 0 => (List.range q).map fun j => (i, j)
    | 1 => (List.range (i + 1)).map fun j => (i, j)
    | _ => (List.range (p - i)).map fun j => (i, i + j)).flatten

/-- Where element (i, j) of a layout stands after its base register (06 R119). -/
def storedAt (lay p q i j : Nat) : Nat :=
  match lay with
  | 0 => i * q + j
  | 1 => i * (i + 1) / 2 + j
  | _ => i * p - i * (i - 1) / 2 + (j - i)

/-- The registers of a matrix operand of a lane, in storage order. -/
def Warp.mat (W : Warp) (l n k : Nat) : List Nat := (List.range k).map fun j => (W.get l (n + j)).toNat

/-- The matrix that registers hold, with 0 for the elements that are not stored. -/
def gridOf (lay p q : Nat) (xs : List Nat) : Grid :=
  let qq := if lay = 0 then q else p
  Grid.of p qq fun i j =>
    if lay = 0 || (lay = 1 && j ≤ i) || (lay = 2 && i ≤ j) then xs.getD (storedAt lay p q i j) 0 else 0

/-- The stored elements of a matrix, in storage order. -/
def gridRegs (lay p q : Nat) (a : Grid) : List Nat := (storedCells lay p q).map fun c => a.at c.1 c.2

/-- Registers from `n` of a lane receive `f32` codes. -/
def Warp.putMat (W : Warp) (l n : Nat) (xs : List Nat) : List (Tgt × DWord) := W.putN l n (xs.map fun x => BitVec.ofNat 32 x)

/-- The shape that an instruction needs (06 R120). -/
def shapeOk (i : Instr) (ms : BitVec 12) : Bool :=
  let lay := msLay ms
  ms != 0 && match i with
    | .mred m .. => m.toNat != 0 || lay != 0 || msM ms == msN ms
    | .mtrn .. | .mmul .. | .mlup .. => lay == 0
    | .mchol .. => lay == 1
    | .mtrs _ _ _ y .. => !(y == 0 && lay == 2) && !(y == 1 && lay == 1)
    | .msolv m .. => if m = 0 then lay == 1 else lay == 0
    | _ => true

/-- MATRIX.MSHAPE (06 R120): TRAPAUX holds ms in every lane of the handler set. -/
def needsShape (i : Instr) : Cur → State → Option Flt := fun c s =>
  let ms := (s.warp c.gang c.warp).ms
  if shapeOk i ms then none else some (fltAll 6 1 c.set (ms.setWidth 32) 0)

/-- MSET (06 R124). -/
def execMset (m k n : BitVec 3) (l : BitVec 2) (s : State) : Host.Outcome State Fault Refusal :=
  uniform (.mset m k n l) s fun _ _ =>
    [(.ms, BitVec.ofNat 64 (m.toNat * 512 + k.toNat * 64 + n.toNat * 8 + l.toNat))]

/-- The issue of a small-matrix instruction whose results, lane by lane, land together when it completes (06 R121). -/
def matrixwise (i : Instr) (s : State) (f : Warp → Nat → List (Tgt × DWord)) : Host.Outcome State Fault Refusal :=
  slot i s (needsShape i) fun c s =>
    let W := s.warp c.gang c.warp
    let vals := (c.issue.map fun l => f W l).flatten
    let o := { s.newWork c i [] [] with awaits := vals.map (·.1), vals := vals, mark := 2 }
    .ok (s.mapGang c.gang fun G => { G with accs := G.accs ++ [o] }).fresh

/-- SMALL_MATRIX_COMPLETE (06 R121). -/
def execSmallMatrixComplete (ctx acc : Nat) (s : State) : Host.Outcome State Fault Refusal :=
  match (s.gang ctx).accs.find? fun o => o.id == acc with
  | none => .next s
  | some o => if o.mark = 2 then .next (s.endWork o) else .next s

/-- The checked accesses of the elements of every lane of ISSUE, lane by lane (06 R125). -/
def State.matAccs (s : State) (c : Cur) (e : Nat) (k : Acc) (a b : BitVec 7) : Except Flt (List (List LaneAcc)) :=
  let W := s.warp c.gang c.warp
  c.issue.mapM fun l => (List.range (footprint W.ms)).mapM fun j =>
    let ref := W.get64 l a.toNat
    let o := (W.get l b.toNat).toNat + e * j
    (s.laneRow (s.gang c.gang).asid l ref o e k).map fun r =>
      ({ lane := l, tab := r.1, cells := r.2, row := refRow ref, va := r.1.va (refRow ref) o } : LaneAcc)

/-- MLD (06 R125): where an element of any lane meets a lost line, or one whose check fails, no register of any lane is written. -/
def execMld (f : BitVec 4) (d a b : BitVec 7) (s : State) : Host.Outcome State Fault Refusal :=
  slot (.mld f d a b) s (needsShape (.mld f d a b)) fun c s =>
    let W := s.warp c.gang c.warp
    let e := esize f.toNat
    match s.matAccs c e .read a b with
    | .error x => .error x
    | .ok rows =>
      let all := rows.flatten
      let t := s.meanwhile c.gang c.warp all
      let good := if all.any fun q => q.isBad s then [] else rows
      let off (q : LaneAcc) (j : Nat) : Nat := (W.get q.lane b.toNat).toNat + e * j
      let val (q : LaneAcc) (j : Nat) : Tgt × DWord :=
        W.put q.lane (d.toNat + j) ((loadConv f.toNat (leNat (s.elemBytes t q (off q j)))).setWidth 32)
      let args := (good.map fun r => r.take 1).flatten.map fun q =>
        ({ lane := q.lane, w := 0, d := 0, a := 0, b := 0, c := 0 } : Arg)
      let o := { s.newWork c (.mld f d a b) args ((pagesOf all).map (BitVec.ofNat 64)) with
        cells := (all.map fun q => q.cells).flatten,
        awaits := (rows.map fun r => r.mapIdx fun j q => W.loc q.lane (d.toNat + j)).flatten,
        vals := (good.map fun r => r.mapIdx fun j q => val q j).flatten,
        fault := badLane s all }
      .ok ((t.retireLines all).setOut c o all false)

/-- MST (06 R125): lanes in ascending order, elements in storage order. -/
def execMst (f : BitVec 4) (d a b : BitVec 7) (s : State) : Host.Outcome State Fault Refusal :=
  slot (.mst f d a b) s (needsShape (.mst f d a b)) fun c s =>
    let W := s.warp c.gang c.warp
    let e := esize f.toNat
    match s.matAccs c e .write a b with
    | .error x => .error x
    | .ok rows =>
      let all := rows.flatten
      match lostLane s all with
      | some x => .error x
      | none =>
        let s1 := s.startWrite c (.mst f d a b) all
        .ok (s1.storeElems c (rows.flatMap fun r => r.zipIdx.map fun q =>
          (q.1, (W.get q.1.lane b.toNat).toNat + e * q.2, leBytes e (storeConv f.toNat (W.data q.1.lane (d.toNat + q.2) f.toNat)))))

/-- MMOV (06 R126). -/
def execMmov (d a : BitVec 7) (s : State) : Host.Outcome State Fault Refusal :=
  matrixwise (.mmov d a) s fun W l => W.putMat l d.toNat (W.mat l a.toNat (footprint W.ms))

/-- MIDN (06 R126). -/
def execMidn (d : BitVec 7) (s : State) : Host.Outcome State Fault Refusal :=
  matrixwise (.midn d) s fun W l =>
    W.putMat l d.toNat ((storedCells (msLay W.ms) (msM W.ms) (msN W.ms)).map fun c => if c.1 = c.2 then 0x3F800000 else 0)

/-- MTRN (06 R126). -/
def execMtrn (d a : BitVec 7) (s : State) : Host.Outcome State Fault Refusal :=
  matrixwise (.mtrn d a) s fun W l =>
    let m := msM W.ms
    let n := msN W.ms
    let A := gridOf 0 m n (W.mat l a.toNat (m * n))
    W.putMat l d.toNat (gridRegs 0 n m (Grid.of n m fun i j => A.at j i))

/-- MADD (06 R127). -/
def execMadd (m : BitVec 4) (d a b : BitVec 7) (s : State) : Host.Outcome State Fault Refusal :=
  matrixwise (.madd m d a b) s fun W l =>
    let k := footprint W.ms
    let x := W.mat l a.toNat k
    let y := if m.toNat = 2 then List.replicate k (W.get l b.toNat).toNat else W.mat l b.toNat k
    W.putMat l d.toNat ((x.zip y).map fun p => match m.toNat with
      | 0 => Num.fadd .f32 .rne p.1 p.2
      | 1 => Num.fsub .f32 .rne p.1 p.2
      | _ => Num.fmul .f32 .rne p.1 p.2)

/-- MMUL (06 R128, 03 R70): `z` is `.tb`, `y` `.ta` and `x` `.acc`. -/
def mmulVal (m k n : Nat) (acc ta tb : Bool) (d a b : List Nat) : List Nat :=
  ((List.range m).map fun i => (List.range n).map fun j =>
    (List.range k).foldl (fun c t =>
      Num.ffma .f32 .rne (a.getD (if ta then t * m + i else i * k + t) 0) (b.getD (if tb then j * k + t else t * n + j) 0) c)
      (if acc then d.getD (i * n + j) 0 else 0)).flatten

/-- MMUL (06 R128). -/
def execMmul (z y x : BitVec 1) (d a b : BitVec 7) (s : State) : Host.Outcome State Fault Refusal :=
  matrixwise (.mmul z y x d a b) s fun W l =>
    let m := msM W.ms
    let k := msK W.ms
    let n := msN W.ms
    W.putMat l d.toNat (mmulVal m k n (x == 1) (y == 1) (z == 1) (W.mat l d.toNat (m * n)) (W.mat l a.toNat (m * k))
      (W.mat l b.toNat (k * n)))

/-- Whether an `f32` code is a NaN. -/
def nan32 (x : Nat) : Bool := (Num.value .f32 x).isNan

/-- The magnitude of an `f32` code. -/
def abs32 (x : Nat) : Nat := x % 2 ^ 31

/-- Whether |x| is below |y|: never where one is a NaN. -/
def lt32 (x y : Nat) : Bool := !nan32 x && !nan32 y && decide (abs32 x < abs32 y)

/-- The greatest magnitude of some elements, or the canonical NaN if one is a NaN (06 R129, R134). -/
def maxAbs (xs : List Nat) : Nat := if xs.any nan32 then 0x7FC00000 else xs.foldl (fun m x => max m (abs32 x)) 0

/-- The tolerance t (06 R129). -/
def tolerance (tau : Nat) (xs : List Nat) : Nat :=
  let u := if nan32 tau || 2 ^ 31 ≤ tau then 0 else tau
  Num.fmul .f32 .rne u (maxAbs xs)

/-- The class of a pivot (06 R129). -/
inductive Pivot where
  | notNumber
  | zero
  | negative
  | tiny
  | good
  deriving DecidableEq, Repr, Inhabited

/-- Classifies a pivot; only a Cholesky pivot can be in the class negative. -/
def classify (chol : Bool) (t p : Nat) : Pivot :=
  if nan32 p then .notNumber
  else if abs32 p = 0 then .zero
  else if chol && 2 ^ 31 ≤ p then .negative
  else if lt32 p t then .tiny
  else .good

/-- Whether a column is used. -/
def Pivot.used (k : Pivot) : Bool := k == .tiny || k == .good

/-- The status word (06 R129). -/
def statusWord (ks : List Pivot) : Nat :=
  let bad := ks.zipIdx.filter fun k => k.1 != .good
  bad.length * 16 + match bad with
    | [] => 0
    | k :: _ => k.2 + 1

/-- The flags of a factorisation (06 R129). -/
def pivotFlags (ks : List Pivot) : BitVec 4 :=
  nzcv (ks.contains .negative) (ks.contains .zero) (ks.all Pivot.used) (ks.contains .notNumber || ks.contains .tiny)

/-- The numbers from lo up to hi - 1. -/
def upTo (lo hi : Nat) : List Nat := (List.range (hi - lo)).map fun k => lo + k

/-- Column j of a Cholesky factorisation (06 R130). -/
def cholColumn (n t : Nat) (st : Grid × List Pivot) (j : Nat) : Grid × List Pivot :=
  let a := st.1
  let d := (List.range j).foldl (fun d k => Num.ffnma .f32 .rne (a.at j k) (a.at j k) d) (a.at j j)
  let k := classify true t d
  if k.used then
    let r := Num.fsqrt .f32 .rne d
    ((upTo (j + 1) n).foldl (fun a i =>
      let x := (List.range j).foldl (fun x k => Num.ffnma .f32 .rne (a.at i k) (a.at j k) x) (a.at i j)
      a.put i j (Num.fdiv .f32 .rne x r)) (a.put j j r), st.2 ++ [k])
  else ((upTo j n).foldl (fun a i => a.put i j 0) a, st.2 ++ [k])

/-- Cholesky factorisation of the lower triangle (06 R130). -/
def cholesky (n t : Nat) (a : Grid) : Grid × List Pivot := (List.range n).foldl (cholColumn n t) (a, [])

/-- Two rows exchanged. -/
def Grid.swap (a : Grid) (i j : Nat) : Grid := (a.set i (a.getD j [])).set j (a.getD i [])

/-- Column j of an LU factorisation with partial pivoting (06 R131). -/
def luColumn (n t : Nat) (st : Grid × List Pivot × List Nat) (j : Nat) : Grid × List Pivot × List Nat :=
  let p := (upTo (j + 1) n).foldl (fun p i => if lt32 (st.1.at p j) (st.1.at i j) then i else p) j
  let a := st.1.swap j p
  let u := a.at j j
  let k := classify false t u
  let b := if k.used then
      (upTo (j + 1) n).foldl (fun a i =>
        let m := Num.fdiv .f32 .rne (a.at i j) u
        (upTo (j + 1) n).foldl (fun a c => a.put i c (Num.ffnma .f32 .rne m (a.at j c) (a.at i c))) (a.put i j m)) a
    else (upTo (j + 1) n).foldl (fun a i => a.put i j 0) a
  (b, st.2.1 ++ [k], st.2.2 ++ [p])

/-- LU factorisation (06 R131): the factor, the pivots' classes and the rows swapped. -/
def luFactor (n t : Nat) (a : Grid) : Grid × List Pivot × List Nat := (List.range n).foldl (luColumn n t) (a, [], [])

/-- The pivot vector (06 R131). -/
def pivotVector (ps : List Nat) : Nat := (ps.mapIdx fun j p => p * 8 ^ j).foldl (· + ·) 0

/-- The row swaps of a pivot vector on right-hand sides (06 R132). -/
def applySwaps (n piv : Nat) (js : List Nat) (y : Grid) : Grid :=
  js.foldl (fun y j => let p := piv / 8 ^ j % 8; if n ≤ p then y else y.swap j p) y

/-- The triangle of a matrix with zeros outside it, or its transpose (06 R132). -/
def triangle (n : Nat) (up tr : Bool) (a : Grid) : Grid :=
  let e := Grid.of n n fun i j => if (if up then i ≤ j else j ≤ i) then a.at i j else 0
  if tr then Grid.of n n fun i j => e.at j i else e

/-- The solve of one triangular system for every column of Y (06 R132). -/
def triSolve (n cols : Nat) (lower unit : Bool) (e y : Grid) : Grid :=
  let order := if lower then List.range n else (List.range n).reverse
  (List.range cols).foldl (fun y c => order.foldl (fun y i =>
    let ks := if lower then List.range i else upTo (i + 1) n
    let x := ks.foldl (fun x k => Num.ffnma .f32 .rne (e.at i k) (y.at k c) x) (y.at i c)
    y.put i c (if unit then x else Num.fdiv .f32 .rne x (e.at i i))) y) y

/-- MTRS on working values (06 R132). E is lower triangular where the lower triangle is read as it stands or the upper one
transposed (DEDUCED, log 7). -/
def trsVal (n cols : Nat) (up unit tr : Bool) (piv : Option Nat) (a y : Grid) : Grid :=
  let js := List.range n
  let y1 := match piv with
    | some p => if tr then y else applySwaps n p js y
    | none => y
  let y2 := triSolve n cols (up == tr) unit (triangle n up tr a) y1
  match piv with
  | some p => if tr then applySwaps n p js.reverse y2 else y2
  | none => y2

/-- MCHOL (06 R130). -/
def execMchol (f : BitVec 2) (d a b : BitVec 7) (s : State) : Host.Outcome State Fault Refusal :=
  matrixwise (.mchol f d a b) s fun W l =>
    let n := msM W.ms
    let xs := W.mat l a.toNat (squareFoot W.ms)
    let r := cholesky n (tolerance ((W.s b.toNat).toNat % 2 ^ 32) xs) (gridOf 1 n n xs)
    W.putMat l a.toNat (gridRegs 1 n n r.1) ++ W.putMat l d.toNat [statusWord r.2] ++
      [(.flag l f.toNat, (pivotFlags r.2).setWidth 64)]

/-- MLUP (06 R131). -/
def execMlup (f : BitVec 2) (d a b : BitVec 7) (s : State) : Host.Outcome State Fault Refusal :=
  matrixwise (.mlup f d a b) s fun W l =>
    let n := msM W.ms
    let xs := W.mat l a.toNat (squareFoot W.ms)
    let r := luFactor n (tolerance ((W.s b.toNat).toNat % 2 ^ 32) xs) (gridOf 0 n n xs)
    W.putMat l a.toNat (gridRegs 0 n n r.1) ++ W.putMat l (d.toNat + 1) [pivotVector r.2.2] ++
      W.putMat l d.toNat [statusWord r.2.1] ++ [(.flag l f.toNat, (pivotFlags r.2.1).setWidth 64)]

/-- MTRS (06 R132): `p` is `.piv`, `t` `.t`, `u` `.unit` and `y` `.up`. -/
def execMtrs (p t u y : BitVec 1) (d a b : BitVec 7) (s : State) : Host.Outcome State Fault Refusal :=
  matrixwise (.mtrs p t u y d a b) s fun W l =>
    let n := msM W.ms
    let m := msN W.ms
    let A := gridOf (msLay W.ms) n n (W.mat l a.toNat (squareFoot W.ms))
    let Y := gridOf 0 n m (W.mat l d.toNat (n * m))
    let piv := if p = 1 then some (W.get l b.toNat).toNat else none
    W.putMat l d.toNat (gridRegs 0 n m (trsVal n m (y == 1) (u == 1) (t == 1) piv A Y))

/-- MSOLV (06 R133): `m` is `.lu`. Nothing but the status, the pivots and the flags is written where C is clear. -/
def execMsolv (m : BitVec 1) (f : BitVec 2) (d a b : BitVec 7) (s : State) : Host.Outcome State Fault Refusal :=
  matrixwise (.msolv m f d a b) s fun W l =>
    let n := msM W.ms
    let k := msN W.ms
    let lay := if m = 1 then 0 else 1
    let xs := W.mat l a.toNat (squareFoot W.ms)
    let t := tolerance ((W.s b.toNat).toNat % 2 ^ 32) xs
    let Y := gridOf 0 n k (W.mat l (d.toNat + 2) (n * k))
    let r : Grid × List Pivot × List Nat :=
      if m = 1 then luFactor n t (gridOf 0 n n xs)
      else ((cholesky n t (gridOf 1 n n xs)).1, (cholesky n t (gridOf 1 n n xs)).2, [])
    let X := if m = 1 then
        trsVal n k true false false none r.1 (trsVal n k false true false (some (pivotVector r.2.2)) r.1 Y)
      else trsVal n k false false true none r.1 (trsVal n k false false false none r.1 Y)
    (if r.2.1.all Pivot.used then
      W.putMat l a.toNat (gridRegs lay n n r.1) ++ W.putMat l (d.toNat + 2) (gridRegs 0 n k X)
    else []) ++ W.putMat l (d.toNat + 1) [pivotVector r.2.2] ++ W.putMat l d.toNat [statusWord r.2.1] ++
      [(.flag l f.toNat, (pivotFlags r.2.1).setWidth 64)]

/-- MRED (06 R134). -/
def execMred (m : BitVec 4) (d a : BitVec 7) (s : State) : Host.Outcome State Fault Refusal :=
  matrixwise (.mred m d a) s fun W l =>
    let xs := W.mat l a.toNat (footprint W.ms)
    let A := gridOf (msLay W.ms) (msM W.ms) (msN W.ms) xs
    W.putMat l d.toNat [match m.toNat with
      | 0 => (upTo 1 (msM W.ms)).foldl (fun acc i => Num.fadd .f32 .rne acc (A.at i i)) (A.at 0 0)
      | 1 => maxAbs xs
      | _ => xs.foldl (fun acc x => Num.ffma .f32 .rne x x acc) 0]

end Sys2Proof.Machine
end

