-- ==== Sys2Proof/Machine/Dispatch.lean ====
section
/-! DEFINITION. The dispatch: one direct call of a meaning for every constructor of Instr. -/

namespace Sys2Proof.Machine

def exec (i : Instr) (s : State) : Host.Outcome State Fault Refusal :=
  match i with
  | .nop => Sys2Proof.Machine.execNop s
  | .iadd u t d a b => Sys2Proof.Machine.execIadd u t d a b s
  | .isub u t d a b => Sys2Proof.Machine.execIsub u t d a b s
  | .iaddc u t d a b => Sys2Proof.Machine.execIaddc u t d a b s
  | .imul u t d a b => Sys2Proof.Machine.execImul u t d a b s
  | .imulh u t d a b => Sys2Proof.Machine.execImulh u t d a b s
  | .imad u t d a b => Sys2Proof.Machine.execImad u t d a b s
  | .imin u t d a b => Sys2Proof.Machine.execImin u t d a b s
  | .imax u t d a b => Sys2Proof.Machine.execImax u t d a b s
  | .iabs t d a => Sys2Proof.Machine.execIabs t d a s
  | .icmp u t f a b => Sys2Proof.Machine.execIcmp u t f a b s
  | .andR u t d a b => Sys2Proof.Machine.execAndR u t d a b s
  | .orR u t d a b => Sys2Proof.Machine.execOrR u t d a b s
  | .xorR u t d a b => Sys2Proof.Machine.execXorR u t d a b s
  | .andnR u t d a b => Sys2Proof.Machine.execAndnR u t d a b s
  | .shl u t d a b => Sys2Proof.Machine.execShl u t d a b s
  | .shr u t d a b => Sys2Proof.Machine.execShr u t d a b s
  | .sar u t d a b => Sys2Proof.Machine.execSar u t d a b s
  | .rot u t d a b => Sys2Proof.Machine.execRot u t d a b s
  | .popc t d a => Sys2Proof.Machine.execPopc t d a s
  | .clz t d a => Sys2Proof.Machine.execClz t d a s
  | .brev t d a => Sys2Proof.Machine.execBrev t d a s
  | .bfx u t d a b => Sys2Proof.Machine.execBfx u t d a b s
  | .bfi u t d a b => Sys2Proof.Machine.execBfi u t d a b s
  | .iaddi t i1 d a => Sys2Proof.Machine.execIaddi t i1 d a s
  | .andi t i1 d a => Sys2Proof.Machine.execAndi t i1 d a s
  | .ori t i1 d a => Sys2Proof.Machine.execOri t i1 d a s
  | .xori t i1 d a => Sys2Proof.Machine.execXori t i1 d a s
  | .shli t i1 d a => Sys2Proof.Machine.execShli t i1 d a s
  | .shri t i1 d a => Sys2Proof.Machine.execShri t i1 d a s
  | .sari t i1 d a => Sys2Proof.Machine.execSari t i1 d a s
  | .icmpi t i1 f a => Sys2Proof.Machine.execIcmpi t i1 f a s
  | .movi s1 i1 d => Sys2Proof.Machine.execMovi s1 i1 d s
  | .mov x y d a => Sys2Proof.Machine.execMov x y d a s
  | .sel u f d a b => Sys2Proof.Machine.execSel u f d a b s
  | .srd n d => Sys2Proof.Machine.execSrd n d s
  | .srdCyc d => Sys2Proof.Machine.execSrdCyc d s
  | .swr n a => Sys2Proof.Machine.execSwr n a s
  | .swrWstat a => Sys2Proof.Machine.execSwrWstat a s
  | .swrSlim a => Sys2Proof.Machine.execSwrSlim a s
  | .swrTrappc a => Sys2Proof.Machine.execSwrTrappc a s
  | .v2s m d a => Sys2Proof.Machine.execV2s m d a s
  | .salu m d a b => Sys2Proof.Machine.execSalu m d a b s
  | .smovi k i1 d => Sys2Proof.Machine.execSmovi k i1 d s
  | .regsWbase i1 => Sys2Proof.Machine.execRegsWbase i1 s
  | .regsXacq i1 => Sys2Proof.Machine.execRegsXacq i1 s
  | .regsXacqGrant core => Sys2Proof.Machine.execRegsXacqGrant core s
  | .regsXrel i1 => Sys2Proof.Machine.execRegsXrel i1 s
  | .regsXqry d => Sys2Proof.Machine.execRegsXqry d s
  | .cpl g d a b o c x => Sys2Proof.Machine.execCpl g d a b o c x s
  | .cplComplete ctx op => Sys2Proof.Machine.execCplComplete ctx op s
  | .cpb m d a o x => Sys2Proof.Machine.execCpb m d a o x s
  | .cpbComplete ctx op => Sys2Proof.Machine.execCpbComplete ctx op s
  | .waitc c n => Sys2Proof.Machine.execWaitc c n s
  | .qpop q w d => Sys2Proof.Machine.execQpop q w d s
  | .qpush q w a => Sys2Proof.Machine.execQpush q w a s
  | .spldLoad a => Sys2Proof.Machine.execSpldLoad a s
  | .spldStop => Sys2Proof.Machine.execSpldStop s
  | .spldQry d => Sys2Proof.Machine.execSpldQry d s
  | .streamOperation ctx => Sys2Proof.Machine.execStreamOperation ctx s
  | .dfence a => Sys2Proof.Machine.execDfence a s
  | .dfenceComplete ctx op => Sys2Proof.Machine.execDfenceComplete ctx op s
  | .fadd t r d a b => Sys2Proof.Machine.execFadd t r d a b s
  | .fsub t r d a b => Sys2Proof.Machine.execFsub t r d a b s
  | .fmul t r d a b => Sys2Proof.Machine.execFmul t r d a b s
  | .ffma t r d a b => Sys2Proof.Machine.execFfma t r d a b s
  | .fmin t n d a b => Sys2Proof.Machine.execFmin t n d a b s
  | .fmax t n d a b => Sys2Proof.Machine.execFmax t n d a b s
  | .fcmp t f a b => Sys2Proof.Machine.execFcmp t f a b s
  | .fmod t o d a b => Sys2Proof.Machine.execFmod t o d a b s
  | .frint t r d a => Sys2Proof.Machine.execFrint t r d a s
  | .f2i t r d a k => Sys2Proof.Machine.execF2i t r d a k s
  | .i2f t r d a k => Sys2Proof.Machine.execI2f t r d a k s
  | .fcvt v d a r s1 p => Sys2Proof.Machine.execFcvt v d a r s1 p s
  | .sfu t m d a f => Sys2Proof.Machine.execSfu t m d a f s
  | .welf t r d a => Sys2Proof.Machine.execWelf t r d a s
  | .wmrg t r d a => Sys2Proof.Machine.execWmrg t r d a s
  | .fence l o s1 => Sys2Proof.Machine.execFence l o s1 s
  | .shfl m d a b => Sys2Proof.Machine.execShfl m d a b s
  | .shfli m g d a => Sys2Proof.Machine.execShfli m g d a s
  | .shpush c n d a b => Sys2Proof.Machine.execShpush c n d a b s
  | .vote f k d a b => Sys2Proof.Machine.execVote f k d a b s
  | .lred o t d a b => Sys2Proof.Machine.execLred o t d a b s
  | .lscan o t d a b => Sys2Proof.Machine.execLscan o t d a b s
  | .amo m d a b sc ord o x => Sys2Proof.Machine.execAmo m d a b sc ord o x s
  | .cas m d a b sc ord f x => Sys2Proof.Machine.execCas m d a b sc ord f x s
  | .mset m k n l => Sys2Proof.Machine.execMset m k n l s
  | .mld f d a b => Sys2Proof.Machine.execMld f d a b s
  | .mst f d a b => Sys2Proof.Machine.execMst f d a b s
  | .mmov d a => Sys2Proof.Machine.execMmov d a s
  | .midn d => Sys2Proof.Machine.execMidn d s
  | .mtrn d a => Sys2Proof.Machine.execMtrn d a s
  | .madd m d a b => Sys2Proof.Machine.execMadd m d a b s
  | .mmul x y z d a b => Sys2Proof.Machine.execMmul x y z d a b s
  | .mchol f d a b => Sys2Proof.Machine.execMchol f d a b s
  | .mlup f d a b => Sys2Proof.Machine.execMlup f d a b s
  | .mtrs p t u y d a b => Sys2Proof.Machine.execMtrs p t u y d a b s
  | .msolv m f d a b => Sys2Proof.Machine.execMsolv m f d a b s
  | .mred m d a => Sys2Proof.Machine.execMred m d a s
  | .smallMatrixComplete ctx acc => Sys2Proof.Machine.execSmallMatrixComplete ctx acc s
  | .xmma m a b o c x => Sys2Proof.Machine.execXmma m a b o c x s
  | .xmmaComplete ctx op => Sys2Proof.Machine.execXmmaComplete ctx op s
  | .xaccZero a => Sys2Proof.Machine.execXaccZero a s
  | .xaccRd d a b => Sys2Proof.Machine.execXaccRd d a b s
  | .xaccWr d a b => Sys2Proof.Machine.execXaccWr d a b s
  | .xaccTile d a => Sys2Proof.Machine.execXaccTile d a s
  | .xaccTileComplete ctx op => Sys2Proof.Machine.execXaccTileComplete ctx op s
  | .tgath d a b sc ord o c x => Sys2Proof.Machine.execTgath d a b sc ord o c x s
  | .tgathComplete ctx op => Sys2Proof.Machine.execTgathComplete ctx op s
  | .engineSideFault ctx op => Sys2Proof.Machine.execEngineSideFault ctx op s
  | .bra s1 o => Sys2Proof.Machine.execBra s1 o s
  | .call s1 o => Sys2Proof.Machine.execCall s1 o s
  | .ret => Sys2Proof.Machine.execRet s
  | .jmpr a => Sys2Proof.Machine.execJmpr a s
  | .rejoin b x => Sys2Proof.Machine.execRejoin b x s
  | .fspawn d a x => Sys2Proof.Machine.execFspawn d a x s
  | .fend => Sys2Proof.Machine.execFend s
  | .exit => Sys2Proof.Machine.execExit s
  | .fenter n => Sys2Proof.Machine.execFenter n s
  | .fleave n => Sys2Proof.Machine.execFleave n s
  | .bar k i1 => Sys2Proof.Machine.execBar k i1 s
  | .mwaitWatch a b => Sys2Proof.Machine.execMwaitWatch a b s
  | .mwaitWait d a => Sys2Proof.Machine.execMwaitWait d a s
  | .monitorFire ctx warp lane => Sys2Proof.Machine.execMonitorFire ctx warp lane s
  | .mwaitTimeout ctx warp lane => Sys2Proof.Machine.execMwaitTimeout ctx warp lane s
  | .yield => Sys2Proof.Machine.execYield s
  | .yieldExpiry ctx warp lane => Sys2Proof.Machine.execYieldExpiry ctx warp lane s
  | .trap n => Sys2Proof.Machine.execTrap n s
  | .rett => Sys2Proof.Machine.execRett s
  | .lnch d a sc ord c => Sys2Proof.Machine.execLnch d a sc ord c s
  | .ldl f d a b => Sys2Proof.Machine.execLdl f d a b s
  | .stl f d a b => Sys2Proof.Machine.execStl f d a b s
  | .ldf f d a b => Sys2Proof.Machine.execLdf f d a b s
  | .stf f d a b => Sys2Proof.Machine.execStf f d a b s
  | .ldr f d a b => Sys2Proof.Machine.execLdr f d a b s
  | .str f d a b => Sys2Proof.Machine.execStr f d a b s
  | .ldk f d a sc ord o c x => Sys2Proof.Machine.execLdk f d a sc ord o c x s
  | .stk f d a sc ord o c x => Sys2Proof.Machine.execStk f d a sc ord o c x s
  | .ldri f i1 d a => Sys2Proof.Machine.execLdri f i1 d a s
  | .stri f i1 d a => Sys2Proof.Machine.execStri f i1 d a s
  | .ldli f i1 d a => Sys2Proof.Machine.execLdli f i1 d a s
  | .stli f i1 d a => Sys2Proof.Machine.execStli f i1 d a s
  | .rowAccessComplete ctx acc => Sys2Proof.Machine.execRowAccessComplete ctx acc s
  | .frmLd n k d => Sys2Proof.Machine.execFrmLd n k d s
  | .frmSt n k a => Sys2Proof.Machine.execFrmSt n k a s
  | .tileDef d a => Sys2Proof.Machine.execTileDef d a s
  | .tileQry d a => Sys2Proof.Machine.execTileQry d a s
  | .tileSet s1 a => Sys2Proof.Machine.execTileSet s1 a s
  | .tileFree a => Sys2Proof.Machine.execTileFree a s
  | .tget d a sc ord o c => Sys2Proof.Machine.execTget d a sc ord o c s
  | .tins m d a b sc ord o c x => Sys2Proof.Machine.execTins m d a b sc ord o c x s
  | .tdel d a sc ord o c => Sys2Proof.Machine.execTdel d a sc ord o c s
  | .tupdVal d a b sc ord o c x => Sys2Proof.Machine.execTupdVal d a b sc ord o c x s
  | .tupdFmt d a b sc ord o c => Sys2Proof.Machine.execTupdFmt d a b sc ord o c s
  | .indexEngineOperation op => Sys2Proof.Machine.execIndexEngineOperation op s
  | .tseek v m d a sc ord o c => Sys2Proof.Machine.execTseek v m d a sc ord o c s
  | .tcurStep d a b => Sys2Proof.Machine.execTcurStep d a b s
  | .tcurClose a => Sys2Proof.Machine.execTcurClose a s
  | .tcurKey d a => Sys2Proof.Machine.execTcurKey d a s
  | .rcall d a sc ord c m => Sys2Proof.Machine.execRcall d a sc ord c m s
  | .logAppend req => Sys2Proof.Machine.execLogAppend req s
  | .replayApply asid slot die => Sys2Proof.Machine.execReplayApply asid slot die s
  | .rreadRead d a b sc ord c m => Sys2Proof.Machine.execRreadRead d a b sc ord c m s
  | .rreadWait d b sc ord c => Sys2Proof.Machine.execRreadWait d b sc ord c s
  | .rreadStat d sc ord c => Sys2Proof.Machine.execRreadStat d sc ord c s
  | .rreadReturn req => Sys2Proof.Machine.execRreadReturn req s
  | .syncIsync => Sys2Proof.Machine.execSyncIsync s
  | .syncIcinv a b => Sys2Proof.Machine.execSyncIcinv a b s
  | .syncDcwb a b => Sys2Proof.Machine.execSyncDcwb a b s
  | .syncDcinv a b => Sys2Proof.Machine.execSyncDcinv a b s
  | .rep c s1 t => Sys2Proof.Machine.execRep c s1 t s
  | .priorityStandingRaise ctx warp => Sys2Proof.Machine.execPriorityStandingRaise ctx warp s
  | .warpRetire ctx warp => Sys2Proof.Machine.execWarpRetire ctx warp s
  | .doneIncrement queue idx => Sys2Proof.Machine.execDoneIncrement queue idx s
  | .trapEntry ctx warp => Sys2Proof.Machine.execTrapEntry ctx warp s
  | .queuePoll queue => Sys2Proof.Machine.execQueuePoll queue s
  | .gangPlacement ctx => Sys2Proof.Machine.execGangPlacement ctx s
  | .preemption ctx => Sys2Proof.Machine.execPreemption ctx s
  | .preemptionSave ctx => Sys2Proof.Machine.execPreemptionSave ctx s
  | .drainTimeout ctx => Sys2Proof.Machine.execDrainTimeout ctx s
  | .cmdDirSet => Sys2Proof.Machine.execCmdDirSet s
  | .cmdDirClr => Sys2Proof.Machine.execCmdDirClr s
  | .cmdObjSet => Sys2Proof.Machine.execCmdObjSet s
  | .cmdObjClr => Sys2Proof.Machine.execCmdObjClr s
  | .cmdXlatInv => Sys2Proof.Machine.execCmdXlatInv s
  | .cmdQueueSet => Sys2Proof.Machine.execCmdQueueSet s
  | .cmdQueueClr => Sys2Proof.Machine.execCmdQueueClr s
  | .cmdRegionHalt => Sys2Proof.Machine.execCmdRegionHalt s
  | .cmdContainClr => Sys2Proof.Machine.execCmdContainClr s
  | .cmdLineClr => Sys2Proof.Machine.execCmdLineClr s
  | .cmdReserved => Sys2Proof.Machine.execCmdReserved s
  | .ident => Sys2Proof.Machine.execIdent s
  | .attest nonce => Sys2Proof.Machine.execAttest nonce s
  | .resync => Sys2Proof.Machine.execResync s
  | .keySet slot wrapped => Sys2Proof.Machine.execKeySet slot wrapped s
  | .keyClr slot => Sys2Proof.Machine.execKeyClr slot s
  | .peerMap window device => Sys2Proof.Machine.execPeerMap window device s
  | .fwLoad image signature => Sys2Proof.Machine.execFwLoad image signature s
  | .deviceReset => Sys2Proof.Machine.execDeviceReset s
  | .hostWrite pa bytes => Sys2Proof.Machine.execHostWrite pa bytes s
  | .hostRead pa len => Sys2Proof.Machine.execHostRead pa len s
  | .heatCodeWrite die col temp => Sys2Proof.Machine.execHeatCodeWrite die col temp s
  | .spareSwap part => Sys2Proof.Machine.execSpareSwap part s
  | .patrolScrub line found => Sys2Proof.Machine.execPatrolScrub line found s
  | .bankFreeze bank => Sys2Proof.Machine.execBankFreeze bank s
  | .freezeComplete bank => Sys2Proof.Machine.execFreezeComplete bank s
  | .thawComplete bank => Sys2Proof.Machine.execThawComplete bank s
  | .coherenceAckTimeout agent => Sys2Proof.Machine.execCoherenceAckTimeout agent s
  | .linkDead link => Sys2Proof.Machine.execLinkDead link s
  | .dieWatchdog agent => Sys2Proof.Machine.execDieWatchdog agent s
  | .pageWalkComplete asid page => Sys2Proof.Machine.execPageWalkComplete asid page s
  | .regionMerge base => Sys2Proof.Machine.execRegionMerge base s
  | .dramAccessArrival req => Sys2Proof.Machine.execDramAccessArrival req s
  | .dramServiceComplete req => Sys2Proof.Machine.execDramServiceComplete req s
  | .refreshDue pch => Sys2Proof.Machine.execRefreshDue pch s
  | .refreshComplete pch => Sys2Proof.Machine.execRefreshComplete pch s
  | .idleRepay pch => Sys2Proof.Machine.execIdleRepay pch s
  | .selfRefreshEntry pch => Sys2Proof.Machine.execSelfRefreshEntry pch s
  | .selfRefreshExitComplete pch => Sys2Proof.Machine.execSelfRefreshExitComplete pch s
  | .pageReencryptionComplete page => Sys2Proof.Machine.execPageReencryptionComplete page s
  | .keyRotation slot => Sys2Proof.Machine.execKeyRotation slot s
  | .keySweepComplete slot => Sys2Proof.Machine.execKeySweepComplete slot s
  | .streamFetchComplete ctx => Sys2Proof.Machine.execStreamFetchComplete ctx s
  | .syncComplete ctx warp sync => Sys2Proof.Machine.execSyncComplete ctx warp sync s
  | .fenceComplete ctx warp fence => Sys2Proof.Machine.execFenceComplete ctx warp fence s
  | .spareSwapComplete part => Sys2Proof.Machine.execSpareSwapComplete part s
  | .linkRetrainComplete link => Sys2Proof.Machine.execLinkRetrainComplete link s
  | .cxlCacheSnoop line snoop => Sys2Proof.Machine.execCxlCacheSnoop line snoop s
  | .remoteDeviceAccess device pa access => Sys2Proof.Machine.execRemoteDeviceAccess device pa access s
  | .logMirrorCopyComplete asid slot => Sys2Proof.Machine.execLogMirrorCopyComplete asid slot s

end Sys2Proof.Machine
end

