-- ==== Sys2Proof/Machine/Cycle.lean ====
section
/-! DEFINITION. One cycle of a core: what lands, what expires, which warp issues and which of its sets (04 R74 to R86, R397;
08 R180 to R182; 22 R362); what the control plane and the front-ends wait for (DEDUCED, log 86); and the turns of the agents that no row of
the opcode table stands for (DESIGN CHOICE, log 1). -/

namespace Sys2Proof.Machine

/-- The scope at which an instruction, once it has issued, makes the stores that its warp sees visible: a release's own (16 R284), the device's
for LNCH `.rel` at `.dev` or `.sys` (22 R368) and for `sync.icinv` (08 R186), and every agent's where an engine follows the warp's accesses
(16 R293; DESIGN CHOICE, log 5). The other instructions order nothing (25 R390); a barrier does once it is complete. -/
def releaseScope (i : Instr) : Option Nat :=
  let rel (sc : BitVec 3) (ord : BitVec 2) : Option Nat := if 2 ≤ ord.toNat && 2 ≤ sc.toNat then some sc.toNat else none
  match i with
  | .fence _ ord sc => rel sc ord
  | .amo _ _ _ _ sc ord .. | .cas _ _ _ _ sc ord .. | .stk _ _ _ sc ord .. | .tins _ _ _ _ sc ord .. | .tdel _ _ sc ord ..
  | .tupdVal _ _ _ sc ord .. | .tupdFmt _ _ _ sc ord .. => rel sc ord
  | .lnch _ _ sc ord _ => if 6 ≤ sc.toNat then rel sc ord else none
  | .tileSet v _ => if v = 1 then some 3 else none
  | .syncIcinv .. => some 6
  | .cpl .. | .cpb .. | .xmma .. | .xaccTile .. | .tgath .. | .dfence .. | .spldLoad .. => some 7
  | _ => none

/-- One set issues: its quad is fetched, and its instruction, or the fault that it meets in fetching or decoding, takes its
place in `cur`. The REP word is evaluated in the issue of repeat 0 (08 R182). An instruction that has had its effect, in some lane, releases
what its warp sees; one that faults has no effect (01 R21, R34). -/
def State.issueSet (s : State) (p : Plan) : State :=
  let c := p.cur
  let s0 := s.noteFetch (s.coreOf c.gang c.warp) (s.gang c.gang).asid (quadOf c.pc)
  match p.what with
  | .error f => { s0.faulted c f with cur := none }
  | .ok i =>
    match exec i { s0 with cur := some c } with
    | .next t =>
      let u := { t with cur := none }
      if c.issue.isEmpty || ((t.warp c.gang c.warp).cause.filter (·.atIssue)).isSome then u
      else match releaseScope i with
        | some sc => u.release c.gang c.warp sc
        | none => u
    | _ => s0

/-- The cause of a fault at issue that a warp has met. -/
def State.issueCause (s : State) (g w : Nat) : Option Cause := (s.warp g w).cause.filter (·.atIssue)

/-- The state before a cycle's issues with the fault of the second set alone: its cause, and the progress of its REP
(04 R397; 08 R183). -/
def State.onlySecond (s t : State) (p : Plan) : State :=
  let V := t.warp p.cur.gang p.cur.warp
  s.mapWarp p.cur.gang p.cur.warp fun W =>
    { W.mapLanes p.cur.set (fun l L => L.mapFib fun f => { f with rep := (V.lane l).fib.rep }) with cause := V.cause }

/-- Whether a target is shared by the fibres of a warp (02 R43). -/
def Tgt.shared : Tgt → Bool
  | .sreg _ | .ms | .sbchk | .slim | .gmiss | .trapc | .trappc | .cych => true
  | _ => false

/-- Of two writes that two sets of one cycle make to one s-register, per-warp status register or ms, the later set's value
remains (02 R43): where the earlier set's would land after it, it lands with it and gives way (DEDUCED, log 50). `n` results were
pending before the cycle's issues, and `m` before the second set's; `ts` are the registers that outstanding work of the second set will
write, for which the first set's results give way altogether. -/
def Warp.yieldShared (W : Warp) (n m : Nat) (ts : List Tgt) : Warp :=
  { W with pend := W.pend.mapIdx fun k p =>
      if n ≤ k && k < m && p.tgt.shared then
        if ts.contains p.tgt then { p with tgt := .nowhere }
        else match (W.pend.drop m).find? fun q => q.tgt == p.tgt && decide (q.due < p.due) with
          | some q => { p with due := q.due }
          | none => p
      else p }

/-- The registers that outstanding work of a warp with numbers from `n` on will write. -/
def State.awaitedFrom (s : State) (g w n : Nat) : List Tgt :=
  (((s.gang g).ops ++ (s.gang g).accs ++ s.idx ++ s.calls).filter fun o => o.ctx == g && o.warp == w && decide (n ≤ o.id)).flatMap (·.awaits)

/-- The two sets' writes of shared registers, once both have issued (02 R43; DEDUCED, log 50): `s` is the machine before the issues and `t`
between them. -/
def State.yieldShared (v : State) (g w : Nat) (s t : State) : State :=
  let n := (s.warp g w).pend.length
  let m := (t.warp g w).pend.length
  let ts := v.awaitedFrom g w t.nextId
  let later := ts ++ ((v.warp g w).pend.drop m).map (·.tgt)
  (v.giveWay g w (fun o => decide (s.nextId ≤ o.id) && decide (o.id < t.nextId)) fun x => x.shared && later.contains x).mapWarp g w
    fun W => W.yieldShared n m ts

/-- The second set's issue with XALLOC and WSTAT as they stood before the first set's (02 R43). Where the first set is a regs.xrel, the
second's window checks, and what a regs.xqry of it reads, are of A and X as that left them: the spec does not say which (DESIGN CHOICE, log
50). -/
def Plan.withBefore (p : Plan) (s : State) : Plan :=
  let c := p.cur
  { p with cur := { c with before := some (s.status c.gang c.warp 0 0x0E, s.status c.gang c.warp 0 0x0B) } }

/-- Whether a set that was ready before its cycle's issues waits after the first port's issue (04 R74). -/
def State.lostReady (s : State) (p : Plan) : Bool :=
  match p.what with
  | .error _ => false
  | .ok i => !p.cur.issue.isEmpty && i.check.isNone && s.entryWait i p.cur

/-- The sets that a warp has chosen issue (04 R77, R397). Where two are chosen and a slot faults, neither takes effect, and ages
stay. A second set that the first's effect makes wait does not issue, and ages as such, until its age brings it forward: then it issues
alone (04 R78; DESIGN CHOICE, log 72). -/
def State.issueSets (s : State) (g w : Nat) (chosen ready : List Plan) : State :=
  let aged (t : State) (ps : List Plan) : State :=
    if (s.warp g w).serial then t else t.mapWarp g w fun W => W.agesAfter ps ready
  match chosen with
  | [] => s
  | [p] => aged (s.issueSet p) [p]
  | p :: q :: _ =>
    let t := s.issueSet p
    if (t.issueCause g w).isSome then t
    else if t.lostReady q then if 256 - ready.length ≤ q.age then aged (s.issueSet q) [q] else aged t [p]
    else
      let u := t.issueSet (q.withBefore s)
      if (u.issueCause g w).isSome then s.onlySecond u q
      else aged (u.yieldShared g w s t) [p, q]

/-- What has come due on a core at its present cycle lands, and lanes parked at MWAIT `.wait` go on whose monitor has fired or is
lost or whose bound has passed (04 R80, 08 R180). -/
def State.landCore (s : State) (core : Nat) : State :=
  let t := (s.coreSt core).cycle
  (s.onCore core).foldl (fun u p =>
    let v := u.mapWarp p.1 p.2 fun W => W.land t
    laneIds.foldl (fun x l => x.mwaitWake p.1 p.2 l) v) s

/-- What a set that may issue makes its core fetch (20 R328; 24 R386): its quad, the program that an SPLD `.load` waits for, and the rows
that a LNCH does. -/
def State.wantSet (s : State) (p : Plan) : State :=
  let c := p.cur
  let t := s.wantQuad c.core (s.gang c.gang).asid (quadOf c.pc)
  match p.what with
  | .ok (.spldLoad a) =>
    match s.programAt c a with
    | some tab => if !c.issue.isEmpty && t.spansHeld tab.program then t.wakeSpans tab.program else t
    | none => t
  | .ok (.lnch _ _ _ _ r) =>
    let xs := t.launchSpans (((s.warp c.gang c.warp).s r.toNat).setWidth 32)
    if !c.issue.isEmpty && t.spansHeld xs then t.wakeSpans xs else t
  | _ => t

/-- What the sets of a warp that may issue make its core fetch. -/
def State.wantSets (s : State) (g w : Nat) : State :=
  if s.canIssue g w then ((s.warp g w).keys.map fun k => s.plan g w k).foldl State.wantSet s else s

/-- Fibres that reach a REP word under way are held, faults that engines have found are charged, and code is fetched, before a core's warps
issue (08 R182, 10 R212, 20 R328). -/
def State.prepare (s : State) (core : Nat) : State :=
  (s.onCore core).foldl (fun u p =>
    if u.canIssue p.1 p.2 then ((u.holdReps p.1 p.2).chargePending p.1 p.2).wantSets p.1 p.2 else u) s

/-- The counts of consecutive cycles as a candidate, the standings that they raise, and the last issue of the warp that issues, whose
standing is its PRIO again (22 R362). -/
def State.countStanding (s : State) (core : Nat) (cands : List (Nat × Nat)) (chosen : Option (Nat × Nat)) : State :=
  let t := (s.coreSt core).cycle
  (s.onCore core).foldl (fun u p =>
    u.mapWarp p.1 p.2 fun W =>
      if chosen = some p then { W with candidate := 0, raised := false, lastIssue := t + 1 }
      else if cands.contains p then { W with candidate := W.candidate + 1, raised := W.raised || decide (1024 ≤ W.candidate + 1) }
      else { W with candidate := 0 }) s

/-- The length of a core's cycle: at 1.1 GHz while its column's heat code is 15, at 1.4 GHz else (00 R4), in units of which a controller's
cycle has 11 (log 6). -/
def State.period (s : State) (core : Nat) : Nat := if s.heatOf (core / 288) (core / 16 % 18) = 15 then 14 else 11

/-- One cycle of a core (22 R362): at most one warp issues, and the cycle count advances (04 R86). The request queue for blocks is
examined as fibres have changed their state (09 R191, R192). -/
def State.coreCycle (s : State) (core : Nat) : State :=
  let s1 := ((s.landCore core).examine core).prepare core
  let cs := s1.candidates core
  let first := s1.firstWarp (cs.map (·.1))
  let s2 := match first with
    | none => s1
    | some p =>
      let ready := (cs.lookup p).getD []
      s1.issueSets p.1 p.2 (choose ready) ready
  let s3 := s2.countStanding core (cs.map (·.1)) first
  let s4 := s3.examine core
  let k := s4.coreSt core
  s4.setCore { k with cycle := (k.cycle + 1) % 2 ^ 64, edge := k.edge + s4.period core }

/-- Whether rated reads have come back to a core and are still to be written (20 R338). -/
def State.rateDue (s : State) (core : Nat) : Bool :=
  (s.onCore core).any fun p => (s.gang p.1).accs.any fun o =>
    o.warp == p.2 && o.rated && !(s.dram.any fun r => r.ctx == p.1 && r.acc == some o.id)

/-- Whether a core's clock has its next edge: those of the controllers at the same time or before have been made, no other core's stands
further back, and what rated reads bring at this edge has been written. While the core runs at 1.4 GHz its edges coincide with the
controllers' (00 R4, 20 R338; DESIGN CHOICE, log 6). -/
def State.coreTicks (s : State) (core : Nat) : Bool :=
  let e := (s.coreSt core).edge
  (s.cores.all fun c => decide (e ≤ c.edge)) && (s.pchans.all fun c => decide (e < c.edge)) &&
    (s.dram.all fun r => decide (e < (s.pchan r.pch).edge)) && !s.rateDue core

/-- A cycle of a queue front-end (22 R356). -/
def State.frontCycle (s : State) (q : Nat) : State := s.mapQueue q fun (e : Queue) => { e with wait := e.wait - 1 }

/-- An instruction cache drops a quad (24 R379, 08 R185). -/
def State.dropQuad (s : State) (core asid quad : Nat) : State :=
  { s with icache := s.icache.filter fun l => !(l.core == core && l.asid == asid && l.quad == quad) }

/-- Whether an event performs the command of a code (24 R382). -/
def performs (i : Instr) (code : Nat) : Bool :=
  match i with
  | .cmdDirSet => code == 1
  | .cmdDirClr => code == 2
  | .cmdObjSet => code == 3
  | .cmdObjClr => code == 4
  | .cmdXlatInv => code == 5
  | .cmdQueueSet => code == 6
  | .cmdQueueClr => code == 7
  | .cmdRegionHalt => code == 8
  | .cmdContainClr => code == 9
  | .cmdLineClr => code == 10
  | .cmdReserved => code == 0 || decide (0x0B ≤ code)
  | _ => false

/-- Bytes of code as a span, of a table of their own. -/
def codeSpan (asid va n : Nat) : Span :=
  { tab := { (default : Table) with asid := asid, desc := { (default : Desc) with rowbase := va } }, row := 0, off := 0, len := n, view := 0,
    write := false }

/-- The rows that the record of an OBJ.SET names: the OBJECT record, and the code of its methods (07 R155, 24 R382). -/
def State.objectRows (s : State) (c : Cmd) : List Span :=
  let hd := (s.runRead c.arg1 8).getD []
  let n := lef hd 1 1
  let bs := (s.runRead c.arg1 (8 + 8 * n + lef hd 4 4)).getD []
  s.spansOf 0 c.arg1 1 0 (8 + 8 * n + lef hd 4 4) 0 false ++ (List.range n).filterMap fun k =>
    let w := lef bs (8 + 8 * k + 4) 4
    if w / 2 ^ 16 = 0 then none
    else some (codeSpan c.asid ((c.arg2.setWidth 32 + BitVec.ofNat 32 (lef bs (8 + 8 * k) 4)).toNat) (16 * (w / 2 ^ 16)))

/-- The rows that a command's arguments name, and its DONE word (24 R382). -/
def State.commandRows (s : State) (c : Cmd) : List Span :=
  (if c.done = 0 then [] else s.spansOf 0 c.done 1 0 8 0 false) ++ match c.code with
  | 1 | 6 => s.spansOf 0 c.arg1 1 0 64 0 false
  | 3 => s.objectRows c
  | 7 => ((s.queue? c.arg0).map fun e => s.spansOf 0 e.desc 1 0 64 0 false).getD []
  | 8 => s.spansOf 0 c.arg1 1 0 64 0 false ++ s.schedulerRows
  | _ => []

/-- The semaphore of the record at the head of a queue (22 R354, R356). -/
def State.semRows (s : State) (d : QDesc) : List Span :=
  if d.tail = d.head then []
  else match s.checkRecord d with
    | .error _ => []
    | .ok (r, p) => if r.cond = 0 then [] else s.spansOf (effAsid p) r.sem 1 0 8 0 false

/-- The rows that the launch of a waiting gang reads: its constants and its stream program (22 R354, 10 R223). -/
def State.launchRows (s : State) (g : Nat) : List Span :=
  match s.pathFor g with
  | none => []
  | some p =>
    let r := (s.gang g).launch
    (if r.const = 0 then [] else s.spansOf (effAsid p) r.const 1 0 256 0 false) ++
      if r.lflags % 2 = 0 then [] else ((s.streamTable (effAsid p) r.stream).map Table.program).getD []

/-- Whether the entry of a warp's cause halts its gang, of whose fault domain the RCBs are read (22 R352, 24 R372). -/
def State.entryHalts (s : State) (g w : Nat) : Bool :=
  (s.warp g w).handler || ((s.warp g w).cause.map (·.cls)) == some 0x10 || s.hentry (s.gang g).asid == 0

/-- The rows that the control plane or a front-end reads for one of its steps (22 R351 to R364; 24 R371, R382; DEDUCED, log 86). -/
def State.ctlRows (s : State) (i : Instr) : List Span :=
  match i with
  | .queuePoll q =>
    match s.queue? q with
    | none => []
    | some e =>
      if !e.enabled || e.wait ≠ 0 || e.placing.isSome then []
      else s.queueRows q ++ if q = 0 then [] else ((s.qdesc? e.desc).map s.semRows).getD []
  | .gangPlacement g => if s.waits g then s.schedulerRows ++ s.launchRows g else []
  | .preemption g => if (s.gang g).phase = .running then s.schedulerRows else []
  | .doneIncrement q idx =>
    match (s.recs.find? fun r => r.queue == q && r.idx == idx && !r.halted).bind fun r => r.done.map fun d => (r.asid, d) with
    | some (a, d) => s.spansOf a d 1 0 8 0 false
    | none => []
  | .trapEntry g w =>
    if (s.warp g w).cause.isNone then []
    else ((s.table? 0 0xFF01).toList.map fun t =>
      { tab := t, row := (s.gang g).asid, off := 0, len := 4, view := 0, write := false }) ++
      if s.entryHalts g w then s.schedulerRows else []
  | i =>
    match s.command? with
    | some (_, _, c) => if performs i c.code then s.queueRows 0 ++ s.commandRows c else []
    | none => []

/-- Whether a step of the control plane waits for its own accesses. The entry of a trap waits for its reads alone. -/
def State.ctlWaits (s : State) (i : Instr) (xs : List Span) : Bool :=
  match i with
  | .trapEntry .. => s.spansHeld xs
  | _ => !xs.isEmpty && s.ctlHeld xs

/-- An event: a row of the table that no slot issues. What the control plane reads for it waits, or leaves its traces (DEDUCED, log 86). -/
def State.event (s : State) (i : Instr) : Host.Outcome State Fault Refusal :=
  let xs := s.ctlRows i
  if s.ctlWaits i xs then .next (s.wakeSpans xs)
  else exec i (s.noteRows xs)

/-- The turn of an agent. A row of the table that is an event is carried out by `exec`; a slot instruction issues only from a
core's cycle. -/
def State.turn (s : State) (m : Mover) : Host.Outcome State Fault Refusal :=
  match m with
  | .core id => .next (if s.coreTicks id then s.coreCycle id else s)
  | .hbm pch => .next (if s.pchanTicks pch then s.hbmCycle pch else s)
  | .front q => .next (s.frontCycle q)
  | .control => .next s.controlStep
  | .publish g w cell => .next (s.publish g w cell)
  | .news asid slot die => .next (s.newsStep asid slot die)
  | .engine ctx op k => .next (s.engineEarly ctx op k)
  | .evictL1 core line aper => .next (s.evictL1 core line aper)
  | .evict die line => .next (s.evict die line)
  | .evictRegion home base => .next (s.evictRegion home base)
  | .dropCode core asid quad => .next (s.dropQuad core asid quad)
  | .dropTlb cache asid vbase => .next (s.dropTlb cache asid vbase)
  | .partError p found => .next (s.partError p found)
  | .upset ctx found => .next (s.upset ctx found)
  | .errorAges p => .next (s.agePart p)
  | .event i => if (encode i).isEmpty then s.event i else .next s

end Sys2Proof.Machine
end

