-- ==== Sys2Proof/Machine/Step.lean ====
section
/-! DEFINITION. One step of the machine: the agent whose turn it is moves, and which agent moves next is free (DESIGN CHOICE, log 1). -/

/-- Which agent moves at a step: the spec fixes no order among the agents of the device, nor the ratio of their clocks in a
run, so the schedule is free (DESIGN CHOICE, log 1). -/
opaque Sys2Proof.Config.nextMover : Nat → Sys2Proof.Machine.Mover

namespace Sys2Proof.Machine

/-- The machine after a step of one agent: the next step's number, and the agent that will move then. -/
def State.handOver (s : State) : State :=
  { s with tick := s.tick + 1, mover := Config.nextMover (s.tick + 1), cur := none }

/-- ONE STEP. -/
def step (s : State) : Host.Outcome State Fault Refusal :=
  match s.turn s.mover with
  | .next t => .next t.handOver
  | .fault f => .fault f
  | .refused r => .refused r

/-- The bytes of the quad that holds an instruction in its slot 1: header 0, the instruction's words, zeros. -/
def probeBytes (nbits w : Nat) : List Byte := leBytes 4 0 ++ leBytes 12 (w % 2 ^ (min nbits 64))

/-- A gang of one warp at the first core, whose fibres stand at slot 1 of the quad at address 0x10000 of ASID 1 (DESIGN CHOICE, log 12). -/
def probeGang : Gang :=
  { waitingGang 0 0 0 0 0 0 0 0 { (default : LaunchRec) with entry := 0x10004, gangs := 1, wgs := 1, warps := 1 } with
    asid := 1, phase := .running, place := { die := 0, col := 0, clu := 0, core := 0 },
    wgs := [{ hold := false, acc := [], sat := [], cursors := [] }],
    warps := [launchWarp { (default : LaunchRec) with entry := 0x10004 } 0 0 0 0 (List.replicate 64 0)] }

/-- The state with an instruction stored where the next step fetches: a program that a loader has placed, and the first
core's turn (DESIGN CHOICE, log 12). -/
def State.withFetchWord (s : State) (nbits w : Nat) : State :=
  { s with
    mover := .core 0, cur := none, gangs := [probeGang], icache := [], loops := [],
    cores := s.cores.filter fun c => c.core != 0,
    tlb := [{ cache := .die 0, asid := 1, vbase := 0x10000, size := 4096, pbase := 0x10000, key := 0, r := true, w := true, x := true }],
    stale := s.stale.filter fun e => e.cell / 4096 != 16,
    mem := Memory.putBytes s.mem 0x10000 (probeBytes nbits w) }

end Sys2Proof.Machine
end

