-- ==== Sys2Proof/Safety.lean ====
section
/-! DEFINITION. What counts as a safe run: what claims about runs may ask of every state. -/

namespace Sys2Proof.Machine

/-- Every memory the machine holds is in its canonical form: the device's, and each gang's shares and stacks. -/
def State.memoryOk (s : State) : Prop :=
  Memory.wf s.mem = true ∧ ∀ G ∈ s.gangs, Memory.wf G.cmem = true ∧ Memory.wf G.firn = true ∧
    ∀ W ∈ G.warps, ∀ L ∈ W.lanes, Memory.wf L.stack = true

/-- A step is safe when it neither faults nor is refused. -/
def State.stepsOn (s : State) : Prop := ∃ t, step s = .next t

end Sys2Proof.Machine
end

