-- ==== Sys2Proof/Claims.lean ====
section
/-! DEFINITION. The terms in which the statements about instructions are written: when an issue reaches its instruction's
effect, the state it leaves, and the arithmetic of the integer instructions on exact numbers. -/

namespace Sys2Proof.Machine

/-- The issue `c` under way reaches the effect of its instruction: no fault of its fields, its status register or its stall
count (01 R34, 02 R51, 04 R83), ISSUE in
lane order and not empty (01 R21), no wait of the entry (04 R74), and every register of the
window exists (02 R38). -/
structure Issues (i : Instr) (c : Cur) (s : State) : Prop where
  cur : s.cur = some c
  order : c.set.Sublist laneIds
  within : c.issue.Sublist c.set
  early : s.earlyFault i c = none
  lanes : c.issue ≠ []
  ready : s.entryWait i c = false
  window : s.offWindow i c = false

/-- The state after an issue whose results land `lat` cycles later: its fibres have moved on and the results are on their
way (04 R80). -/
def State.after (s : State) (i : Instr) (c : Cur) (lat : Nat) (rs : List (Tgt × DWord)) : State :=
  (s.advance i c).mapWarp c.gang c.warp fun W => W.post (s.now c.gang c.warp) lat c.issue rs

/-- An issue of `i` completes, and `lat` cycles later each lane of ISSUE receives what `f` says of the warp before the issue. -/
def LaneResults (i : Instr) (lat : Nat) (f : Warp → Nat → List (Tgt × DWord)) : Prop :=
  ∀ (c : Cur) (s : State), Issues i c s →
    exec i s = .next (s.after i c lat (c.issue.flatMap (f (s.warp c.gang c.warp))))

/-- An issue of `i` completes, and `lat` cycles later the warp receives what `f` says of it and of ISSUE. -/
def WarpResults (i : Instr) (lat : Nat) (f : Warp → List Nat → List (Tgt × DWord)) : Prop :=
  ∀ (c : Cur) (s : State), Issues i c s →
    exec i s = .next (s.after i c lat (f (s.warp c.gang c.warp) c.issue))

/-- The width of an integer TY (01 R29). -/
def tyWidth (t : BitVec 3) : Nat := if 2 ≤ t.toNat then 64 else 32

/-- The bits of an integer operand in a lane, as a number (02 R39). -/
def Warp.word (W : Warp) (t : BitVec 3) (l n : Nat) : Nat :=
  if 2 ≤ t.toNat then (W.get l n).toNat + 2 ^ 32 * (W.get l (n + 1)).toNat else (W.get l n).toNat

/-- The bits of operand B: an s-register under U (01 R24). -/
def Warp.wordB (W : Warp) (u : BitVec 1) (t : BitVec 3) (l n : Nat) : Nat :=
  if u = 1 then (W.s n).toNat % 2 ^ tyWidth t else W.word t l n

/-- A number of `w` bits read as signed or unsigned by TY (01 R29). -/
def asTyped (t : BitVec 3) (v : Nat) : Int :=
  if t.toNat % 2 = 0 ∧ 2 ^ (tyWidth t - 1) ≤ v then (v : Int) - 2 ^ tyWidth t else v

/-- A lane's register or pair receives a number modulo 2^w (05 R92). -/
def Warp.gives (W : Warp) (t : BitVec 3) (l d : Nat) (v : Int) : List (Tgt × DWord) :=
  if 2 ≤ t.toNat then [W.put l d (BitVec.ofInt 32 v), W.put l (d + 1) (BitVec.ofInt 32 (v / 2 ^ 32))]
  else [W.put l d (BitVec.ofInt 32 v)]

/-- What an integer instruction gives each lane, as a function of the numbers d, a and b (05 R92). -/
def integerForm (u : BitVec 1) (t : BitVec 3) (d a b : BitVec 7) (f : Int → Int → Int → Int) (W : Warp) (l : Nat) :
    List (Tgt × DWord) :=
  W.gives t l d.toNat (f (asTyped t (W.word t l d.toNat)) (asTyped t (W.word t l a.toNat)) (asTyped t (W.wordB u t l b.toNat)))

/-- What a bitwise, shift or field instruction gives each lane, as a function of the unsigned numbers d, a and b. -/
def unsignedForm (u : BitVec 1) (t : BitVec 3) (d a b : BitVec 7) (f : Nat → Nat → Nat → Int) (W : Warp) (l : Nat) :
    List (Tgt × DWord) :=
  W.gives t l d.toNat (f (W.word t l d.toNat) (W.word t l a.toNat) (W.wordB u t l b.toNat))

/-- What an immediate instruction gives each lane, from the number a and the immediate's bits at the width of TY. -/
def immediateForm (t : BitVec 3) (d a : BitVec 7) (m : Int) (f : Nat → Nat → Int) (W : Warp) (l : Nat) :
    List (Tgt × DWord) :=
  W.gives t l d.toNat (f (W.word t l a.toNat) (m % 2 ^ tyWidth t).toNat)

/-- A number of `w` bits read as signed, whatever TY (05 R93). -/
def asSigned (t : BitVec 3) (v : Nat) : Int := if 2 ^ (tyWidth t - 1) ≤ v then (v : Int) - 2 ^ tyWidth t else v

/-- A number of `w` bits rotated left by `k` (05 R92). -/
def rotated (w k a : Nat) : Nat := a * 2 ^ k % 2 ^ w + a / 2 ^ (w - k)

/-- The count of one bits of a number of `w` bits (05 R92). -/
def onesOf (w a : Nat) : Nat := ((List.range w).filter fun k => a.testBit k).length

/-- A number of `w` bits with bit k moved to bit w - 1 - k (05 R92). -/
def reversed (w a : Nat) : Nat := ((List.range w).map fun k => if a.testBit k then 2 ^ (w - 1 - k) else 0).sum

/-- The clipped length of a bit field at position `p` (05 R93). -/
def clipped (w p n : Nat) : Nat := if p < w then min n (w - p) else 0

/-- The field that `bfx` extracts (05 R93). -/
def extracted (t : BitVec 3) (a b : Nat) : Int :=
  let p := b % 256
  let n := clipped (tyWidth t) p (b / 256 % 256)
  let v := a / 2 ^ p % 2 ^ n
  if t.toNat % 2 = 0 ∧ 0 < n ∧ a.testBit (p + n - 1) then (v : Int) - 2 ^ n else v

/-- What `bfi` leaves (05 R93): bits p to p + n' - 1 come from the low bits of a, the others from d. -/
def inserted (t : BitVec 3) (d a b : Nat) : Int :=
  let p := b % 256
  let n := clipped (tyWidth t) p (b / 256 % 256)
  ((d / 2 ^ (p + n) * 2 ^ (p + n) + a % 2 ^ n * 2 ^ p + d % 2 ^ p : Nat) : Int)

/-- The flag register that four bits make (02 R44). -/
def Flags4 (f : BitVec 4) (n z c v : Prop) : Prop :=
  (f.getLsbD 3 = true ↔ n) ∧ (f.getLsbD 2 = true ↔ z) ∧ (f.getLsbD 1 = true ↔ c) ∧ (f.getLsbD 0 = true ↔ v)

/-- A flag register is the comparison of A with B at width w (02 R45). -/
def IsCompare (w a b : Nat) (f : BitVec 4) : Prop :=
  let sa : Int := if 2 ^ (w - 1) ≤ a then (a : Int) - 2 ^ w else a
  let sb : Int := if 2 ^ (w - 1) ≤ b then (b : Int) - 2 ^ w else b
  Flags4 f (((2 ^ w + a - b) % 2 ^ w).testBit (w - 1) = true) (a = b) (b ≤ a)
    (sa - sb < -(2 ^ (w - 1)) ∨ 2 ^ (w - 1) ≤ sa - sb)

/-- A flag register is that of an add with carry at width w (05 R94). -/
def IsAddCarry (w a b k : Nat) (f : BitVec 4) : Prop :=
  let sa : Int := if 2 ^ (w - 1) ≤ a then (a : Int) - 2 ^ w else a
  let sb : Int := if 2 ^ (w - 1) ≤ b then (b : Int) - 2 ^ w else b
  Flags4 f (((a + b + k) % 2 ^ w).testBit (w - 1) = true) ((a + b + k) % 2 ^ w = 0) (2 ^ w ≤ a + b + k)
    (sa + sb + k < -(2 ^ (w - 1)) ∨ 2 ^ (w - 1) ≤ sa + sb + k)

/-- The values that SALU computes on the 64-bit numbers of two s-registers (05 R101). -/
def saluResult (m x y : Nat) : Int :=
  let sx : Int := if 2 ^ 63 ≤ x then (x : Int) - 2 ^ 64 else x
  let sy : Int := if 2 ^ 63 ≤ y then (y : Int) - 2 ^ 64 else y
  match m with
  | 0 => (x + y : Nat)
  | 1 => (x : Int) - y
  | 2 => (x * y : Nat)
  | 3 => (x &&& y : Nat)
  | 4 => (x ||| y : Nat)
  | 5 => (x ^^^ y : Nat)
  | 6 => if 64 ≤ y then 0 else (x * 2 ^ y : Nat)
  | 7 => if 64 ≤ y then 0 else (x / 2 ^ y : Nat)
  | 8 => if 64 ≤ y then (if sx < 0 then -1 else 0) else sx / 2 ^ y
  | 9 => min sx sy
  | 10 => max sx sy
  | 11 => (min x y : Nat)
  | 12 => (max x y : Nat)
  | _ => x

/-- The identity of a reduction as a number: `o` is 0 for a sum, 1 for a minimum, 2 for a maximum and 3 for an or; `t` is 0 for `.i32`,
1 for `.n32`, 2 for `.f32` and 3 for `.i64` (03 R71). -/
def reduceIdentity (o t : Nat) : Nat :=
  if o = 1 then (if t = 0 then 2 ^ 31 - 1 else if t = 1 then 2 ^ 32 - 1 else if t = 2 then 0x7F800000 else 2 ^ 63 - 1)
  else if o = 2 then (if t = 0 then 2 ^ 31 else if t = 1 then 0 else if t = 2 then 0xFF800000 else 2 ^ 63)
  else if o = 0 ∧ t = 2 then 2 ^ 31
  else 0

/-- What a reduction makes of two numbers, the lower lane's first (03 R71, 05 R118). -/
def reduceNumbers (o t x y : Nat) : Nat :=
  let w := if t = 3 then 64 else 32
  let num (v : Nat) : Int := if t ≠ 1 ∧ 2 ^ (w - 1) ≤ v then (v : Int) - 2 ^ w else v
  if t = 2 then (if o = 0 then Num.fadd .f32 .rne (x % 2 ^ 32) (y % 2 ^ 32) else Num.minmax .f32 (o == 1) false (x % 2 ^ 32) (y % 2 ^ 32)) % 2 ^ 64
  else if o = 0 then (x + y) % 2 ^ w
  else if o = 1 then (if num x ≤ num y then x else y)
  else if o = 2 then (if num x ≤ num y then y else x)
  else x ||| y

/-- The value at place i of the reduction tree after j steps, over values that the lanes contribute (03 R71). -/
def reduceTree (f : Nat → Nat → Nat) (x : Nat → Nat) : Nat → Nat → Nat
  | 0, i => x i
  | j + 1, i => f (reduceTree f x j i) (reduceTree f x j (i + 2 ^ j))

/-- The value at place i of the prefix tree after j steps (03 R71). -/
def scanTree (f : Nat → Nat → Nat) (x : Nat → Nat) : Nat → Nat → Nat
  | 0, i => x i
  | j + 1, i => if 2 ^ j ≤ i then f (scanTree f x j (i - 2 ^ j)) (scanTree f x j i) else scanTree f x j i

/-- A floating-point format as the tables of 03 R56, R58 and R59 give it: the bits of the fraction T and of the exponent E, the bias, the
bits of a code, the codes of the largest finite value and of the result of an overflow, and what a NaN becomes. -/
structure FmtRow where
  frac : Nat
  exp : Nat
  bias : Nat
  width : Nat
  largest : Nat
  beyond : Nat
  nan : Nat

/-- The rows of the formats (03 R56, R58, R59, R65). -/
def fmtRow : Num.Fmt → FmtRow
  | .f64 => ⟨52, 11, 1023, 64, 0x7FEFFFFFFFFFFFFF, 0x7FF0000000000000, 0x7FF8000000000000⟩
  | .f32 => ⟨23, 8, 127, 32, 0x7F7FFFFF, 0x7F800000, 0x7FC00000⟩
  | .f16 => ⟨10, 5, 15, 16, 0x7BFF, 0x7C00, 0x7E00⟩
  | .bf16 => ⟨7, 8, 127, 16, 0x7F7F, 0x7F80, 0x7FC0⟩
  | .e5m2 => ⟨2, 5, 15, 8, 0x7B, 0x7C, 0x7E⟩
  | .e4m3 => ⟨3, 4, 7, 8, 0x7E, 0x7F, 0x7F⟩
  | .e2m1 => ⟨1, 2, 1, 4, 0x7, 0x7, 0x0⟩
  | .e8m0 => ⟨0, 8, 127, 8, 0xFE, 0xFF, 0xFF⟩

/-- The sign of a code (03 R56); `e8m0` has none (R59). -/
def signOf (f : Num.Fmt) (c : Nat) : Bool := f != .e8m0 && c / 2 ^ ((fmtRow f).width - 1) % 2 == 1

/-- A magnitude's code with a sign. -/
def withSign (f : Num.Fmt) (s : Bool) (c : Nat) : Nat := if s ∧ f ≠ .e8m0 then c + 2 ^ ((fmtRow f).width - 1) else c

/-- What an overflow or an infinite value of a sign gives where it does not clamp (03 R65); the NaN of `e4m3` has no sign. -/
def beyondOf (f : Num.Fmt) (s : Bool) : Nat := if f = .e4m3 then 0x7F else withSign f s (fmtRow f).beyond

/-- A code is a NaN (03 R57, R59). -/
def NanCode (f : Num.Fmt) (c : Nat) : Prop :=
  let R := fmtRow f
  c / 2 ^ R.frac % 2 ^ R.exp = 2 ^ R.exp - 1 ∧ match f with
    | .e2m1 => False
    | .e8m0 => True
    | .e4m3 => c % 8 = 7
    | _ => c % 2 ^ R.frac ≠ 0

/-- A code is the infinity of a sign (03 R57). -/
def InfCode (f : Num.Fmt) (s : Bool) (c : Nat) : Prop :=
  f ≠ .e4m3 ∧ f ≠ .e2m1 ∧ f ≠ .e8m0 ∧ c = withSign f s (fmtRow f).beyond

/-- A code has a finite value (03 R57, R59). -/
def CodeIs (f : Num.Fmt) (c : Nat) (v : ℝ) : Prop :=
  let R := fmtRow f
  let T := c % 2 ^ R.frac
  let E := c / 2 ^ R.frac % 2 ^ R.exp
  let mag : ℝ := if f = .e8m0 then 2 ^ ((E : ℤ) - 127) else if E = 0 then T * 2 ^ (1 - (R.bias : ℤ) - R.frac)
    else (T + 2 ^ R.frac) * 2 ^ ((E : ℤ) - R.bias - R.frac)
  c < 2 ^ R.width ∧ ¬ NanCode f c ∧ (∀ s, ¬ InfCode f s c) ∧ v = if signOf f c then -mag else mag

/-- `Choose` of 03 R64 and R66: `k` is the quotient by q of the candidate that a mode takes for a number of a sign whose magnitude is y q. -/
def Chosen (rm : Num.Rm) (neg : Bool) (y : ℝ) (k : Nat) : Prop :=
  y = k ∨ ∃ lo : Nat, (lo : ℝ) < y ∧ y < lo + 1 ∧ match rm with
    | .rz => k = lo
    | .rdn => k = if neg then lo + 1 else lo
    | .rup => k = if neg then lo else lo + 1
    | .rne => (y - lo < 1 / 2 ∧ k = lo) ∨ (1 / 2 < y - lo ∧ k = lo + 1) ∨ (y - lo = 1 / 2 ∧ k % 2 = 0 ∧ (k = lo ∨ k = lo + 1))
    | .sr w r => ∃ d : Nat, (d : ℝ) ≤ (y - lo) * 2 ^ w ∧ (y - lo) * 2 ^ w < d + 1 ∧ k = if 2 ^ w ≤ d + r then lo + 1 else lo

/-- Whether an overflow takes the largest finite value (03 R65). -/
def clampsTo (rm : Num.Rm) (sat neg : Bool) : Prop :=
  sat = true ∨ rm = .rz ∨ (rm = .rdn ∧ neg = false) ∨ (rm = .rup ∧ neg = true)

/-- `Round` of 03 R64 for a number that is not 0, of sign `neg` and magnitude y: the code r. -/
def Rounded (f : Num.Fmt) (rm : Num.Rm) (sat neg : Bool) (y : ℝ) (r : Nat) : Prop :=
  let R := fmtRow f
  ∃ (e : ℤ) (k : Nat) (top : ℝ), (2 : ℝ) ^ e ≤ y ∧ y < 2 ^ (e + 1) ∧ CodeIs f R.largest top ∧
    let g : ℤ := max e (if f = .e8m0 then -127 else 1 - (R.bias : ℤ)) - R.frac
    let m : ℝ := k * 2 ^ g
    Chosen rm neg (y / 2 ^ g) k ∧
    (top < m → clampsTo rm sat neg → r = withSign f neg R.largest) ∧
    (top < m → ¬ clampsTo rm sat neg → r = beyondOf f neg) ∧
    (m ≤ top → f = .e8m0 → k = 0 → r = 0) ∧
    (m ≤ top → (f = .e8m0 → 0 < k) → CodeIs f r (if neg then -m else m) ∧ (f ≠ .e8m0 → signOf f r = neg))

/-- The code of an exact result t: rounded, or, where it is 0, the zero of a sign (03 R63, R64). -/
def RoundsTo (f : Num.Fmt) (rm : Num.Rm) (t : ℝ) (zero : Bool) (r : Nat) : Prop :=
  (t = 0 → r = withSign f zero 0) ∧ (t < 0 → Rounded f rm false true (-t) r) ∧ (0 < t → Rounded f rm false false t r)

/-- The gang and the warp of an issue exist, and the warp has its 64 lane slots (02 R36). -/
structure Present (c : Cur) (s : State) : Prop where
  gang : c.gang < s.gangs.length
  warp : c.warp < (s.gang c.gang).warps.length
  lanes : (s.warp c.gang c.warp).lanes.length = warpw

/-- The state after an issue whose results are scoreboarded: its fibres have moved on, and the access waits with the results
that it will bring (04 R84). -/
def State.scoreboards (s : State) (i : Instr) (c : Cur) (args : List Arg) (rs : List (Tgt × DWord)) : State :=
  let u := s.advance i c
  u.await (u.newWork c i args []) rs

/-- The state after an issue that parks lanes: they stand at the slot with the wait `p` (08 R163). -/
def State.parks (s : State) (i : Instr) (c : Cur) (ls : List Nat) (p : Park) : State :=
  (s.advance i c).mapWarp c.gang c.warp fun W =>
    W.mapLanes ls fun _ L => { L with slot := .parked p, fib := { L.fib with pc := c.pc } }

/-- Work with which a warp's instruction waits: it lies among its gang's accesses, and its number is used up. -/
def State.waitsWith (s : State) (g : Nat) (o : Work) : State :=
  { s.mapGang g fun G => { G with accs := G.accs ++ [o] } with nextId := s.nextId + 1 }

/-- The state after a jump: the lanes of ISSUE stand at their targets (08 R168), and a stale loop buffer may be gone. -/
def State.jumps (s : State) (i : Instr) (c : Cur) (tgt : Nat → Word) : State := (s.advance i c).jump c tgt

/-- The load of a share completes: each lane receives the element at its offset in the register form (09 R199); one from the firn
wakes the banks of its cells. The lowest lane outside its share, or misaligned, faults the warp (09 R200). -/
def ShareLoads (i : Instr) (firn : Bool) (f d : Nat) (off : Warp → Nat → Nat) : Prop :=
  ∀ (c : Cur) (s : State), Issues i c s →
    let G := s.gang c.gang
    let W := G.warp c.warp
    let mem := if firn then G.firn else G.cmem
    let size := if firn then G.launch.firn else G.launch.cmem
    let cls : BitVec 8 := if firn then 9 else 8
    let cells := if firn then G.firnCells (esize f) (c.issue.map (off W)) else []
    let u := s.advance i c
    ((∀ l ∈ c.issue, off W l + esize f ≤ size ∧ off W l % esize f = 0) →
      exec i s = .next ((u.wakeAll cells).await
        { u.newWork c i (W.args c.issue (fun _ => 0) (fun _ => 0) (fun _ => 0) fun _ => 0) [] with cells := cells }
        (c.issue.flatMap fun l => (List.range (fmtRegs f)).map fun j =>
          W.put l (d + j) ((loadConv f (leNat (Memory.bytes mem (off W l) (esize f)))).extractLsb' (32 * j) 32)))) ∧
    (∀ l, c.issue.find? (fun l => decide (size < off W l + esize f ∨ off W l % esize f ≠ 0)) = some l →
      exec i s = .next (s.faulted c
        (fltAt cls (if size < off W l + esize f then 1 else 2) l 0 (BitVec.ofNat 32 (off W l)))))

/-- The store to a share completes: the bytes of each lane's element, lanes in ascending order, are written where the load
form reads them (in a canonical share), and no other byte of any memory changes (09 R199, R201). The lowest lane outside its share, or
misaligned, faults the warp, and nothing is stored (09 R200). -/
def ShareStores (i : Instr) (firn : Bool) (f d : Nat) (off : Warp → Nat → Nat) : Prop :=
  ∀ (c : Cur) (s : State), Issues i c s →
    let G := s.gang c.gang
    let W := G.warp c.warp
    let size := if firn then G.launch.firn else G.launch.cmem
    let cls : BitVec 8 := if firn then 9 else 8
    (Present c s → (∀ l ∈ c.issue, off W l + esize f ≤ size ∧ off W l % esize f = 0) →
      ∃ t : State, exec i s = .next t ∧
        (Memory.wf (if firn then G.firn else G.cmem) = true → ∀ l ∈ c.issue, (∀ m ∈ c.issue, l < m → off W m + esize f ≤ off W l ∨ off W l + esize f ≤ off W m) → ∀ k < esize f,
          Memory.get (if firn then (t.gang c.gang).firn else (t.gang c.gang).cmem) (off W l + k) =
            BitVec.ofNat 8 (storeConv f (W.data l d f) / 256 ^ k)) ∧
        (∀ a, (∀ l ∈ c.issue, a < off W l ∨ off W l + esize f ≤ a) →
          Memory.get (if firn then (t.gang c.gang).firn else (t.gang c.gang).cmem) a =
            Memory.get (if firn then G.firn else G.cmem) a) ∧
        (if firn then (t.gang c.gang).cmem = G.cmem else (t.gang c.gang).firn = G.firn) ∧
        t.mem = s.mem ∧ t.stale = s.stale ∧ (∀ g, g ≠ c.gang → t.gang g = s.gang g) ∧
        t.warp c.gang c.warp = (s.advance i c).warp c.gang c.warp) ∧
    (∀ l, c.issue.find? (fun l => decide (size < off W l + esize f ∨ off W l % esize f ≠ 0)) = some l →
      exec i s = .next (s.faulted c
        (fltAt cls (if size < off W l + esize f then 1 else 2) l 0 (BitVec.ofNat 32 (off W l)))))

/-- The first of some conditions that holds decides `r`; where none holds, `r` is `d`. -/
def Decided {α : Type} (r d : α) : List (Prop × α) → Prop
  | [] => r = d
  | (p, a) :: cs => (p → r = a) ∧ (¬ p → Decided r d cs)

/-- The fault `x` is of a class and a code, and gives the lane `l`, and no other, these TRAPAUX and FADDR (24 R372). -/
def Flt.Names (x : Flt) (cls code : BitVec 8) (l aux faddr : Nat) : Prop :=
  x.cls = cls ∧ x.code = code ∧ x.words = [(l, BitVec.ofNat 32 aux, BitVec.ofNat 32 faddr)]

/-- The checks of the row reference `r` in lane `l`, for an element of `e` bytes at offset `o`, in their order: TABLE.HANDLE, ROW, STALE, OFFS
and ALIGN, with the slot in TRAPAUX and the row or the offset in FADDR (13 R255); then XLAT, with the level above the slot and the row in
FADDR: NOMAP for an address of 2^48 or more, PERM, APER (20 R327); then CONTAIN (24 R381). Where all pass, the element's cells are those of
its physical addresses through the table's aperture. -/
def RowChecks (s : State) (asid l : Nat) (r : DWord) (o e : Nat) (k : Acc) : Prop :=
  let slot := r.toNat / 2 ^ 48
  let gen := r.toNat / 2 ^ 32 % 2 ^ 16
  let row := r.toNat % 2 ^ 32
  let stops (cls code : BitVec 8) (aux faddr : Nat) : Prop := ∃ x, s.laneRow asid l r o e k = .error x ∧ x.Names cls code l aux faddr
  (s.table? asid slot = none → stops 0x0B 1 slot row) ∧
  ∀ t, s.table? asid slot = some t →
    (t.desc.cap ≤ row → stops 0x0B 2 slot row) ∧
    (row < t.desc.cap → (gen = 0 ∨ gen ≠ t.genOf row) → stops 0x0B 3 slot row) ∧
    (row < t.desc.cap → gen ≠ 0 → gen = t.genOf row →
      (t.desc.width < o + e → stops 0x0B 4 slot o) ∧
      (o + e ≤ t.desc.width → o % e ≠ 0 → stops 0x0B 5 slot o) ∧
      (o + e ≤ t.desc.width → o % e = 0 →
        let va := t.desc.rowbase + row * t.desc.width + o
        (2 ^ 48 ≤ va → stops 0x0D 1 slot row) ∧
        (∀ x, s.translate asid va = .error x → x.code.toNat ≤ 5 → stops 0x0D x.code (slot + 65536 * x.level) row) ∧
        (∀ p, s.translate asid va = .ok p → va % 4096 + e ≤ 4096 →
          let level := if p.size = 2097152 then 2 else 1
          let may : Prop := match k with
            | .read => p.r = true
            | .write => p.w = true
            | .rmw => p.r = true ∧ p.w = true
            | .fetch => p.x = true
          let pa := p.pbase + (va - p.vbase)
          let cells := (List.range e).map fun j => cellOf t.desc.aper (p.pbase + (va + j - p.vbase))
          (¬ may → stops 0x0D 4 (slot + 65536 * level) row) ∧
          (may → t.desc.aper ≠ 0 → inHbm pa = false → stops 0x0D 5 (slot + 65536 * level) row) ∧
          (may → (t.desc.aper = 0 ∨ inHbm pa = true) →
            ((∃ a ∈ cells, s.containedCell a = true) → stops 0x10 1 0 row) ∧
            ((∀ a ∈ cells, s.containedCell a = false) → s.laneRow asid l r o e k = .ok (t, cells))))))

/-- The checks of the lanes of an issue, lowest first: where those of every lane pass, each has its table, its cells, its row and its address,
and else the fault is that of the lowest lane that fails (13 R260). -/
def LaneChecks (s : State) (c : Cur) (e : Nat) (k : Acc) (ref : Nat → DWord) (off : Nat → Nat) : Prop :=
  let lane (l : Nat) := s.laneRow (s.gang c.gang).asid l (ref l) (off l) e k
  (∀ f : Nat → Table × List Nat, (∀ l ∈ c.issue, lane l = .ok (f l)) → s.laneAccs c e k ref off = .ok (c.issue.map fun l =>
    { lane := l, tab := (f l).1, cells := (f l).2, row := (ref l).toNat % 2 ^ 32,
      va := (f l).1.desc.rowbase + (ref l).toNat % 2 ^ 32 * (f l).1.desc.width + off l })) ∧
  (∀ lower l upper x, c.issue = lower ++ l :: upper → (∀ m ∈ lower, ∃ y, lane m = .ok y) → lane l = .error x →
    s.laneAccs c e k ref off = .error x)

/-- From `u` to `t` the accesses `as` of an issue set out to read: one more access of the gang waits, with the cells read, the registers
that it will write and their values, but for a lane whose line is lost or fails its check, whose fault it keeps (24 R379, 20 R346); those
lines are lost from here on. No memory, table, warp or other gang changes, and one number of outstanding work is used up. -/
structure ReadStarts (u t : State) (c : Cur) (i : Instr) (as : List LaneAcc) (dst : Nat → List Tgt) (val : LaneAcc → List DWord) : Prop where
  mem : t.mem = u.mem
  stale : t.stale = u.stale
  tables : t.tables = u.tables
  nextId : t.nextId = u.nextId + 1
  others : ∀ g, g ≠ c.gang → t.gang g = u.gang g
  warps : ∀ w, t.warp c.gang w = u.warp c.gang w
  lost : (∀ n ∈ u.lost, n ∈ t.lost) ∧ ∀ a ∈ as, ∀ f, a.lineFault u .read = some f → ∀ n ∈ f.retires, n ∈ t.lost
  work : c.gang < u.gangs.length → ∃ o, (t.gang c.gang).accs = (u.gang c.gang).accs ++ [o] ∧
    o.id = u.nextId ∧ o.ctx = c.gang ∧ o.warp = c.warp ∧ o.instr = i ∧ o.pc = c.pc ∧ o.owners = c.issue ∧ o.mark = 0 ∧
    o.issuedAt = u.now c.gang c.warp ∧ o.cells = as.flatMap (·.cells) ∧ o.awaits = as.flatMap (fun a => dst a.lane) ∧
    o.vals = (as.filter fun a => !a.isBad u).flatMap (fun a => (dst a.lane).zip (val a)) ∧ o.fault = badLane u as

/-- A load by reference completes where every lane's checks pass: the access waits with each lane's element in its register
form (13 R255, R259, R260), `val` being the bytes of the elements: an element aligned in address is read as a whole, and of another each
byte is what stood before or after what became visible meanwhile (13 R396); where no write of its cells is hidden or stands in another path, the bytes are those of
memory. The first lane that fails a check faults the warp, and nothing is read. -/
def RowLoads (i : Instr) (f d : Nat) (ref : Warp → Nat → DWord) (off : Warp → Nat → Nat) : Prop :=
  ∀ (c : Cur) (s : State), Issues i c s →
    let W := s.warp c.gang c.warp
    let e := esize f
    let acc := s.laneAccs c e .read (ref W) (off W)
    (∀ as, acc = .ok as →
      let u := (s.advance i c).meanwhile c.gang c.warp as
      let held (x : State) (a : LaneAcc) : List Byte := x.loadBytes a.tab a.row (off W a.lane) 0 a.cells
      u.mem = s.mem ∧ u.gangs = (s.advance i c).gangs ∧
      ∃ (t : State) (val : LaneAcc → List Byte), exec i s = .next t ∧
        ReadStarts u t c i as (fun l => (List.range (fmtRegs f)).map fun j => W.loc l (d + j))
          (fun a => (List.range 4).map fun j => ((loadConv f (leNat (val a))).extractLsb' (32 * j) 32).setWidth 64) ∧
        ∀ a ∈ as, (1 < e → a.va % e = 0 → val a = held (s.advance i c) a) ∧
          (∀ k < e, (val a)[k]? = (held (s.advance i c) a)[k]? ∨ (val a)[k]? = (held u a)[k]?) ∧
          (a.tab.mixed = false → (∀ x ∈ a.cells, inPeer x = false ∧ ∀ q ∈ s.stale, q.cell ≠ x) →
            val a = a.cells.map (Memory.get s.mem))) ∧
    (∀ x, acc = .error x → exec i s = .next (s.faulted c x))

/-- What a store of elements to rows does, with the number that each stores: a byte that no element covers keeps its value; the cells of an
element of a row of fixed length (in a canonical memory, outside the peer window) that no later element covers hold its bytes, where the
element is aligned in address or no store to its cells is hidden (13 R396); of one element in a row of mixed width, what lies at or above
the row's length is discarded (13 R257); one element for the peer window goes out to the remote device (20 R337); the warps keep what their advance gave them, and the gangs too where no cell or page makes the store wait (20 R344, R345;
24 R385, R386). `v` is the state that the accesses have left in the caches. -/
structure Stores (s u v t : State) (asid : Nat) (xs : List (LaneAcc × Nat)) (e : Nat) : Prop where
  frame : ∀ a, (∀ x ∈ xs, a ∉ x.1.cells) → Memory.get t.mem a = Memory.get s.mem a
  stored : ∀ pre x n post, Memory.wf s.mem = true → xs = pre ++ (x, n) :: post → x.cells.Nodup → x.tab.mixed = false →
    (∀ a ∈ x.cells, inPeer a = false ∧ ∀ y ∈ post, a ∉ y.1.cells) →
    ((1 < e ∧ x.va % e = 0) ∨ ∀ q ∈ s.stale, q.cell ∈ x.cells → q.but = []) →
    ∀ k < e, Memory.get t.mem (x.cells.getD k 0) = BitVec.ofNat 8 (n / 256 ^ k)
  sent : ∀ x n, xs = [(x, n)] → x.tab.mixed = false → (∀ a ∈ x.cells, inPeer a = true) →
    ((1 < e ∧ x.va % e = 0) ∨ ∀ q ∈ s.stale, q.cell ∈ x.cells → q.but = []) →
    t.mem = s.mem ∧ t.sent = s.sent ++ x.cells.zip (leBytes e n)
  length : ∀ x n, xs = [(x, n)] → x.cells.Nodup → ∀ k < e,
    x.tab.desc.rowbase + x.row * x.tab.desc.width + s.curLen x.tab x.row 0 ≤ x.va + k →
    Memory.get t.mem (x.cells.getD k 0) = Memory.get s.mem (x.cells.getD k 0)
  warps : ∀ g w, t.warp g w = u.warp g w
  gangs : (∀ x ∈ xs, ∀ a ∈ x.1.cells, v.heldBack a = false) → v.pagesHeld asid (pagesOf (xs.map (·.1))) true = false → t.gangs = u.gangs

/-- The length of a row that accesses by reference see: WIDTH, or, of mixed width, what its format code gives for its elements (13 R257, 14 R272);
what a load returns of its bytes through a view: 0 at the length and above it. -/
def RowLength (s : State) (t : Table) (row view : Nat) : Prop :=
  (t.desc.tflags.getLsbD 0 = false → s.curLen t row view = t.desc.width) ∧
  (t.desc.tflags.getLsbD 0 = true → ∀ c, s.cellsAt t.asid t.desc.aper (t.desc.rowbase + row * t.desc.width) 1 .read = .ok [c] → s.containedCell c = false →
    let n := (t.desc.width - 2) / 4
    s.curLen t row view =
      [2, 2 + 4 * n, 2 + 2 * n, 2 + 2 * n, 2 + n, 2 + n, 2 + (n + 1) / 2, 2 + n].getD (s.readCell (2 * t.desc.aper + view) c).toNat 2) ∧
  ∀ o cells k, k < cells.length → (s.loadBytes t row o view cells)[k]? =
    some (if o + k < s.curLen t row view then s.readCell (2 * t.desc.aper + view) (cells.getD k 0) else 0)

/-- The memory forms (01 R31, 03 R67; 09 R199): the integer ones extend a load's element to 32 bits and take a store's low bits; the float ones convert
a load's element exactly and round a store's to nearest even. -/
def MemoryForms : Prop :=
  (∀ raw, loadConv 0 raw = BitVec.ofNat 128 raw ∧ loadConv 1 raw = BitVec.ofNat 128 raw ∧ loadConv 2 raw = BitVec.ofNat 128 raw ∧
    loadConv 4 raw = BitVec.ofNat 128 raw ∧ loadConv 6 raw = BitVec.ofNat 128 raw) ∧
  (∀ raw < 2 ^ 8, (loadConv 3 raw).toNat = if raw < 2 ^ 7 then raw else raw + (2 ^ 32 - 2 ^ 8)) ∧
  (∀ raw < 2 ^ 16, (loadConv 5 raw).toNat = if raw < 2 ^ 15 then raw else raw + (2 ^ 32 - 2 ^ 16)) ∧
  (∀ f ∈ [0, 1, 2, 3, 4, 5, 6], ∀ v : QWord, storeConv f v = v.toNat % 2 ^ (8 * [4, 8, 16, 1, 1, 2, 2].getD f 0)) ∧
  ∀ p ∈ [((7 : Nat), Num.Fmt.bf16), (8, .f16), (9, .e4m3), (10, .e5m2)],
    (∀ (raw : Nat) (x : ℝ), CodeIs p.2 raw x → CodeIs .f32 (loadConv p.1 raw).toNat x ∧ signOf .f32 (loadConv p.1 raw).toNat = signOf p.2 raw) ∧
    (∀ raw < 2 ^ (fmtRow p.2).width, NanCode p.2 raw → (loadConv p.1 raw).toNat = 0x7FC00000) ∧
    (∀ b raw, InfCode p.2 b raw → (loadConv p.1 raw).toNat = beyondOf .f32 b) ∧
    ∀ v : QWord, let c := v.toNat % 2 ^ 32
      (∀ x : ℝ, CodeIs .f32 c x → RoundsTo p.2 .rne x (signOf .f32 c) (storeConv p.1 v)) ∧
      (NanCode .f32 c → storeConv p.1 v = (fmtRow p.2).nan) ∧ (∀ b, InfCode .f32 b c → storeConv p.1 v = beyondOf p.2 b)

/-- A store by reference of lanes whose checks pass and whose lines are not lost completes, and stores each lane's data in the memory
form (13 R255, R259 to R261); a lane that fails a check, or whose line is lost, faults the warp, and nothing is stored. -/
def RowStores (i : Instr) (f d : Nat) (ref : Warp → Nat → DWord) (off : Warp → Nat → Nat) : Prop :=
  ∀ (c : Cur) (s : State), Issues i c s →
    let W := s.warp c.gang c.warp
    let u := s.advance i c
    let acc := s.laneAccs c (esize f) .write (ref W) (off W)
    (∀ as, acc = .ok as → lostLane s as = none → ∃ t : State, exec i s = .next t ∧
      Stores s u (u.noteAccs c none as true) t (s.gang c.gang).asid (as.map fun x => (x, storeConv f (W.data x.lane d f))) (esize f)) ∧
    (∀ as x, acc = .ok as → lostLane s as = some x → exec i s = .next (s.faulted c x)) ∧
    (∀ x, acc = .error x → exec i s = .next (s.faulted c x))

/-- The checks of a keyed instruction after those of its window, in their order (13 R266): TABLE.HANDLE, KIND, KEYT, OFFS and ALIGN, the last two with
AUX in FADDR of every lane of the set. `kind` is what the instruction asks of the table's kind, and `e` the size of its element, 0 where it has none. -/
def KeyChecks (s : State) (c : Cur) (i : Instr) (h : DWord) (kt e aux : Nat) (kind : Table → Prop) : Prop :=
  let asid := (s.gang c.gang).asid
  let r := s.keyCheck c i h kt e aux
  let all (code : BitVec 8) : Except Flt Table := .error { cls := 0x0B, code := code, words := c.set.map fun l => (l, 0, BitVec.ofNat 32 aux) }
  let names (t : Table) : Prop := s.table? asid (h.toNat % 2 ^ 16) = some t ∧ t.desc.inc = h.toNat / 2 ^ 16 % 2 ^ 16
  ((∀ t, ¬ names t) → r = .error (flt 0x0B 1)) ∧
  ∀ t, names t → Decided r (.ok t) [
    (¬ kind t, .error (flt 0x0B 6)), (t.desc.keyt ≠ kt, .error (flt 0x0B 7)),
    (t.desc.width < aux + e, all 4), (e ≠ 0 ∧ aux % e ≠ 0, all 5)]

/-- A keyed instruction starts where the checks of its handle, key type and offset pass: its lanes' operations, each with its key and its captured data, join
the index engines' work at the table's slot in ascending order, and the registers of D and f0 await them; the first check that fails faults the warp (13 R262 to R266). -/
def KeyedStarts (i : Instr) (h kt e aux a d dn : Nat) (kind : Table → Prop) (dv bv : Warp → Nat → QWord) : Prop :=
  ∀ (c : Cur) (s : State), Issues i c s →
    let W := s.warp c.gang c.warp
    let r := s.keyCheck c i (W.s h) kt e aux
    let u := s.advance i c
    let key (l : Nat) : QWord := if kt = 4 then W.get128 l a else if 2 ≤ kt then (W.get64 l a).setWidth 128 else (W.get l a).setWidth 128
    KeyChecks s c i (W.s h) kt e aux kind ∧
    (∀ t, r = .ok t → ∃ w, exec i s = .next { u with idx := u.idx ++ [w], nextId := u.nextId + 1 } ∧
      w.id = s.nextId ∧ w.ctx = c.gang ∧ w.warp = c.warp ∧ w.instr = i ∧ w.pc = c.pc ∧ w.owners = c.issue ∧ w.mark = 0 ∧ w.vals = [] ∧
      w.fault = none ∧ w.cells = [t.slot] ∧
      w.args = (c.issue.map fun l => { lane := l, w := (W.lane l).fib.w, d := dv W l, a := key l, b := bv W l, c := BitVec.ofNat 128 (dn + 1) }) ∧
      w.awaits = c.issue.flatMap fun l => ((List.range dn).map fun j => W.loc l (d + j)) ++ [.flag l 0]) ∧
    (∀ x, r = .error x → exec i s = .next (s.faulted c x))

/-- One more lane of the index work `o` is done, with the values `vals` for the registers that have awaited them and the fault `f`, if the work has met
one; after its last lane the work lies among its gang's accesses (13 R262, R266). -/
def State.LaneDone (x : State) (o : Work) (vals : List (Tgt × DWord)) (f : Option Flt) : Prop :=
  if o.mark + 1 < o.args.length then ∃ w ∈ x.idx, w.id = o.id ∧ w.mark = o.mark + 1 ∧ w.vals = vals ∧ w.fault = f
  else ∃ w ∈ (x.gang o.ctx).accs, w.id = o.id ∧ w.vals = vals ∧ w.fault = f

/-- The registers that await a lane of keyed work: the 32-bit words of `d` for those of D, the lowest first, and the flags for f0 (13 R266). -/
def keyVals (ts : List Tgt) (d : QWord) (f : BitVec 4) : List (Tgt × DWord) :=
  ((ts.take (ts.length - 1)).zipIdx.map fun p => (p.1, (d.extractLsb' (32 * p.2) 32).setWidth 64)) ++
    (ts.drop (ts.length - 1)).map fun t => (t, f.setWidth 64)

/-- Between `s` and `x` no byte outside the cells `cs` has changed; where a write of all of them stands (`all`; in a canonical memory, with no cell twice and
none in the peer window), the cells hold the bytes `b`. -/
def State.Wrote (s x : State) (all : Bool) (cs : List Nat) (b : Nat → Byte) : Prop :=
  (∀ a, a ∉ cs → Memory.get x.mem a = Memory.get s.mem a) ∧
  (all = true → Memory.wf s.mem = true → cs.Nodup → (∀ a ∈ cs, inPeer a = false) → ∀ j < cs.length, Memory.get x.mem (cs.getD j 0) = b j)

/-- A warp holds a value where a target points: in a register or a flag register of a lane, an s-register, or one of the warp's own. -/
def Warp.Holds (V : Warp) (t : Tgt) (v : DWord) : Prop :=
  match t with
  | .reg l i => l < V.lanes.length → i < (V.lane l).regs.length → (V.lane l).regs.getD i 0 = v.setWidth 32
  | .bank l n => l < V.lanes.length → n < (V.lane l).bank.length → (V.lane l).bank.getD n 0 = v.setWidth 32
  | .flag l n => l < V.lanes.length → n < 4 → (V.lane l).fib.flags.toNat / 16 ^ n % 16 = v.toNat % 16
  | .sreg n => n < V.sregs.length → V.sregs.getD n 0 = v
  | .gmiss => V.gmiss = v.setWidth 32
  | .slim => V.slim = v.setWidth 32
  | .ms => V.ms = v.setWidth 12
  | _ => True

/-- From `W` to `V` some results land (04 R80): each place holds the last value that lands there, and the registers, flags and s-registers to which none
comes keep theirs. -/
def Warp.Lands (W V : Warp) (vals : List (Tgt × DWord)) : Prop :=
  (∀ pre t v post, vals = pre ++ (t, v) :: post → (∀ q ∈ post, q.1 ≠ t) → V.Holds t v) ∧
  V.lanes.length = W.lanes.length ∧
  (∀ l i, (∀ q ∈ vals, q.1 ≠ .reg l i) → (V.lane l).regs[i]? = (W.lane l).regs[i]?) ∧
  (∀ l n, n < 4 → (∀ q ∈ vals, q.1 ≠ .flag l n) → (∀ q ∈ vals, ∀ k, q.1 = .flag l k → k < 4) →
    (V.lane l).fib.flags.toNat / 16 ^ n % 16 = (W.lane l).fib.flags.toNat / 16 ^ n % 16) ∧
  ∀ n, (∀ q ∈ vals, q.1 ≠ .sreg n) → V.sregs[n]? = W.sregs[n]?

/-- A small-matrix instruction whose shape is valid completes: its results wait until the operation is done, and land together
(06 R120, R121). -/
def MatrixResults (i : Instr) (f : Warp → Nat → List (Tgt × DWord)) : Prop :=
  ∀ (c : Cur) (s : State), Issues i c s → shapeOk i (s.warp c.gang c.warp).ms = true →
    let vals := c.issue.flatMap (f (s.warp c.gang c.warp))
    exec i s = .next ((s.advance i c).waitsWith c.gang
      { s.newWork c i [] [] with awaits := vals.map (·.1), vals := vals, mark := 2 })

/-- A lane's registers from `d` receive those that `g` gives for the places of a matrix of p rows and q columns, row by row. -/
def Warp.givesGrid (W : Warp) (l d p q : Nat) (g : Nat → Nat → Nat) : List (Tgt × DWord) :=
  (List.range (p * q)).map fun k => W.put l (d + k) (BitVec.ofNat 32 (g (k / q) (k % q)))

/-- The class of a pivot against the tolerance (06 R129). -/
def PivotIs (chol : Bool) (t d : Nat) (k : Pivot) : Prop :=
  Decided k .good [(NanCode .f32 d, .notNumber), (d % 2 ^ 31 = 0, .zero), (chol = true ∧ 2 ^ 31 ≤ d, .negative),
    (¬ NanCode .f32 t ∧ d % 2 ^ 31 < t % 2 ^ 31, .tiny)]

/-- A column is used, whatever its pivot's warning (06 R129). -/
def Uses (k : Pivot) : Prop := k = .tiny ∨ k = .good

/-- The factor of a Cholesky factorisation and the classes of its pivots (06 R130): each element is what stood there less the products of the factor's elements to
its left, one after the other, each rounded, then its root or its quotient by the column's diagonal; a column that is not used is +0. -/
def CholeskyIs (n t : Nat) (a L : Nat → Nat → Nat) (ks : List Pivot) : Prop :=
  let less (i j : Nat) : Nat := (List.range j).foldl (fun x k => Num.ffnma .f32 .rne (L i k) (L j k) x) (a i j)
  ks.length = n ∧ ∀ j < n, ∃ k, ks[j]? = some k ∧ PivotIs true t (less j j) k ∧
    (Uses k → L j j = Num.fsqrt .f32 .rne (less j j) ∧ ∀ i, j < i → i < n → L i j = Num.fdiv .f32 .rne (less i j) (L j j)) ∧
    (¬ Uses k → ∀ i, j ≤ i → i < n → L i j = 0)

/-- One step of an LU factorisation (06 R131): column j's first largest element comes to row j, and below it stand the multipliers, and to the
right the remainders, each rounded once; a column that is not used has +0 below its diagonal. -/
def LuStep (n t j : Nat) (G H : Nat → Nat → Nat) (k : Pivot) (p : Nat) : Prop :=
  let x (i : Nat) : Nat := G i j
  let B (i c : Nat) : Nat := if i = j then G p c else if i = p then G j c else G i c
  let m (i : Nat) : Nat := Num.fdiv .f32 .rne (B i j) (B j j)
  j ≤ p ∧ p < n ∧ (NanCode .f32 (x j) → p = j) ∧
  (¬ NanCode .f32 (x j) → ¬ NanCode .f32 (x p) ∧ ∀ i, j ≤ i → i < n → ¬ NanCode .f32 (x i) →
    (i < p → x i % 2 ^ 31 < x p % 2 ^ 31) ∧ (p < i → x i % 2 ^ 31 ≤ x p % 2 ^ 31)) ∧
  PivotIs false t (B j j) k ∧
  ∀ i < n, ∀ c < n, H i c =
    if i ≤ j ∨ c < j then B i c
    else if ¬ (k = .tiny ∨ k = .good) then (if c = j then 0 else B i c)
    else if c = j then m i
    else Num.ffnma .f32 .rne (m i) (B j c) (B i c)

/-- The factor of an LU factorisation, the classes of its pivots and the rows that it swapped (06 R131). -/
def LuIs (n t : Nat) (a F : Nat → Nat → Nat) (ks : List Pivot) (ps : List Nat) : Prop :=
  ks.length = n ∧ ps.length = n ∧ ∃ G : Nat → Nat → Nat → Nat, (∀ i < n, ∀ c < n, G 0 i c = a i c ∧ G n i c = F i c) ∧
    ∀ j < n, ∃ k p, ks[j]? = some k ∧ ps[j]? = some p ∧ LuStep n t j (G j) (G (j + 1)) k p

/-- Row swaps by a pivot vector, in the order of steps (06 R132): a field of n or more swaps nothing. -/
def SwapsIs (n piv : Nat) (order : Nat → Nat) (y z : Nat → Nat → Nat) : Prop :=
  ∃ G : Nat → Nat → Nat → Nat, G 0 = y ∧ (∀ i < n, ∀ c, G n i c = z i c) ∧ ∀ s < n,
    let j := order s
    let p := if n ≤ piv / 8 ^ j % 8 then j else piv / 8 ^ j % 8
    ∀ i < n, ∀ c, G (s + 1) i c = if i = j then G s p c else if i = p then G s j c else G s i c

/-- The solution of a triangular system (06 R132): each element is that of the right-hand side less the products with the elements solved before
it, in ascending order, then its quotient by the diagonal; the swaps come before or after. -/
def SolveIs (n cols : Nat) (up unit tr : Bool) (piv : Option Nat) (a Y R : Nat → Nat → Nat) : Prop :=
  let E (i k : Nat) : Nat := if tr then a k i else a i k
  ∃ Z X : Nat → Nat → Nat,
    (∀ p, piv = some p → tr = false → SwapsIs n p id Y Z) ∧ (piv = none ∨ tr = true → Z = Y) ∧
    (∀ c < cols, ∀ i < n,
      let before := (List.range n).filter fun k => if up == tr then decide (k < i) else decide (i < k)
      let x := before.foldl (fun x k => Num.ffnma .f32 .rne (E i k) (X k c) x) (Z i c)
      X i c = if unit then x else Num.fdiv .f32 .rne x (E i i)) ∧
    (∀ p, piv = some p → tr = true → SwapsIs n p (fun s => n - 1 - s) X R) ∧ (piv = none ∨ tr = false → ∀ i < n, ∀ c < cols, R i c = X i c)

/-- From `s` to `u` the fibres of ISSUE end (08 R172): their slots become free or retired, their monitors are gone, and nothing outstanding
is theirs; no other lane of the warp and no memory changes. -/
structure Ends (c : Cur) (s u : State) (slot : Slot) : Prop where
  mem : u.mem = s.mem
  slots : ∀ l ∈ c.issue, c.gang < s.gangs.length → c.warp < (s.gang c.gang).warps.length → l < (s.warp c.gang c.warp).lanes.length →
    ((u.warp c.gang c.warp).lane l).slot = slot ∧ ((u.warp c.gang c.warp).lane l).regs = ((s.warp c.gang c.warp).lane l).regs
  others : ∀ l, l ∉ c.issue → (u.warp c.gang c.warp).lane l = (s.warp c.gang c.warp).lane l
  monitors : ∀ m, m ∈ u.monitors ↔ m ∈ s.monitors ∧ ¬ (m.ctx = c.gang ∧ m.warp = c.warp ∧ m.lane ∈ c.issue)
  owners : ∀ o ∈ (u.gang c.gang).ops ++ (u.gang c.gang).accs ++ u.idx ++ u.calls, o.ctx = c.gang → o.warp = c.warp → ∀ l ∈ c.issue, l ∉ o.owners

/-- The test of REJOIN (08 R173, R174): a mask is satisfied once each of its lanes is exited or parked with it; the fibres parked with it then stand at
their join targets with age 0, ready from the next cycle, and the table forgets it. Serial mode ends once 8 or fewer masks are left. -/
def Warp.Rejoins (W : Warp) (now : Nat) : Prop :=
  let V := W.rejoin now
  let sat (m : DWord) : Prop := ∀ k < 64, m.getLsbD k = true → (W.lane k).exited = true ∨ ∃ t, (W.lane k).slot = .parked (.rejoin m t)
  (∀ l < 64, ∀ m t, (W.lane l).slot = .parked (.rejoin m t) →
    (sat m → V.lane l = { W.lane l with slot := .live, fib := { (W.lane l).fib with
      pc := t, age := 0, readyAt := max (W.lane l).fib.readyAt (now + 1) } }) ∧
    (¬ sat m → V.lane l = W.lane l)) ∧
  (∀ l, (∀ m t, (W.lane l).slot ≠ .parked (.rejoin m t)) → (V.lane l).slot = (W.lane l).slot) ∧
  (∀ m, m ∈ V.masks ↔ ¬ sat m ∧ ∃ l < 64, ∃ t, (W.lane l).slot = .parked (.rejoin m t)) ∧
  (W.serial = true → V.masks.length ≤ 8 → V.serial = false ∧ V.rejoinTab = V.masks ∧ V.rejoinOut = [] ∧
    ∀ l, (V.lane l).slot = .live → (V.lane l).fib.age = 0) ∧
  (W.serial = false ∨ 8 < V.masks.length → V.serial = W.serial ∧ V.rejoinTab = W.rejoinTab.filter (fun m => m ∈ V.masks) ∧
    V.rejoinOut = W.rejoinOut.filter fun m => m ∈ V.masks)

/-- The test of barriers (08 R176): a barrier of kind 0 to 2, of a warp, its workgroup or its gang, is complete once each lane of these is exited or parked
at it; the lanes parked at it then stand at their next slots with age 0, ready from the next cycle. No other lane changes. -/
def Gang.Barriers (G : Gang) (clk : Nat → Nat) : Prop :=
  let H := G.barriers clk
  ∀ w < G.warps.length, ∀ l < 64,
    let L := (G.warp w).lane l
    (∀ k n, L.slot = .parked (.bar k n) →
      let done : Prop := ∀ v < G.warps.length, (k = 2 ∨ v = w ∨ (k = 1 ∧ (G.warp v).wg = (G.warp w).wg)) →
        ∀ j < 64, ((G.warp v).lane j).exited = true ∨ ((G.warp v).lane j).slot = .parked (.bar k n)
      (done → (H.warp w).lane l = { L with slot := .live, fib := { L.fib with
        pc := nextPc L.fib.pc, age := 0, readyAt := max L.fib.readyAt (clk w + 1) } }) ∧
      (¬ done → (H.warp w).lane l = L)) ∧
    ((∀ k n, L.slot ≠ .parked (.bar k n)) → (H.warp w).lane l = L)

/-- The tests of stuck gangs, workgroups and warps (08 R175, R177): where every fibre is parked at REJOIN or BAR and one waits at a barrier of the gang, or of the
workgroup, each warp of it takes CTRL.BARSTUCK, and a warp whose fibres are all parked at REJOIN or at its own barriers else CTRL.REJOINSTUCK: with
every fibre's parking pc and mask in the cause, each stands up at that pc, and the rejoin table is empty. -/
def Gang.Stuck (G : Gang) : Prop :=
  let T := G.stuckTests
  let held (w k : Nat) : Prop := ∀ l < 64, ((G.warp w).lane l).exited = true ∨
    (∃ m t, ((G.warp w).lane l).slot = .parked (.rejoin m t)) ∨ ∃ j n, ((G.warp w).lane l).slot = .parked (.bar j n) ∧ j ≤ k
  let waits (w k : Nat) : Prop := ∃ l < 64, ∃ n, ((G.warp w).lane l).slot = .parked (.bar k n)
  let gang : Prop := (∀ w < G.warps.length, held w 2) ∧ ∃ w < G.warps.length, waits w 2
  let wg (g : Nat) : Prop := (∀ w < G.warps.length, (G.warp w).wg = g → held w 2) ∧ ∃ w < G.warps.length, (G.warp w).wg = g ∧ waits w 1
  ∀ w < G.warps.length,
    let W := G.warp w
    let V := T.warp w
    let takes (code : BitVec 8) : Prop := V.rejoinTab = [] ∧ V.rejoinOut = [] ∧ V.serial = false ∧
      (∃ k, V.cause = some k ∧ k.cls = 4 ∧ k.code = code ∧ k.lanes = W.fibres ∧ k.stuck = true ∧ k.atIssue = false ∧
        (∀ l, W.fibres.head? = some l → k.pc = (W.lane l).fib.pc) ∧ k.words = W.fibres.map (fun l => (l, (W.lane l).fib.pc, 0)) ∧
        k.masks = W.fibres.map fun l => (l, match (W.lane l).slot with | .parked (.rejoin m _) => m | _ => 0)) ∧
      ∀ l, ((W.lane l).exited = true → V.lane l = W.lane l) ∧ ((W.lane l).exited = false → (V.lane l).slot = .live ∧
        (V.lane l).fib.pc = (W.lane l).fib.pc ∧ (V.lane l).regs = (W.lane l).regs)
    let may : Prop := W.cause = none ∧ ∃ l < 64, (W.lane l).exited = false
    (may → gang ∨ wg W.wg → takes 4) ∧ (may → ¬ gang → ¬ wg W.wg → held w 0 → takes 2) ∧
      (¬ may ∨ (¬ gang ∧ ¬ wg W.wg ∧ ¬ held w 0) → V = W)

/-- A row reference names a table's row at its current generation: the first three checks of 13 R255 pass. -/
def State.Current (s : State) (asid : Nat) (r : DWord) (t : Table) : Prop :=
  s.table? asid (r.toNat / 2 ^ 48) = some t ∧ r.toNat % 2 ^ 32 < t.desc.cap ∧ r.toNat / 2 ^ 32 % 2 ^ 16 ≠ 0 ∧
    r.toNat / 2 ^ 32 % 2 ^ 16 = t.genOf (r.toNat % 2 ^ 32)

/-- `n` bytes of a row from byte `o` on may be read or written: they lie in the row, their addresses translate to the cells `cs`, and none of these
is contained, lost or, where they are read, in a line whose check fails (10 R212, 20 R327, R346, 24 R379, R381). -/
def State.RunIs (s : State) (t : Table) (row o n : Nat) (k : Acc) (cs : List Nat) : Prop :=
  let va := t.desc.rowbase + row * t.desc.width + o
  o + n ≤ t.desc.width ∧ s.cellsAt t.asid t.desc.aper va n k = .ok cs ∧
    (∀ a ∈ cs, s.containedCell a = false ∧ s.lostCell a = false) ∧ (k ≠ .write → s.failedLines t.asid va cs = [])

/-- The counters of a gang (10 R209): the operations issued on a counter, less the greatest n such that every one with a lower sequence number
has completed. -/
def Gang.Counts (G : Gang) : Prop :=
  ∀ w k n, let issued := (G.warp w).issued.getD k 0
    n ≤ issued → (∀ p ∈ G.ops, p.warp = w → p.ctr = some k → n ≤ p.seq) →
    (n = issued ∨ ∃ p ∈ G.ops, p.warp = w ∧ p.ctr = some k ∧ p.seq = n) → G.counter w k = issued - n

/-- From `s` to `t` an engine operation of a gang completes, beside the bytes that it writes (10 R209 to R211): it is outstanding no more; the counters
count what is left, and the operation's own, where it was the oldest on it and the next is outstanding, or none is left, has fallen by 1; its tile is in the state that it leaves; each lane
parked at a WAITC whose counter has come down to its bound goes on at its next slot, with age 0. No other lane and no other gang changes. -/
structure OpDone (s t : State) (ctx : Nat) (o : Work) (tile : Option TileState) : Prop where
  gone : (t.gang ctx).ops = (s.gang ctx).ops.filter fun p => p.id != o.id
  counts : (t.gang ctx).Counts
  issued : ∀ w, (t.warp ctx w).issued = (s.warp ctx w).issued
  falls : ∀ k, o.ctr = some k → o.seq < (s.warp ctx o.warp).issued.getD k 0 → (∀ p ∈ (s.gang ctx).ops, p.id = o.id → p = o) →
    (∀ p ∈ (s.gang ctx).ops, p.id ≠ o.id → p.warp = o.warp → p.ctr = some k → o.seq < p.seq) →
    (o.seq + 1 = (s.warp ctx o.warp).issued.getD k 0 ∨
      ∃ p ∈ (s.gang ctx).ops, p.id ≠ o.id ∧ p.warp = o.warp ∧ p.ctr = some k ∧ p.seq = o.seq + 1) →
    (s.gang ctx).counter o.warp k = (t.gang ctx).counter o.warp k + 1
  tiles : (t.gang ctx).tiles = match tile with
    | none => (s.gang ctx).tiles
    | some st => (s.gang ctx).tiles.map fun u => if u.num = o.tiles.getD 0 0 then { u with st := st } else u
  lanes : ∀ w l, let L := (s.warp ctx w).lane l
    (∀ k n, L.slot = .parked (.waitc k n) →
      ((t.gang ctx).counter w k ≤ n → (t.warp ctx w).lane l = { L with slot := .live, fib := { L.fib with
        pc := nextPc L.fib.pc, age := 0, readyAt := max L.fib.readyAt (s.now ctx w) } }) ∧
      (n < (t.gang ctx).counter w k → (t.warp ctx w).lane l = L)) ∧
    ((∀ k n, L.slot ≠ .parked (.waitc k n)) → (t.warp ctx w).lane l = L)
  others : ∀ g, g ≠ ctx → t.gang g = s.gang g

/-- Between `s` and `t` the shares of a gang change as told: of the bytes at offsets `lo` to `lo + n - 1` of cluster memory, or of firn, each is that
of `b`; the others, and the gang's other share, keep their values. -/
def ShareHolds (s t : State) (g : Nat) (firn : Bool) (lo n : Nat) (b : Nat → Byte) : Prop :=
  let mem (x : State) : List Host.Cell := if firn then (x.gang g).firn else (x.gang g).cmem
  (Memory.wf (mem s) = true → ∀ j < n, Memory.get (mem t) (lo + j) = b j) ∧
    (∀ a, a < lo ∨ lo + n ≤ a → Memory.get (mem t) a = Memory.get (mem s) a) ∧
    if firn then (t.gang g).cmem = (s.gang g).cmem else (t.gang g).firn = (s.gang g).firn

/-- What one lane of a lane copy is told to move (10 R213, R214): from byte `ro` of the row that `rr` names, to offset `lo` of a share or from it, `v`
bytes of 32. -/
structure CopyLane where
  rr : DWord
  lo : Nat
  v : Nat
  ro : Nat

/-- The copy that a lane's captured operands and the instruction's offset name. -/
def CopyLane.of (x : BitVec 16) (a : Arg) : CopyLane :=
  { rr := a.a.setWidth 64, lo := a.d.toNat % 2 ^ 32, v := a.b.toNat % 2 ^ 32, ro := a.c.toNat % 2 ^ 32 + x.toNat }

/-- The row that a lane copies from or to, with the cells of its bytes; a lane that copies nothing in needs none (10 R214, R215). -/
def CopyLane.Row (s : State) (asid : Nat) (out : Bool) (y : CopyLane) (t : Table) (cs : List Nat) : Prop :=
  if out = false ∧ y.v = 0 then cs = []
  else s.Current asid y.rr t ∧ s.RunIs t (y.rr.toNat % 2 ^ 32) y.ro (if out then 32 else y.v) (if out then .write else .read) cs

/-- An element of a row as a bulk copy takes it to a tile, or a stored element of a tile on its way to a row (10 R218): raw words and a tile in the row's
format are copied as they stand, and a `w32` tile takes what a load gives and gives what a store takes. -/
def movedElem (toTile : Bool) (f tf v : Nat) : Nat :=
  if 2 < f ∧ tf = 0 then (if toTile then (loadConv f v).toNat % 2 ^ 32 else storeConv f (BitVec.ofNat 128 v)) else v

/-- The bytes of a tile row made from those of a table row, or the other way (10 R218). -/
def movedBytes (toTile : Bool) (f tf cols : Nat) (bs : List Byte) : List Byte :=
  let row := esize f
  let tile := [4, 2, 2, 1, 1, 1].getD tf 0
  if f ≤ 2 then bs
  else (List.range cols).flatMap fun c =>
    if toTile then leBytes tile (movedElem true f tf (leNat ((bs.drop (c * row)).take row)))
    else leBytes row (movedElem false f tf (leNat ((bs.drop (c * tile)).take tile)))

/-- Element c of a row of packed elements of `bits` bits, the lowest first (03 R60). -/
def packed (bits : Nat) (bs : List Byte) (c : Nat) : Nat := leNat bs / 2 ^ (bits * c) % 2 ^ bits

/-- The rows of bytes that a source of the matrix engine holds, a tile of the gang or consecutive rows of a dense table, `rb` bytes of each (11
R236, R237). -/
def State.SourceIs (s : State) (G : Gang) (tile : Bool) (n : Nat) (rr : DWord) (rows rb : Nat) (bs : Nat → List Byte) : Prop :=
  if tile then ∀ t, G.tile? n = some t → ∀ r < rows, bs r = Memory.bytes G.cmem (tileBase t.desc + r * rb) rb
  else ∃ t, s.Current G.asid rr t ∧ t.desc.tkind = 0 ∧ rr.toNat % 2 ^ 32 + rows ≤ t.desc.cap ∧ rb ≤ t.desc.width ∧
    ∀ r < rows, ∃ cs, s.RunIs t (rr.toNat % 2 ^ 32 + r) 0 rb .read cs ∧ bs r = cs.map (s.readCell (2 * t.desc.aper))

/-- The finite value of an element of a float source at dense position k, with its block's scale where the format has scales (03 R60, 11 R237). -/
def ElemIs (mf : Nat) (scales : List Byte) (code k : Nat) (v : ℝ) : Prop :=
  ∃ x y : ℝ, CodeIs ([.bf16, .f16, .e4m3, .e5m2, .e4m3, .e5m2].getD mf .e2m1) code x ∧
    (if mf = 4 ∨ mf = 5 ∨ mf = 6 then CodeIs .e8m0 (scales.getD (k / 32) 0x7F).toNat y else y = 1) ∧ v = x * y

/-- Where the p-th stored element of a row of A stands in dense K, by the codes of its metadata row (11 R238). -/
def densePos (mode : Nat) (codes : Nat → Nat) (p : Nat) : Nat :=
  if mode = 1 then 4 * (p / 2) + (if p % 2 = 0 then codes (p / 2) % 4 else codes (p / 2) / 4)
  else if mode = 2 then 8 * (p / 4) + 2 * (if p % 4 < 2 then codes (p / 4) % 4 else codes (p / 4) / 4) + p % 2
  else p

/-- The operands of an XMMA as its engine reads them: the rows of A, B and the metadata, and the scales of A's and B's rows. -/
structure XmmaRows where
  a : Nat → List Byte
  b : Nat → List Byte
  m : Nat → List Byte
  sa : Nat → List Byte
  sb : Nat → List Byte

/-- The sources of an XMMA hold these rows (11 R236, R237). -/
def State.XmmaReads (s : State) (G : Gang) (mode : Nat) (um : List DWord) (x : XmmaRows) : Prop :=
  let ma := um.getD 0 0
  let mb := um.getD 1 0
  let mm := um.getD 2 0
  let sparse : Prop := mode = 1 ∨ mode = 2
  let kd := denseK mode ma
  let src (m rr : DWord) (bs : Nat → List Byte) : Prop :=
    s.SourceIs G (mapCls m == 0) (mapLoc m) rr (mapRows m) (mapCols m * mfBits (mapMf m) / 8) bs
  let scl (m rr : DWord) (bs : Nat → List Byte) : Prop :=
    if mapSs m = 0 then ∀ r, bs r = [] else s.SourceIs G (mapSs m == 1) (mapSloc m) rr (mapRows m) ((kd + 31) / 32) bs
  src ma (um.getD 3 0) x.a ∧ src mb (um.getD 4 0) x.b ∧ (sparse → src mm (um.getD 5 0) x.m) ∧ scl ma (um.getD 6 0) x.sa ∧ scl mb (um.getD 7 0) x.sb ∧
    (∀ m ∈ [ma, mb] ++ (if mode = 1 ∨ mode = 2 then [mm] else []), mapCls m = 0 → (G.tile? (mapLoc m)).isSome) ∧
    (∀ m ∈ [ma, mb], mapSs m = 1 → (G.tile? (mapSloc m)).isSome) ∧
    (sparse → mapRows mm = mapRows ma ∧ mapCols mm * 2 * mode = mapCols ma)

/-- The metadata of a sparse XMMA is valid: each code has its first position below its second (11 R238). -/
def XmmaRows.MetaOk (x : XmmaRows) (mode : Nat) (um : List DWord) : Prop :=
  mode = 1 ∨ mode = 2 → ∀ i < mapRows (um.getD 0 0), ∀ g < mapCols (um.getD 2 0), packed 4 (x.m i) g % 4 < packed 4 (x.m i) g / 4

/-- No code of a ternary XMMA's A is 2 (11 R242). -/
def XmmaRows.TernOk (x : XmmaRows) (mode : Nat) (um : List DWord) : Prop :=
  mode = 3 → ∀ i < mapRows (um.getD 0 0), ∀ k < mapCols (um.getD 0 0), packed 2 (x.a i) k ≠ 2

/-- The accumulator element (i, j) of a float XMMA, from the old one: block by block of K, 16 wide for 16-bit formats and 32 wide for the others, the products of the stored
elements of A with those of B at their dense positions are added exactly to the element, and rounded once (03 R72, 11 R241); what is said holds where each of
these is finite. -/
def FloatElem (mode : Nat) (um : List DWord) (x : XmmaRows) (i j : Nat) (old new : Nat) : Prop :=
  let ma := um.getD 0 0
  let mb := um.getD 1 0
  let blk := if mapMf ma ≤ 1 then 16 else 32
  let pos := densePos mode (packed 4 (x.m i))
  ∃ acc : Nat → Nat, acc 0 = old ∧ acc ((denseK mode ma + blk - 1) / blk) = new ∧
    ∀ n < (denseK mode ma + blk - 1) / blk, ∀ (u : ℝ) (va vb : Nat → ℝ), CodeIs .f32 (acc n) u →
      let ps := (List.range (mapCols ma)).filter fun p => pos p / blk == n
      (∀ p ∈ ps, ElemIs (mapMf ma) (x.sa i) (packed (mfBits (mapMf ma)) (x.a i) p) (pos p) (va p) ∧
        ElemIs (mapMf mb) (x.sb j) (packed (mfBits (mapMf mb)) (x.b j) (pos p)) (pos p) (vb p)) →
      ∃ z, RoundsTo .f32 .rne (u + (ps.map fun p => va p * vb p).sum) z (acc (n + 1))

/-- The accumulator element (i, j) of a ternary XMMA, from the old one: 32 elements of K at a time are added, and the sum is clamped to 32 bits; `clamped` says whether it ever
was (03 R73). -/
def TernElem (um : List DWord) (x : XmmaRows) (i j : Nat) (old new : Int) (clamped : Prop) : Prop :=
  let kd := mapCols (um.getD 0 0)
  let sum (n : Nat) : Int := ((List.range 32).map fun k =>
    if 32 * n + k < kd then
      (match packed 2 (x.a i) (32 * n + k) with | 1 => 1 | 3 => -1 | _ => 0) * (BitVec.ofNat 8 (packed 8 (x.b j) (32 * n + k))).toInt
    else 0).sum
  ∃ acc : Nat → Int, acc 0 = old ∧ acc ((kd + 31) / 32) = new ∧
    (∀ n, acc (n + 1) = max (-(2 ^ 31)) (min (2 ^ 31 - 1) (acc n + sum n))) ∧ (clamped ↔ ∃ n < (kd + 31) / 32, acc (n + 1) ≠ acc n + sum n)

/-- The row side of a lane copy, or of the first row of another engine's run, meets a fault (10 R212, R214): the checks of the reference, the range
of `n` bytes from byte `ro` on, translation, containment, a lost line and a failing check, in this order, each with its class and code. -/
def State.RowSideFault (s : State) (asid : Nat) (rr : DWord) (ro n : Nat) (k : Acc) (cls code : BitVec 8) : Prop :=
  let row := rr.toNat % 2 ^ 32
  (s.table? asid (rr.toNat / 2 ^ 48) = none ∧ cls = 0x0B ∧ code = 1) ∨ ∃ t, s.table? asid (rr.toNat / 2 ^ 48) = some t ∧
    let va := t.desc.rowbase + row * t.desc.width + ro
    ((t.desc.cap ≤ row ∧ cls = 0x0B ∧ code = 2) ∨
    (row < t.desc.cap ∧ ¬ s.Current asid rr t ∧ cls = 0x0B ∧ code = 3) ∨
    (s.Current asid rr t ∧ t.desc.width < ro + n ∧ cls = 0x0A ∧ code = 4) ∨
    (s.Current asid rr t ∧ ro + n ≤ t.desc.width ∧
      ((∃ x, s.cellsAt asid t.desc.aper va n k = .error x ∧ x.code.toNat ≤ 5 ∧ cls = 0x0D ∧ code = x.code) ∨
      ∃ cs, s.cellsAt asid t.desc.aper va n k = .ok cs ∧
        (((∃ a ∈ cs, s.containedCell a = true) ∧ cls = 0x10 ∧ code = 1) ∨
        ((∀ a ∈ cs, s.containedCell a = false) ∧ (∃ a ∈ cs, s.lostCell a = true) ∧ cls = 0x0E ∧ code = 1) ∨
        ((∀ a ∈ cs, s.containedCell a = false ∧ s.lostCell a = false) ∧ k ≠ .write ∧ s.failedLines asid va cs ≠ [] ∧ cls = 0x0E ∧ code = 2)))))

/-- The loop levels that are open where the operation n of a stream program stands, the innermost first (10 R226). -/
def openAt (ws : List DWord) : Nat → List Nat
  | 0 => []
  | n + 1 =>
    let w := (ws.getD n 0).toNat
    if w / 2 ^ 60 = 1 then w / 2 ^ 58 % 4 :: openAt ws n else if w / 2 ^ 60 = 2 then (openAt ws n).tail else openAt ws n

/-- The operation n of a stream program offends (10 R224, R226): it is the 257th, with no `end` before it, or one of the first 256 with a reserved
SOP, a reserved field that is not 0, a `loop` of an open level, a `next` that does not close the innermost one, a read of a stream that has had no `src`, or a
width, format or key type that no read has. -/
def OffendsAt (ws : List DWord) (n : Nat) : Prop :=
  let word (j : Nat) : Nat := (ws.getD j 0).toNat
  let w := word n
  let op := w / 2 ^ 60
  let k := w / 2 ^ 58 % 4
  let bits (lo m : Nat) : Nat := w / 2 ^ lo % 2 ^ m
  let source : Prop := ∃ j < n, word j / 2 ^ 60 = 3 ∧ word j / 2 ^ 58 % 4 = k
  n < ws.length ∧
  if n = 256 then ∀ j < 256, word j / 2 ^ 60 ≠ 0
  else n < 256 ∧
    (8 < op ∨ (op = 0 ∧ bits 0 60 ≠ 0) ∨
    (op = 1 ∧ (k ∈ openAt ws n ∨ if bits 57 1 = 1 then bits 38 19 ≠ 0 ∨ bits 0 32 ≠ 0 else bits 32 25 ≠ 0)) ∨
    (op = 2 ∧ (bits 0 58 ≠ 0 ∨ (openAt ws n).head? ≠ some k)) ∨ (op = 3 ∧ bits 44 8 ≠ 0) ∨ (op = 4 ∧ bits 32 24 ≠ 0) ∨
    ((op = 5 ∨ op = 6) ∧ (bits 0 49 ≠ 0 ∨ ¬ source ∨ bits 53 2 = 3 ∨ (bits 49 4 ≤ 2 ∧ bits 49 4 ≠ bits 53 2) ∨ 11 ≤ bits 49 4)) ∨
    (op = 7 ∧ (bits 0 46 ≠ 0 ∨ ¬ source ∨ 5 ≤ bits 52 3)) ∨ (op = 8 ∧ (bits 58 2 ≠ 0 ∨ bits 32 23 ≠ 0)))

/-- The instructions that a method may execute (18 R307). -/
def inMethod : Instr → Bool
  | .nop | .iabs .. | .popc .. | .clz .. | .brev .. | .iaddi .. | .andi .. | .ori .. | .xori .. | .shli .. | .shri .. | .sari .. | .icmpi .. | .movi .. => true
  | .iadd u .. | .isub u .. | .iaddc u .. | .imul u .. | .imulh u .. | .imad u .. | .imin u .. | .imax u .. | .icmp u .. | .andR u .. | .orR u .. | .xorR u ..
  | .andnR u .. | .shl u .. | .shr u .. | .sar u .. | .rot u .. | .bfx u .. | .bfi u .. | .mov u .. | .sel u .. => u == 0
  | .bra .. | .call .. | .ret | .trap _ | .ldl .. | .stl .. => true
  | _ => false

/-- A method gets from a state to another in `n` steps. -/
def Method.Reaches (m : Method) (size n : Nat) (r q : MRun) : Prop :=
  ∃ f : Nat → MRun, f 0 = r ∧ f n = q ∧ ∀ k < n, methodStep m size (f k) = .go (f (k + 1))

/-- A method goes on at a pc: there, or into MT.BRANCH with the pc's offset where that is no slot of its own code (18 R306, R310). -/
def Method.GoesOn (m : Method) (r : MRun) (x : MStep) : Prop :=
  let o := (r.pc - (m.entry - 4)).toNat
  x = if r.pc.toNat % 16 ≠ 0 ∧ r.pc.toNat % 4 = 0 ∧ o < 4 * m.code.length then .go r else .trap 8 (r.pc - m.entry)

/-- One step of a method whose fibre is the lane `r` (18 R306, R307, R310): the trap that its slot takes, the method's end, or what the instruction's entry does to
a lane with these registers, flags and return stack, and the state block as its share, every result written before the next slot. -/
def MethodSteps (m : Method) (size : Nat) (r : MRun) : Prop :=
  let ws := (m.code.drop (4 * ((r.pc - (m.entry - 4)).toNat / 16))).take 4
  let k := r.pc.toNat % 16 / 4
  let off := r.pc - m.entry
  let step := methodStep m size r
  let S := r.state m size
  let L := (S.warp 0 0).lane 0
  let v (n : BitVec 7) : Word := (S.warp 0 0).get 0 n.toNat
  (L.regs = r.regs ∧ L.fib.flags = r.flags ∧ L.stack = r.stack ∧ L.sptr = r.sptr ∧ L.fib.pc = r.pc ∧ (S.gang 0).cmem = r.mem ∧
    (S.gang 0).launch.cmem = size ∧ (S.warp 0 0).slim = 256) ∧
  ((∀ i, decodeSlot ws k ≠ .ok i) → step = .trap 1 off) ∧
  ∀ i, decodeSlot ws k = .ok i →
    (i.check ≠ none ∨ inMethod i = false → step = .trap 1 off) ∧
    (i.check = none → inMethod i = true →
      let held := holds (gcOf (ws.getD 0 0) k) (flagOf r.flags (fselOf (ws.getD 0 0) k))
      (held = false → m.GoesOn { r with pc := nextPc r.pc } step) ∧
      (held = true →
        (i = .ret → r.sptr = 0 → step = .done r) ∧
        (i = .ret → 0 < r.sptr.toNat → r.sptr.toNat < 8 → step = .trap 5 r.sptr) ∧
        (∀ n, i = .trap n → step = .trap 6 (n.setWidth 32)) ∧
        (∀ f d a b, i = .stl f d a b → S.offWindow i (S.cur.getD default) = false → m.ro = true →
          step = .trap 7 (v a + v b)) ∧
        (∀ f d a b, i = .ldl f d a b ∨ (i = .stl f d a b ∧ m.ro = false) → S.offWindow i (S.cur.getD default) = false →
          let o := (v a).toNat + (v b).toNat
          (size < o + esize f.toNat → step = .trap 2 (v a + v b)) ∧
          (o + esize f.toNat ≤ size → o % esize f.toNat ≠ 0 → step = .trap 3 (v a + v b))) ∧
        (S.offWindow i (S.cur.getD default) = true → step = .trap 1 off) ∧
        ∀ t, exec i S = .next t → (t.warp 0 0).cause = none → (i = .ret → r.sptr ≠ 0) → (∀ n, i ≠ .trap n) →
          (∀ f d a b, i = .stl f d a b → m.ro = false) →
          let V := ((t.gang 0).accs.foldl (fun V o => o.vals.foldl (fun V x => V.land1 x.1 x.2) V) (t.warp 0 0)).land 1000
          let q : MRun := { regs := (V.lane 0).regs, flags := (V.lane 0).fib.flags, stack := (V.lane 0).stack, sptr := (V.lane 0).sptr,
                            pc := (V.lane 0).fib.pc, mem := (t.gang 0).cmem }
          m.GoesOn q step))

/-- A place has room for a demand (22 R358): the workgroups lie on adjacent cores of one cluster, each with free warp slots, cursor entries and extended
blocks; a wanted accumulator store and producer slot is free; and the cluster and the column have the bytes and the tile entries. -/
def State.HasRoom (s : State) (d : Demand) (p : Place) : Prop :=
  p.core + d.wgs.length ≤ 4 ∧
  (∀ w x, d.wgs[w]? = some x → x.1 ≤ 24 - (s.onCore (p.id + w)).length ∧ s.cursorsOn (p.id + w) + x.2.1 ≤ 2048 ∧ x.2.2 ≤ s.poolFree (p.id + w)) ∧
  (∀ w, d.mx[w]? = some true → s.storeHeld (p.id + w) = false) ∧ (d.stream = true → s.producerHeld p.id = false) ∧
  s.cmemUsed (p.id / 4) + d.cmem ≤ 2 ^ 21 ∧ s.firnUsed (p.id / 16) + d.firn ≤ 72 * 2 ^ 20 ∧ s.tilesIn (p.id / 4) + d.tiles ≤ 256

/-- A place that a gang may take (22 R359, R364): its column is active, not dead, of a die of the region and at heat code 12 or lower; it has room; the CORES use
of every region of the path stays within its budget; and what is held for other gangs stays free. -/
def State.MayTake (s : State) (g : Nat) (path : List (DWord × Rcb)) (p : Place) : Prop :=
  let d := (s.gang g).demand
  (p.die < 4 ∧ p.col < 18 ∧ p.clu < 4 ∧ p.core < 4) ∧
  ((s.colOf p.die p.col).st = 0 ∧ s.deadColumn p.die p.col = false ∧ (effDies path).testBit p.die = true ∧ s.heatOf p.die p.col ≤ 12) ∧
  s.HasRoom d p ∧
  (∀ x ∈ path, x.2.cores ≠ 0xFFFFFFFF →
    (s.useCores x.1 ++ (List.range d.wgs.length).map fun w => p.id + w).eraseDups.length ≤ x.2.cores) ∧
  s.keepsHeld g path p = true

/-- The place of a gang (22 R359): of those that it may take, one of a coolest column, of these of one with most free warp slots, and of these the
first in the order of die, column, cluster and core. -/
def State.Places (s : State) (g : Nat) (path : List (DWord × Rcb)) (p : Place) : Prop :=
  let heat (q : Place) := s.heatOf q.die q.col
  let free (q : Place) := s.columnSlots (q.die, q.col)
  s.MayTake g path p ∧ ∀ q, s.MayTake g path q →
    heat p < heat q ∨ (heat p = heat q ∧ (free q < free p ∨ (free p = free q ∧ p.id ≤ q.id)))

/-- From `s` to `t` a new gang starts at a place (22 R358, R361; 02 R36, R41; 08 R163): it runs there, with its region's effective priority and ASID and its
region's REGID; its shares are empty, as they read 0; each warp has 64 live lanes at ENTRY with registers, flags and windows of 0, and the constant table's words in s0 to s31. No memory and
no other gang changes, and no room is held for it any more. -/
structure GangStarts (s t : State) (g : Nat) (path : List (DWord × Rcb)) (p : Place) : Prop where
  mem : t.mem = s.mem
  others : ∀ h, h ≠ g → t.gang h = s.gang h
  held : t.reserved = s.reserved.filter fun r => r.2 ≠ g
  gang : g < s.gangs.length → let G := t.gang g
    G.phase = .running ∧ G.place = p ∧ G.asid = effAsid path ∧ G.prio = effPrio path ∧ (∀ x, path.head? = some x → G.regid = x.2.regid) ∧
    G.launch = (s.gang g).launch ∧ G.gangid = (s.gang g).gangid ∧ G.cmem = [] ∧ G.firn = [] ∧ G.tiles = [] ∧ G.ops = [] ∧ G.accs = [] ∧
    G.warps.length = G.launch.wgs * G.launch.warps
  warp : g < s.gangs.length → let r := (s.gang g).launch
    ∀ w < r.wgs, ∀ k < r.warps, let W := t.warp g (w * r.warps + k)
      W.wg = w ∧ W.wid = k ∧ W.x = 0 ∧ W.slim.toNat = r.stack % 2 ^ 32 ∧ W.handler = false ∧ W.pend = [] ∧ W.cause = none ∧ W.lanes.length = 64 ∧
      (k < (s.slotsOf (p.id + w)).length → (s.slotsOf (p.id + w))[k]? = some W.warpSlot) ∧
      (∀ l < 64, let L := W.lane l
        L.slot = .live ∧ L.regs = List.replicate 64 0 ∧ L.bank = List.replicate 16 0 ∧ L.stack = [] ∧ L.sptr = 0 ∧
        L.fib.pc = r.entry ∧ L.fib.w = 0 ∧ L.fib.flags = 0 ∧ L.fib.rep = none ∧ L.fib.inH = false) ∧
      (∀ n, r.const = 0 ∨ 32 ≤ n → W.s n = 0) ∧
      ∀ tb bs, r.const ≠ 0 → s.Current (effAsid path) r.const tb → s.rowRead (effAsid path) r.const 0 (min tb.desc.width 256) = some bs →
        ∀ n < 32, W.s n = BitVec.ofNat 64 (leNat ((bs.drop (8 * n)).take 8))

/-- From `s` to `t` a saved gang goes on at a place (22 R365): it runs there, and each warp has what was saved, but for a lane whose monitor is lost and a cause that
its engines found meanwhile; ages start anew. No memory changes. -/
structure GangResumes (s t : State) (g : Nat) (p : Place) : Prop where
  mem : t.mem = s.mem
  gang : g < s.gangs.length → (t.gang g).phase = .running ∧ (t.gang g).place = p ∧ (t.gang g).cmem = (s.gang g).cmem ∧ (t.gang g).firn = (s.gang g).firn
  held : t.reserved = s.reserved.filter fun r => r.2 ≠ g
  warp : ∀ w < (s.gang g).warps.length, (∀ m ∈ s.monitors, m.ctx = g → m.st ≠ .lost) → (∀ o ∈ (s.gang g).accs, o.ctx = g) →
    let W := s.warp g w
    let V := t.warp g w
    V.wg = W.wg ∧ V.wid = W.wid ∧ V.x = W.x ∧ V.sregs = W.sregs ∧ V.slim = W.slim ∧ V.ms = W.ms ∧ V.handler = W.handler ∧
    ∀ l, (V.lane l).regs = (W.lane l).regs ∧ (V.lane l).bank = (W.lane l).bank ∧ (V.lane l).slot = (W.lane l).slot ∧
      (V.lane l).stack = (W.lane l).stack ∧ (V.lane l).fib.pc = (W.lane l).fib.pc ∧ (V.lane l).fib.flags = (W.lane l).fib.flags ∧
      (V.lane l).fib.rep = (W.lane l).fib.rep ∧ (V.lane l).fib.saved = (W.lane l).fib.saved

/-- From `s` to `t` the record `r` at the head of the queue `e` is opened (22 R356, R357): its first gang waits for its place, the queue's interval
is 64 again, and the record's account awaits its gangs. -/
structure RecordOpens (s t : State) (e : Queue) (d : QDesc) (r : LaunchRec) (p : List (DWord × Rcb)) : Prop where
  mem : t.mem = s.mem
  gang : ∃ G, t.gangs = s.gangs ++ [G] ∧ G.phase = .waiting ∧ G.gangid = 0 ∧ G.launch = r ∧ G.region = d.rcb ∧ G.asid = effAsid p ∧
    (∀ x, p.head? = some x → G.regid = x.2.regid) ∧ G.queue = e.num ∧ G.recIdx = d.head ∧ G.headAt = e.headAt.getD s.tick ∧ G.warps = []
  queue : ∀ x, s.queue? e.num = some x → ∃ y, t.queue? e.num = some { x with interval := 64, placing := some y } ∧ y.launch = r ∧ y.next = 0
  account : ∃ a ∈ t.recs, a.queue = e.num ∧ a.idx = d.head ∧ a.asid = effAsid p ∧ a.total = r.gangs ∧ a.retired = 0 ∧ a.halted = false ∧
    a.done = if r.lflags / 2 % 2 = 1 then some r.done else none
  others : ∀ a ∈ s.recs, ¬ (a.queue = e.num ∧ a.idx = d.head ∧ a.halted = true) → a ∈ t.recs

/-- What the front-end finds in the record at the head (22 R354, R355): code 5 where the ring's row cannot be read, 1 where a field is outside its limits or reserved, 2 where
the region is invalid, 3 where a reference or the stream's handle fails its checks in the region's ASID, 4 where no gang of it could ever fit; else the record. -/
def RecordChecks (s : State) (d : QDesc) : Prop :=
  let res := s.checkRecord d
  let ring := s.rowRead 0 (d.ringRef d.head) 0 64
  (ring = none → res = .error 5) ∧ ∀ bs, ring = some bs →
    let n (o m : Nat) : Nat := leNat ((bs.drop o).take m)
    let r := launchOf bs
    let limits : Prop := (n 0 4 % 4 = 0 ∧ n 0 4 % 16 ≠ 0) ∧ 1 ≤ n 4 4 ∧ (1 ≤ n 8 1 ∧ n 8 1 ≤ 4) ∧ (1 ≤ n 9 1 ∧ n 9 1 ≤ 16) ∧ n 10 1 ≤ 6 ∧ n 11 1 < 8 ∧
      n 12 4 % 16 = 0 ∧ n 16 4 ≤ 2 ^ 21 ∧ n 20 4 ≤ 72 * 2 ^ 20 ∧ n 52 4 = 0
    (r.entry.toNat = n 0 4 ∧ r.gangs = n 4 4 ∧ r.wgs = n 8 1 ∧ r.warps = n 9 1 ∧ r.cond = n 10 1 ∧ r.lflags = n 11 1 ∧ r.stack = n 12 4 ∧ r.cmem = n 16 4 ∧
      r.firn = n 20 4 ∧ r.const.toNat = n 24 8 ∧ r.sem.toNat = n 32 8 ∧ r.sval.toNat = n 40 8 ∧ r.stream.toNat = n 48 4 ∧ r.done.toNat = n 56 8) ∧
    (¬ limits → res = .error 1) ∧ (limits → s.regionPath d.rcb = none → res = .error 2) ∧
    ∀ p, limits → s.regionPath d.rcb = some p →
      let row (x : DWord) : Prop := ∃ t, s.Current (effAsid p) x t
      let word (x : DWord) : Prop := ∃ t, s.Current (effAsid p) x t ∧ 8 ≤ t.desc.width
      let refs : Prop := (r.const ≠ 0 → row r.const) ∧ (r.cond ≠ 0 → word r.sem) ∧ (r.lflags / 2 % 2 = 1 → word r.done) ∧
        (r.lflags % 2 = 1 → ∃ t, s.table? (effAsid p) (n 48 4 % 2 ^ 16) = some t ∧ t.desc.inc = n 48 4 / 2 ^ 16)
      let fits : Prop := (∀ x ∈ p, (x.2.cores ≠ 0xFFFFFFFF → r.wgs ≤ x.2.cores) ∧ (x.2.firnk ≠ 0xFFFFFFFF → r.firn ≤ 1024 * x.2.firnk) ∧
          (x.2.cmemk ≠ 0xFFFFFFFF → r.cmem ≤ 1024 * x.2.cmemk)) ∧
        ∃ die < 4, ∃ col < 18, ((s.colOf die col).st = 0 ∨ ((s.colOf die col).st = 1 ∧ ∃ c ∈ s.cols, c.die = die ∧ c.st = 3)) ∧
          s.deadColumn die col = false ∧ (effDies p).testBit die = true
      Decided res (.ok (r, p)) [(pathValid p = false, .error 2), (¬ refs, .error 3), (¬ fits, .error 4)]

/-- From `s` to `t` a command installs a table: the descriptor that the 64 bytes `bs` of its image give stands in the slot, alone, with each row at generation 1; a dense table, and
an index with LIVE 0, has no keys (13 R250, R251; 24 R382). No other slot, and no memory, changes. -/
def Installs (s t : State) (asid slot : Nat) (bs : List Byte) : Prop :=
  let n (o m : Nat) : Nat := leNat ((bs.drop o).take m)
  ∃ x, t = { s with tables := t.tables, slotIncs := t.slotIncs } ∧
    t.tables = (s.tables.filter fun u => !(u.asid == asid && u.slot == slot)) ++ [x] ∧ x.asid = asid ∧ x.slot = slot ∧ x.gens = [] ∧
    (n 0 1 = 0 ∨ n 32 4 = 0 → x.keys = []) ∧
    x.desc.tkind = n 0 1 ∧ x.desc.aper = n 1 1 ∧ x.desc.keyt = n 2 1 ∧ x.desc.tflags.toNat = n 3 1 ∧ x.desc.width = n 4 4 ∧ x.desc.cap = n 8 4 ∧
    x.desc.inc = n 12 2 ∧ x.desc.gen = n 14 2 ∧ x.desc.rowbase = n 16 8 ∧ x.desc.index = n 24 8 ∧ x.desc.live = n 32 4 ∧ x.desc.miss = n 36 4 ∧
    x.desc.crcbase = n 40 8 ∧ x.desc.home = n 48 2

/-- From `s` to `t` a command makes an object of an OBJECT record image, its head `hd` and all its bytes `bs` (07 R155; 18 R302, R303, R306): it stands in the slot, alone, with an empty log, each method's
entry and code, and the initial state in a replica on each die; its incarnation differs from the one before. No memory changes. -/
def Creates (s t : State) (asid slot : Nat) (base : Word) (hd bs : List Byte) : Prop :=
  let m := leNat ((hd.drop 1).take 1)
  let home := leNat (hd.take 1)
  ∃ o, t = { s with objs := t.objs, objIncs := t.objIncs } ∧ t.objs = (s.objs.filter fun p => !(p.asid == asid && p.slot == slot)) ++ [o] ∧
    o.asid = asid ∧ o.slot = slot ∧ o.log = [] ∧ o.tail = 0 ∧ o.size = bs.length - (8 + 8 * m) ∧
    (home ≤ 3 → s.engineDead home = false → o.home = home) ∧ (∀ p, s.objAt asid slot = some p → p.inc < 65536 → o.inc ≠ p.inc) ∧
    (∀ d < 4, ∃ r ∈ o.reps, r.die = d ∧ r.state = bs.drop (8 + 8 * m) ∧ r.applied = 0) ∧
    o.methods.length = m ∧ ∀ k < m, ∃ x, o.methods[k]? = some x ∧
      let w := leNat ((bs.drop (12 + 8 * k)).take 4)
      x.entry = base + BitVec.ofNat 32 (leNat ((bs.drop (8 + 8 * k)).take 4)) + 4 ∧ (x.ro = true ↔ w % 2 = 1) ∧ (x.present = true ↔ w / 2 % 2 = 1) ∧
      s.codeWords asid (x.entry - 4) (w / 2 ^ 16) = some x.code

/-- From `s` to `t` a queue is named (22 R353, 24 R382): its entry holds the incarnation and the descriptor's row, enabled, with the interval at 64; a record under
placement goes on under the same descriptor, and with another the record's waiting gang is withdrawn. No other entry changes. -/
structure NamesQueue (s t : State) (q inc : Nat) (desc : DWord) : Prop where
  mem : t.mem = s.mem
  entry : ∃ x, t.queue? q = some x ∧ x.num = q ∧ x.inc = inc ∧ x.desc = desc ∧ x.enabled = true ∧ x.interval = 64 ∧ x.wait = 0 ∧
    (∀ y, s.queue? q = some y → y.desc = desc → x.placing = y.placing ∧ x.headAt = y.headAt) ∧
    ((∀ y, s.queue? q = some y → y.desc ≠ desc) → x.placing = none ∧ x.headAt = none ∧
      ∀ G ∈ t.gangs, G.queue = q → G.phase ≠ .waiting)
  others : ∀ n, n ≠ q → t.queue? n = s.queue? n

/-- From `s` to `t` a range of an address space is invalidated (20 R329): no cached translation of a page that it meets and no cached quad of code in it is left,
and every other one is. -/
structure Invalidates (s t : State) (asid va n : Nat) : Prop where
  mem : t.mem = s.mem
  pages : ∀ x, x ∈ t.tlb ↔ x ∈ s.tlb ∧ ¬ (x.asid = asid ∧ x.vbase < va + n ∧ va < x.vbase + x.size)
  code : ∀ x, x ∈ t.icache ↔ x ∈ s.icache ∧ ¬ (x.asid = asid ∧ x.quad < va + n ∧ va < x.quad + 16)
  loops : ∀ b ∈ t.loops, ∀ x ∈ b.quads, ¬ (x.asid = asid ∧ x.quad < va + n ∧ va < x.quad + 16)
  walks : ∀ w ∈ t.walks, ¬ (w.asid = asid ∧ 4096 * w.page < va + n ∧ va < 4096 * w.page + 4096)

/-- A cell is contained (24 R380 to R382): a dead agent contains it, as a cell of its stacks, of its half of the capacity tier or of its peer window, or as one that the die held exclusive,
and no CONTAIN.CLR since its death covers it. -/
def ContainedCells (s : State) : Prop :=
  (∀ c, s.containedCell c = true ↔ ∃ n a, s.dead[n]? = some a ∧
    (Agent.contains s.peers a c = true ∨ ∃ r ∈ s.taken, r.2.2 = n ∧ r.1 ≤ c ∧ c < r.1 + r.2.1) ∧
    ∀ r ∈ s.cleared, n < r.2.2 → c < r.1 ∨ r.1 + r.2.1 ≤ c) ∧
  (∀ c k, Agent.contains s.peers (.stack k) c = true ↔ inHbm c = true ∧ stackOf c = k) ∧
  (∀ c k, Agent.contains s.peers (.computeDie k) c = true ↔ inHbm c = true ∧ (stackOf c = 2 * k ∨ stackOf c = 2 * k + 1)) ∧
  (∀ c h, inCapacity c = true → (Agent.contains s.peers (.hub h) c = true ↔ c / 256 % 2 = h)) ∧
  (∀ c d, Agent.contains s.peers (.remote d) c = true ↔ inWindow s.peers d c = true) ∧
  ∀ c k, Agent.contains s.peers (.replayEngine k) c = false ∧ ∀ j, Agent.contains s.peers (.column k j) c = false

/-- From `s` to `t` an agent not dead before is declared dead (24 R380, R381): it joins the dead agents; what a die held exclusive of other homes
is contained; every running or draining gang with a warp on the agent halts with CONTAIN.AGENT; and where there is none, no gang halts, no memory changes, a die's cores and slices hold no
lines, and each access outstanding to a contained cell has met CONTAIN.AGENT and brings no value. -/
structure Dies (s t : State) (a : Agent) : Prop where
  dead : t.dead = s.dead ++ [a]
  cleared : t.cleared = s.cleared
  halts : ∀ g < s.gangs.length, (s.gang g).resident = true → (s.gang g).liesOn a = true →
    (t.gang g).phase = .halted ∧ (t.gang g).haltClass = 0x10 ∧ (t.gang g).haltCode = 1
  others : (∀ g < s.gangs.length, (s.gang g).resident = true → (s.gang g).liesOn a = false) →
    t.mem = s.mem ∧ t.gangs.length = s.gangs.length ∧ ∀ g, (t.gang g).phase = (s.gang g).phase ∧ (t.gang g).warps = (s.gang g).warps ∧
      ∀ o ∈ (s.gang g).accs, o.mark = 0 → o.fault = none →
        ((∃ c ∈ o.cells, t.containedCell c = true) → { o with vals := [], fault := some (flt 0x10 1) } ∈ (t.gang g).accs) ∧
        ((∀ c ∈ o.cells, t.containedCell c = false) → o ∈ (t.gang g).accs)
  lines : (∀ g < s.gangs.length, (s.gang g).resident = true → (s.gang g).liesOn a = false) → ∀ k, a = .computeDie k → (∀ e ∈ t.l1, e.core / 288 ≠ k) ∧ (∀ e ∈ t.l2, e.die ≠ k) ∧ ∀ r ∈ t.regions, r.owner ≠ some k
  taken : ∀ k, a = .computeDie k → (∀ r ∈ s.cleared, r.2.2 ≤ s.dead.length) →
    (∀ r ∈ s.regions, r.owner = some k → ∀ e ∈ s.l2, e.die = k → r.holdsLine e.line = true → ∀ c, r.base ≤ c → c < r.base + r.size →
      128 * e.line ≤ c → c < 128 * e.line + 128 → t.containedCell c = true) ∧
    ∀ e ∈ s.l2, e.die = k → inHost (128 * e.line) = true → ∀ h < 2, e.dirty.extractLsb' (4 * h) 4 ≠ 0 → ∀ c, 128 * e.line + 64 * h ≤ c →
      c < 128 * e.line + 64 * h + 64 → t.containedCell c = true
  stack : ∀ k, a = .stack k → (∀ r ∈ s.cleared, r.2.2 ≤ s.dead.length) → ∀ c, inHbm c = true → stackOf c = k → t.containedCell c = true
  engines : ∀ k, a = .computeDie k ∨ a = .replayEngine k → ∀ o ∈ t.objs, ∀ r ∈ o.reps, r.die = k → r.failed = true

/-- Two regions are the halves of one parent of at most 64 KiB, tracked by one home in one state, with 4,096 operations each (20 R336). -/
def Region.Halves (a b : Region) : Prop :=
  b.home = a.home ∧ b.base = a.base + a.size ∧ b.size = a.size ∧ a.base % (2 * a.size) = 0 ∧ a.size < 65536 ∧
    a.owner = b.owner ∧ (∀ d, d ∈ a.sharers ↔ d ∈ b.sharers) ∧ 4096 ≤ a.ops ∧ 4096 ≤ b.ops

/-- A walk for an address of an address space (20 R323 to R327), where its entries are neither contained nor lost and their lines check: from the ASID table's entry down,
NOMAP for one that is not valid, PTE for a bit that must be 0, a leaf or pointer that the level does not allow, an ADDR out of alignment and a key outside DRAM, PA for a
leaf in a hole, each with its level, 5 for the ASID table; else the page that the leaf maps. -/
def WalkSteps (s : State) (asid va : Nat) : Prop :=
  let reads (pa : Nat) : Prop := s.containedCell pa = false ∧ s.lostCell pa = false ∧ s.paFails (pa / 64) = false
  let addr (e : Nat) : Nat := e / 2 ^ 12 % 2 ^ 32 * 4096
  let root := s.asidTable + 8 * asid
  let top := s.qword root
  (reads root → Decided (s.walk asid va) (s.walkFrom asid va 4 (addr top)) [
    (top % 2 = 0, .error ⟨1, 5, []⟩), (top / 2 % 2 ^ 11 ≠ 0 ∨ top / 2 ^ 44 ≠ 0, .error ⟨2, 5, []⟩)]) ∧
  ∀ level ∈ [1, 2, 3, 4], ∀ table,
    let pa := table + 8 * (va / 2 ^ (3 + 9 * level) % 512)
    let e := s.qword pa
    let leaf : Prop := e / 2 % 2 = 1
    let key := e / 2 ^ 48 % 2 ^ 8
    let size := if level = 1 then 4096 else 2 ^ 21
    let res := s.walkFrom asid va level table
    reads pa →
      Decided res res [
        (e % 2 = 0, .error ⟨1, level, []⟩),
        (e / 2 ^ 56 ≠ 0 ∨ e / 2 ^ 44 % 2 ^ 4 ≠ 0 ∨ e / 2 ^ 6 % 2 ^ 6 ≠ 0 ∨ (e / 2 ^ 5 % 2 = 1 ∧ level ≠ 1), .error ⟨2, level, []⟩),
        ((leaf ∧ 3 ≤ level) ∨ (¬ leaf ∧ (level = 1 ∨ key ≠ 0)), .error ⟨2, level, []⟩),
        (¬ leaf, s.walkFrom asid va (level - 1) (addr e)),
        (addr e % size ≠ 0 ∨ (key ≠ 0 ∧ inHbm (addr e) = false ∧ inCapacity (addr e) = false), .error ⟨2, level, []⟩),
        (inHole (addr e) = true, .error ⟨3, level, []⟩),
        (e / 2 ^ 5 % 2 = 0, .ok { cache := .die 0, asid := asid, vbase := va / size * size, size := size, pbase := addr e, key := key,
                                  r := e.testBit 2, w := e.testBit 3, x := e.testBit 4 })]

/-- The translation of an address for an agent (20 R327, R328): none of 2^48 or more; a cached one that serves it; else what the walk in flight
for its page on its die has found; else what a walk of its own finds. -/
def Translates (s : State) (site : Site) (asid va : Nat) : Prop :=
  let cached := s.tlb.find? fun t => t.cache.serves site && t.covers asid va
  Decided (s.translateAt site asid va) (s.translateAt site asid va) [
    (2 ^ 48 ≤ va, .error ⟨1, 0, []⟩),
    (cached ≠ none, match cached with | some t => .ok t | none => s.walk asid va),
    (∀ w ∈ s.walks, w.started = true → w.asid = asid → w.page = va / 4096 → site.die ≠ some w.die, s.walk asid va)]

/-- The states in which every warp has its 64 lane slots (02 R36, 08 R163). -/
def State.warpsWhole (s : State) : Prop := ∀ G ∈ s.gangs, ∀ W ∈ G.warps, W.lanes.length = warpw

/-- What may differ between a warp and the same warp after an issue of a register form: which lanes wait, where the fibres
of the set stand and when they may go on, the results on their way, and a fault met at issue. -/
structure Warp.KeepsRegisters (W V : Warp) : Prop where
  others : V = { W with lanes := V.lanes, pend := V.pend, cause := V.cause }
  pend : ∃ rs, V.pend = W.pend ++ rs
  lanes : V.lanes.length = W.lanes.length
  lane : ∀ l, V.lane l = { W.lane l with slot := (V.lane l).slot, fib := (V.lane l).fib }
  slot : ∀ l, (V.lane l).slot = (W.lane l).slot ∨ ((W.lane l).slot = .parked .repHold ∧ (V.lane l).slot = .live)
  fibre : ∀ l, (V.lane l).fib = { (W.lane l).fib with pc := (V.lane l).fib.pc, rep := (V.lane l).fib.rep,
                                                      readyAt := (V.lane l).fib.readyAt, yieldAt := (V.lane l).fib.yieldAt }

end Sys2Proof.Machine

namespace Sys2Proof

/-- Whether an instruction is the one that its words name: a status register with a constructor of its own is not named by
the general form (01 R34, 02 R51). -/
def Instr.canonical : Instr → Bool
  | .srd n _ => n != 0x08
  | .swr n _ => n != 0x0B && n != 0x0C && n != 0x11
  | _ => true

end Sys2Proof
end

