-- ==== Sys2Proof/Certificates/Slice0/Obligations.lean ====
section
/-! DEFINITION. The obligations: what the manual's rules say that an instruction, an event or the machine does. -/
open Sys2Proof Sys2Proof.Machine

/-- 05 R92: the arithmetic instructions of the R form. The results are computed on the exact values of a, b and d under TY and
taken modulo 2^w; they land 4 cycles later, the multiplications 6 (04 R81). -/
def Obligations.IntegerArithmeticResults : Prop :=
  ∀ (u : BitVec 1) (t : BitVec 3) (d a b : BitVec 7),
    LaneResults (.iadd u t d a b) 4 (integerForm u t d a b fun _ x y => x + y) ∧
    LaneResults (.isub u t d a b) 4 (integerForm u t d a b fun _ x y => x - y) ∧
    LaneResults (.imul u t d a b) 6 (integerForm u t d a b fun _ x y => x * y) ∧
    LaneResults (.imulh u t d a b) 6 (integerForm u t d a b fun _ x y => x * y / 2 ^ tyWidth t) ∧
    LaneResults (.imad u t d a b) 6 (integerForm u t d a b fun z x y => z + x * y) ∧
    LaneResults (.imin u t d a b) 4 (integerForm u t d a b fun _ x y => min x y) ∧
    LaneResults (.imax u t d a b) 4 (integerForm u t d a b fun _ x y => max x y) ∧
    LaneResults (.iabs t d a) 4 (integerForm 0 t d a a fun _ x _ => |x|)

/-- 05 R92, R93: the bitwise instructions, the counts, the shifts and the bit fields of the R form. Shift counts and field
bounds come from b read as an unsigned number, and shifts do not depend on the sign of TY. -/
def Obligations.LogicAndShiftResults : Prop :=
  ∀ (u : BitVec 1) (t : BitVec 3) (d a b : BitVec 7),
    LaneResults (.andR u t d a b) 4 (unsignedForm u t d a b fun _ x y => (x &&& y : Nat)) ∧
    LaneResults (.orR u t d a b) 4 (unsignedForm u t d a b fun _ x y => (x ||| y : Nat)) ∧
    LaneResults (.xorR u t d a b) 4 (unsignedForm u t d a b fun _ x y => (x ^^^ y : Nat)) ∧
    LaneResults (.andnR u t d a b) 4 (unsignedForm u t d a b fun _ x y => (x &&& (2 ^ tyWidth t - 1 - y) : Nat)) ∧
    LaneResults (.popc t d a) 4 (unsignedForm 0 t d a a fun _ x _ => (onesOf (tyWidth t) x : Nat)) ∧
    LaneResults (.clz t d a) 4 (unsignedForm 0 t d a a fun _ x _ => (tyWidth t - x.size : Nat)) ∧
    LaneResults (.brev t d a) 4 (unsignedForm 0 t d a a fun _ x _ => (reversed (tyWidth t) x : Nat)) ∧
    LaneResults (.shl u t d a b) 4 (unsignedForm u t d a b fun _ x y =>
      if tyWidth t ≤ y % 2 ^ 32 then 0 else (x * 2 ^ (y % 2 ^ 32) : Nat)) ∧
    LaneResults (.shr u t d a b) 4 (unsignedForm u t d a b fun _ x y =>
      if tyWidth t ≤ y % 2 ^ 32 then 0 else (x / 2 ^ (y % 2 ^ 32) : Nat)) ∧
    LaneResults (.sar u t d a b) 4 (unsignedForm u t d a b fun _ x y =>
      if tyWidth t ≤ y % 2 ^ 32 then (if asSigned t x < 0 then -1 else 0) else asSigned t x / 2 ^ (y % 2 ^ 32)) ∧
    LaneResults (.rot u t d a b) 4 (unsignedForm u t d a b fun _ x y =>
      (rotated (tyWidth t) (y % 2 ^ 32 % tyWidth t) x : Nat)) ∧
    LaneResults (.bfx u t d a b) 4 (unsignedForm u t d a b fun _ x y => extracted t x y) ∧
    LaneResults (.bfi u t d a b) 4 (unsignedForm u t d a b fun z x y => inserted t z x y)

/-- 05 R96: the immediate instructions but ICMPI. IADDI extends its immediate by the sign of TY, the bitwise ones always by
its sign, and the shifts take it as an unsigned count. -/
def Obligations.ImmediateResults : Prop :=
  ∀ (t : BitVec 3) (i : BitVec 8) (d a : BitVec 7),
    let m : Int := if t.toNat % 2 = 0 then i.toInt else i.toNat
    LaneResults (.iaddi t i d a) 4 (immediateForm t d a m fun x y => (x + y : Nat)) ∧
    LaneResults (.andi t i d a) 4 (immediateForm t d a i.toInt fun x y => (x &&& y : Nat)) ∧
    LaneResults (.ori t i d a) 4 (immediateForm t d a i.toInt fun x y => (x ||| y : Nat)) ∧
    LaneResults (.xori t i d a) 4 (immediateForm t d a i.toInt fun x y => (x ^^^ y : Nat)) ∧
    LaneResults (.shli t i d a) 4 (immediateForm t d a i.toNat fun x c => if tyWidth t ≤ c then 0 else (x * 2 ^ c : Nat)) ∧
    LaneResults (.shri t i d a) 4 (immediateForm t d a i.toNat fun x c => if tyWidth t ≤ c then 0 else (x / 2 ^ c : Nat)) ∧
    LaneResults (.sari t i d a) 4 (immediateForm t d a i.toNat fun x c =>
      if tyWidth t ≤ c then (if asSigned t x < 0 then -1 else 0) else asSigned t x / 2 ^ c)

/-- 02 R45, 05 R94 to R96: ICMP and ICMPI write one flag register from A - B, and no lane register; IADDC adds with the C of
f0, writes D, and writes f0 from the exact sum. Every write lands 4 cycles later. Of a comparison's flags `.lt`, `.ge`, `.le` and `.gt`
read the operands as signed, `.lo`, `.hs`, `.ls` and `.hi` as unsigned. -/
def Obligations.CompareAndCarryFlags : Prop :=
  ∀ (u : BitVec 1) (t : BitVec 3) (i : BitVec 8) (f : BitVec 2) (d a b : BitVec 7) (c : Cur) (s : State),
    let W := s.warp c.gang c.warp
    (Issues (.icmp u t f a b) c s → ∃ v : Nat → BitVec 4,
      (∀ l, IsCompare (tyWidth t) (W.word t l a.toNat) (W.wordB u t l b.toNat) (v l)) ∧
      exec (.icmp u t f a b) s = .next (s.after (.icmp u t f a b) c 4 (c.issue.map fun l =>
        (.flag l f.toNat, (v l).setWidth 64)))) ∧
    (Issues (.icmpi t i f a) c s → ∃ v : Nat → BitVec 4,
      (∀ l, IsCompare (tyWidth t) (W.word t l a.toNat)
        (((if t.toNat % 2 = 0 then i.toInt else (i.toNat : Int)) % 2 ^ tyWidth t).toNat) (v l)) ∧
      exec (.icmpi t i f a) s = .next (s.after (.icmpi t i f a) c 4 (c.issue.map fun l =>
        (.flag l f.toNat, (v l).setWidth 64)))) ∧
    (Issues (.iaddc u t d a b) c s → ∃ v : Nat → BitVec 4,
      let k (l : Nat) : Nat := if (W.lane l).fib.flags.getLsbD 1 then 1 else 0
      (∀ l, IsAddCarry (tyWidth t) (W.word t l a.toNat) (W.wordB u t l b.toNat) (k l) (v l)) ∧
      exec (.iaddc u t d a b) s = .next (s.after (.iaddc u t d a b) c 4 (c.issue.flatMap fun l =>
        W.gives t l d.toNat (W.word t l a.toNat + W.wordB u t l b.toNat + k l : Nat) ++
          [(.flag l 0, (v l).setWidth 64)]))) ∧
    (∀ (x y : Nat) (v : BitVec 4), x < 2 ^ tyWidth t → y < 2 ^ tyWidth t → IsCompare (tyWidth t) x y v →
      (holds 3 v = true ↔ asSigned t x < asSigned t y) ∧ (holds 4 v = true ↔ asSigned t y ≤ asSigned t x) ∧
      (holds 5 v = true ↔ asSigned t x ≤ asSigned t y) ∧ (holds 6 v = true ↔ asSigned t y < asSigned t x) ∧
      (holds 8 v = true ↔ x < y) ∧ (holds 7 v = true ↔ y ≤ x) ∧ (holds 9 v = true ↔ x ≤ y) ∧ (holds 10 v = true ↔ y < x))

/-- 05 R97, R98: moves and selects. MOVI extends its immediate by its sign or by zeros; MOV copies 32 or 64 bits of a lane register or of an s-register; SEL takes A where
Z of its flag register is 1, and B otherwise. The results land 4 cycles later. -/
def Obligations.MoveAndSelectResults : Prop :=
  ∀ (z u x y : BitVec 1) (i : BitVec 8) (f : BitVec 2) (d a b : BitVec 7),
    LaneResults (.movi z i d) 4 (fun W l =>
      [W.put l d.toNat (if z = 0 then BitVec.ofInt 32 i.toInt else BitVec.ofNat 32 i.toNat)]) ∧
    LaneResults (.mov x y d a) 4 (fun W l =>
      let lo := if x = 1 then (W.s a.toNat).toNat % 2 ^ 32 else (W.get l a.toNat).toNat
      let hi := if x = 1 then (W.s a.toNat).toNat / 2 ^ 32 else (W.get l (a.toNat + 1)).toNat
      W.put l d.toNat (BitVec.ofNat 32 lo) :: (if y = 1 then [W.put l (d.toNat + 1) (BitVec.ofNat 32 hi)] else [])) ∧
    LaneResults (.sel u f d a b) 4 (fun W l =>
      [W.put l d.toNat (if (W.lane l).fib.flags.getLsbD (4 * f.toNat + 2) then W.get l a.toNat
        else if u = 1 then BitVec.ofNat 32 (W.s b.toNat).toNat else W.get l b.toNat)])

/-- 05 R100 to R102: the uniform registers. V2S reads the lowest lane of ISSUE or its mask, SALU computes once on 64-bit
values, SMOVI replaces one byte. -/
def Obligations.UniformRegisterResults : Prop :=
  ∀ (m : BitVec 4) (k : BitVec 3) (i : BitVec 8) (d a b : BitVec 7),
    WarpResults (.salu m d a b) 4 (fun W _ =>
      [(.sreg d.toNat, BitVec.ofInt 64 (saluResult m.toNat (W.s a.toNat).toNat (W.s b.toNat).toNat))]) ∧
    WarpResults (.smovi k i d) 4 (fun W _ =>
      let x := (W.s d.toNat).toNat
      [(.sreg d.toNat, BitVec.ofNat 64 (x - x / 256 ^ k.toNat % 256 * 256 ^ k.toNat + i.toNat * 256 ^ k.toNat))]) ∧
    ∀ (c : Cur) (s : State), Issues (.v2s m d a) c s → ∃ v : DWord,
      (m.toNat = 0 → ∀ l, c.issue.head? = some l → v.toNat = ((s.warp c.gang c.warp).get l a.toNat).toNat) ∧
      (m.toNat = 1 → ∀ l, c.issue.head? = some l →
        v.toNat = ((s.warp c.gang c.warp).get l a.toNat).toNat + 2 ^ 32 * ((s.warp c.gang c.warp).get l (a.toNat + 1)).toNat) ∧
      (m.toNat = 2 → ∀ l, v.getLsbD l = true ↔ l ∈ c.issue) ∧
      exec (.v2s m d a) s = .next (s.after (.v2s m d a) c 6 [(.sreg d.toNat, v)])

/-- 02 R43, R51 to R53, 05 R99, 09 R195, 24 R370, R372: status registers. SRD gives every lane the register's value as the model
holds it, and, in a set on the second port, XALLOC and WSTAT as they stood before the first set issued; SRD of CYC gives the low half of
the count and latches the high half for the warp with the same latency; SWR writes a per-lane register in each lane, and a per-warp one
from the lowest lane of ISSUE, of which TRAPC keeps 16 bits; SLIM is clamped to the launch's stack. The table says what each number
reads: XALLOC holds the warp's blocks and the core's free ones, WSTAT SBCHK, serial and handler mode. -/
def Obligations.StatusRegisterResults : Prop :=
  ∀ (n : BitVec 8) (d a : BitVec 7),
    (∀ (s : State) (g w l : Nat),
      let G := s.gang g
      let W := s.warp g w
      let L := W.lane l
      let core := G.place.id + W.wg
      let die := core / 288
      let col := core / 16 % 18
      let C := s.colOf die col
      let heat := (s.heat.lookup (die * 18 + col)).getD 0
      let bit (b : Bool) : Nat := if b then 1 else 0
      let blocks := ((s.onCore core).map fun p => (s.warp p.1 p.2).x).sum
      ∀ p ∈ [(0x00, l), (0x01, 64), (0x02, W.wid), (0x03, W.wg), (0x04, G.gangid), (0x05, core / 4 % 4), (0x06, col), (0x07, die),
        (0x09, W.cych.toNat), (0x0A, L.latc.toNat), (0x0B, bit W.sbchk + 2 * bit W.serial + 4 * bit W.handler), (0x0C, W.slim.toNat),
        (0x0D, L.sptrSeen.toNat), (0x0E, W.x + 16 * (Config.poolBlocks - blocks)), (0x0F, W.gmiss.toNat), (0x10, W.trapc.toNat),
        (0x11, W.trappc.toNat), (0x12, L.trapaux.toNat), (0x13, L.faddr.toNat), (0x14, heat), (0x15, G.prio), (0x16, G.regid.toNat),
        (0x17, G.asid), (0x40, g), (0x41, min ((s.ecnt.lookup (die * 20 + C.phys)).getD 0) 0xFFFFFFFF), (0x42, C.phys),
        (0x43, C.st + 4 * heat)], s.status g w l p.1 = BitVec.ofNat 32 p.2) ∧
    (∀ (c : Cur) (s : State), Issues (.srd n d) c s → exec (.srd n d) s = .next (s.after (.srd n d) c 4
      (c.issue.map fun l => (s.warp c.gang c.warp).put l d.toNat (match c.before with
        | some (x, w) => if n.toNat = 0x0E then x else if n.toNat = 0x0B then w else s.status c.gang c.warp l n.toNat
        | none => s.status c.gang c.warp l n.toNat)))) ∧
    (∀ (c : Cur) (s : State), Issues (.srdCyc d) c s →
      exec (.srdCyc d) s = .next (s.after (.srdCyc d) c 4 ((c.issue.map fun l =>
        (s.warp c.gang c.warp).put l d.toNat (BitVec.ofNat 32 (s.now c.gang c.warp))) ++
          [(.cych, BitVec.ofNat 64 (s.now c.gang c.warp / 2 ^ 32))]))) ∧
    (∀ (W : Warp) (v : DWord), ((W.land1 .trapc v).trapc).toNat = v.toNat % 2 ^ 16) ∧
    WarpResults (.swr n a) 4 (fun W ls =>
      let low : DWord := BitVec.ofNat 64 (W.get (ls.headD 0) a.toNat).toNat
      if n.toNat = 0x0D then ls.map fun l => (.sptr l, BitVec.ofNat 64 (W.get l a.toNat).toNat)
      else if n.toNat = 0x0F then [(.gmiss, low)]
      else if n.toNat = 0x10 then [(.trapc, low)]
      else if n.toNat = 0x12 then ls.map fun l => (.trapaux l, BitVec.ofNat 64 (W.get l a.toNat).toNat)
      else if n.toNat = 0x13 then ls.map fun l => (.faddr l, BitVec.ofNat 64 (W.get l a.toNat).toNat)
      else []) ∧
    WarpResults (.swrWstat a) 4 (fun W ls => [(.sbchk, BitVec.ofNat 64 (W.get (ls.headD 0) a.toNat).toNat)]) ∧
    (∀ (c : Cur) (s : State), Issues (.swrSlim a) c s → exec (.swrSlim a) s = .next (s.after (.swrSlim a) c 4
      [(.slim, BitVec.ofNat 64 (min ((s.warp c.gang c.warp).get (c.issue.headD 0) a.toNat).toNat
        (s.gang c.gang).launch.stack))])) ∧
    WarpResults (.swrTrappc a) 4 (fun W ls => [(.trappc, BitVec.ofNat 64 (W.get (ls.headD 0) a.toNat).toNat)])

/-- 05 R103 to R107, 02 R46: the floating-point arithmetic. Every element is one correctly rounded operation, packed forms
element by element; FMIN, FMAX and FMOD pass bits through; the latency is 5, and 8 for `.f64` (04 R81). -/
def Obligations.FloatArithmeticResults : Prop :=
  ∀ (t r n o : BitVec 2) (f : BitVec 2) (d a b : BitVec 7),
    let L := if t.toNat = 1 then 8 else 5
    LaneResults (.fadd t r d a b) L (fun W l => W.fRes t d a b (fun _ x y => Num.fadd (fTy t) (rmOf r) x y) l) ∧
    LaneResults (.fsub t r d a b) L (fun W l => W.fRes t d a b (fun _ x y => Num.fsub (fTy t) (rmOf r) x y) l) ∧
    LaneResults (.fmul t r d a b) L (fun W l => W.fRes t d a b (fun _ x y => Num.fmul (fTy t) (rmOf r) x y) l) ∧
    LaneResults (.ffma t r d a b) L (fun W l => W.fRes t d a b (fun z x y => Num.ffma (fTy t) (rmOf r) x y z) l) ∧
    LaneResults (.fmin t n d a b) L (fun W l => W.fRes t d a b (fun _ x y => Num.minmax (fTy t) true (n == 1) x y) l) ∧
    LaneResults (.fmax t n d a b) L (fun W l => W.fRes t d a b (fun _ x y => Num.minmax (fTy t) false (n == 1) x y) l) ∧
    LaneResults (.fmod t o d a b) L (fun W l => W.fRes t d a b (fun _ x y => signChange (fTy t) o.toNat x y) l) ∧
    LaneResults (.frint t r d a) L (fun W l => W.fRes t d a a (fun _ x _ => Num.rint (fTy t) (rmOf r) x) l) ∧
    LaneResults (.fcmp t f a b) L (fun W l => [(.flag l f.toNat, (if t = 1
      then fcmpFlags .f64 (W.get64 l a.toNat).toNat (W.get64 l b.toNat).toNat
      else fcmpFlags .f32 (W.get l a.toNat).toNat (W.get l b.toNat).toNat).setWidth 64)])

/-- 05 R108 to R113, 03 R66 to R68: conversions, special functions and Welford states. The conversions between floats and
integers saturate to the integer type; a conversion to a packed form takes element k from register A + k; `welf` and `wmrg`
read every operand before they write, and a merge whose counts sum to exactly 0 writes nothing. -/
def Obligations.ConversionAndFunctionResults : Prop :=
  ∀ (t r m : BitVec 2) (v : BitVec 4) (q sat : BitVec 1) (p : BitVec 5) (d a k fn : BitVec 7),
    let L := if t.toNat = 1 then 8 else 5
    let sg : Bool := k.toNat % 2 == 0
    let code (W : Warp) (l n : Nat) : Nat := if t = 1 then (W.get64 l n).toNat else (W.get l n).toNat
    LaneResults (.f2i t r d a k) L (fun W l =>
      if 2 ≤ t.toNat then
        [W.put l d.toNat (perElem t (fun _ x _ => f2iVal (fTy t) (rmOf r) 16 sg x) 0 (W.get l a.toNat) 0)]
      else if 2 ≤ k.toNat then W.put64 l d.toNat (BitVec.ofNat 64 (f2iVal (fTy t) (rmOf r) 64 sg (code W l a.toNat)))
      else [W.put l d.toNat (BitVec.ofNat 32 (f2iVal (fTy t) (rmOf r) 32 sg (code W l a.toNat)))]) ∧
    LaneResults (.i2f t r d a k) L (fun W l =>
      if 2 ≤ t.toNat then
        [W.put l d.toNat (perElem t (fun _ x _ => i2fVal (fTy t) (rmOf r) 16 sg x) 0 (W.get l a.toNat) 0)]
      else
        let y := if 2 ≤ k.toNat then i2fVal (fTy t) (rmOf r) 64 sg (W.get64 l a.toNat).toNat
          else i2fVal (fTy t) (rmOf r) 32 sg (W.get l a.toNat).toNat
        if t = 1 then W.put64 l d.toNat (BitVec.ofNat 64 y) else [W.put l d.toNat (BitVec.ofNat 32 y)]) ∧
    LaneResults (.fcvt v d a q sat p) (if v.toNat ≤ 1 then 8 else 5) (fun W l =>
      let rnd := (W.get l p.toNat).toNat
      let e := Num.bits (cvFmt v.toNat)
      if v.toNat = 0 then [W.put l d.toNat (BitVec.ofNat 32
        (Num.conv .f64 .f32 (cvMode q p rnd 32 0) (sat == 1) (W.get64 l a.toNat).toNat))]
      else if v.toNat = 1 then W.put64 l d.toNat (BitVec.ofNat 64 (Num.conv .f32 .f64 .rne false (W.get l a.toNat).toNat))
      else if v.toNat ≤ 6 ∨ v.toNat = 13 then
        [W.put l d.toNat (BitVec.ofNat 32 ((List.range (32 / e)).map fun j =>
          Num.conv .f32 (cvFmt v.toNat) (cvMode q p rnd e j) (sat == 1) (W.get l (a.toNat + j)).toNat * 2 ^ (e * j)).sum)]
      else (List.range (32 / e)).map fun j => W.put l (d.toNat + j)
        (BitVec.ofNat 32 (Num.conv (cvFmt v.toNat) .f32 .rne false ((W.get l a.toNat).toNat / 2 ^ (e * j) % 2 ^ e)))) ∧
    LaneResults (.sfu t m d a fn) 12 (fun W l => W.fRes t d a a (fun _ x _ => Num.sfu (fTy t) (rmOf m) fn.toNat x) l) ∧
    LaneResults (.welf t r d a) (if t.toNat = 1 then 16 else 10) (fun W l =>
      W.putWelford t l d.toNat (welfUpdate (fTy t) (rmOf r) (W.welford t l d.toNat) (code W l a.toNat))) ∧
    LaneResults (.wmrg t r d a) (if t.toNat = 1 then 16 else 10) (fun W l =>
      ((welfMerge (fTy t) (rmOf r) (W.welford t l d.toNat) (W.welford t l a.toNat)).map
        (W.putWelford t l d.toNat)).getD [])

/-- 03 R56 to R59, R61 to R69, 05 R103 to R113, 02 R46: what the helpers of the floating-point instructions do with codes. An arithmetic
result is the exact one of the operands' values, rounded once, and the canonical NaN where an operand is NaN or the operation invalid; a
conversion rounds its source's value; an integer takes the chosen integral value within its range, and a float of an integer is rounded;
FRINT chooses with q = 1; FMIN and FMAX order -0 below +0; FMOD changes the sign alone; the flags of a comparison; the reciprocal, the
roots and the special cases of the others; and the sums of a Welford state. Of the other values of `.exp2`, `.log2`, `.sin`, `.cos` and `.tanh`
nothing is said here: the model's series are not proved (log 13), and which of two bracketing values a faithful function takes is free (log 8). -/
def Obligations.FloatingPointHelpers : Prop :=
  ∀ (f h : Num.Fmt) (rm : Num.Rm) (sat : Bool) (a b c : Nat) (u v w : ℝ),
    let R := fmtRow f
    let S := signOf f
    let down := decide (rm = .rdn)
    a < 2 ^ R.width → b < 2 ^ R.width → c < 2 ^ R.width →
    -- conversions (03 R61, R64 to R67)
    (NanCode f a → Num.conv f h rm sat a = (fmtRow h).nan) ∧
    (∀ s, InfCode f s a → Num.conv f h rm sat a = if sat then withSign h s (fmtRow h).largest else beyondOf h s) ∧
    (CodeIs f a u →
      (u = 0 → Num.conv f h rm sat a = if h = .e8m0 then 0xFF else withSign h (S a) 0) ∧
      (u < 0 → h = .e8m0 → Num.conv f h rm sat a = 0xFF) ∧
      (u < 0 → h ≠ .e8m0 → Rounded h rm sat true (-u) (Num.conv f h rm sat a)) ∧
      (0 < u → Rounded h rm sat false u (Num.conv f h rm sat a))) ∧
    -- arithmetic (05 R103, 03 R61 to R65, R69)
    (f ≠ .e8m0 →
      (NanCode f a ∨ NanCode f b → Num.fadd f rm a b = R.nan ∧ Num.fsub f rm a b = R.nan ∧ Num.fmul f rm a b = R.nan ∧
        Num.fdiv f rm a b = R.nan ∧ Num.ffma f rm a b c = R.nan ∧ Num.ffnma f rm a b c = R.nan) ∧
      (NanCode f c → Num.ffma f rm a b c = R.nan ∧ Num.ffnma f rm a b c = R.nan) ∧
      (NanCode f a → Num.fsqrt f rm a = R.nan) ∧
      Num.fadd f rm a b = Num.fadd f rm b a ∧ Num.fmul f rm a b = Num.fmul f rm b a ∧
      (∀ s, InfCode f s a →
        (CodeIs f b v ∨ InfCode f s b → Num.fadd f rm a b = a) ∧ (InfCode f (!s) b → Num.fadd f rm a b = R.nan) ∧
        (CodeIs f b v ∨ InfCode f (!s) b → Num.fsub f rm a b = a) ∧ (InfCode f s b → Num.fsub f rm a b = R.nan) ∧
        (CodeIs f b v → v = 0 → Num.fmul f rm a b = R.nan) ∧
        (CodeIs f b v → v ≠ 0 → Num.fmul f rm a b = beyondOf f (s != S b)) ∧
        (CodeIs f b v → Num.fdiv f rm a b = beyondOf f (s != S b) ∧ Num.fdiv f rm b a = withSign f (s != S b) 0 ∧
          Num.fsub f rm b a = beyondOf f !s) ∧
        (∀ t, InfCode f t b → Num.fmul f rm a b = beyondOf f (s != t) ∧ Num.fdiv f rm a b = R.nan) ∧
        Num.fsqrt f rm a = if s then R.nan else a) ∧
      (∀ s, InfCode f s a →
        (CodeIs f b v → v = 0 → Num.ffma f rm a b c = R.nan ∧ Num.ffnma f rm a b c = R.nan) ∧
        ∀ p, ((CodeIs f b v ∧ v ≠ 0 ∧ p = (s != S b)) ∨ ∃ t, InfCode f t b ∧ p = (s != t)) →
          (CodeIs f c w ∨ InfCode f p c → Num.ffma f rm a b c = beyondOf f p) ∧
          (InfCode f (!p) c → Num.ffma f rm a b c = R.nan) ∧
          (CodeIs f c w ∨ InfCode f (!p) c → Num.ffnma f rm a b c = beyondOf f !p) ∧
          (InfCode f p c → Num.ffnma f rm a b c = R.nan)) ∧
      (∀ s, InfCode f s c → CodeIs f a u → CodeIs f b v → Num.ffma f rm a b c = c ∧ Num.ffnma f rm a b c = c) ∧
      Num.ffma f rm a b c = Num.ffma f rm b a c ∧ Num.ffnma f rm a b c = Num.ffnma f rm b a c ∧
      (CodeIs f a u → CodeIs f b v →
        RoundsTo f rm (u + v) (if S a = S b then S a else down) (Num.fadd f rm a b) ∧
        RoundsTo f rm (u - v) (if S a ≠ S b then S a else down) (Num.fsub f rm a b) ∧
        RoundsTo f rm (u * v) (S a != S b) (Num.fmul f rm a b) ∧
        (v ≠ 0 → RoundsTo f rm (u / v) (S a != S b) (Num.fdiv f rm a b)) ∧
        (v = 0 → u ≠ 0 → Num.fdiv f rm a b = beyondOf f (S a != S b)) ∧
        (v = 0 → u = 0 → Num.fdiv f rm a b = R.nan) ∧
        (u < 0 → Num.fsqrt f rm a = R.nan) ∧ (u = 0 → Num.fsqrt f rm a = a) ∧
        (0 < u → Rounded f rm false false (Real.sqrt u) (Num.fsqrt f rm a)) ∧
        (CodeIs f c w →
          RoundsTo f rm (u * v + w) (if (S a != S b) = S c then S c else down) (Num.ffma f rm a b c) ∧
          RoundsTo f rm (w - u * v) (if (S a != S b) ≠ S c then S c else down) (Num.ffnma f rm a b c)))) ∧
    -- integers and integral values (03 R68, 05 R107)
    (∀ n sg, 0 < n →
      let lo : Int := if sg then -(2 ^ (n - 1)) else 0
      let hi : Int := if sg then 2 ^ (n - 1) - 1 else 2 ^ n - 1
      (NanCode f a → f2iVal f rm n sg a = 0) ∧
      (∀ s, InfCode f s a → (f2iVal f rm n sg a : Int) = (if s then lo else hi) % 2 ^ n) ∧
      (CodeIs f a u → ∃ k : Nat, Chosen rm (decide (u < 0)) |u| k ∧
        (f2iVal f rm n sg a : Int) = max lo (min hi (if u < 0 then -(k : Int) else k)) % 2 ^ n) ∧
      (∀ x : Nat, x < 2 ^ n → f ≠ .e8m0 →
        RoundsTo f rm ((if sg ∧ 2 ^ (n - 1) ≤ x then (x : Int) - 2 ^ n else x : Int) : ℝ) false (i2fVal f rm n sg x))) ∧
    (f ≠ .e8m0 →
      (NanCode f a → Num.rint f rm a = R.nan) ∧ (∀ s, InfCode f s a → Num.rint f rm a = a) ∧
      (CodeIs f a u → (2 ^ R.frac ≤ |u| → Num.rint f rm a = a) ∧
        (|u| < 2 ^ R.frac → ∃ k : Nat, Chosen rm (S a) |u| k ∧
          CodeIs f (Num.rint f rm a) (if S a then -(k : ℝ) else k) ∧ S (Num.rint f rm a) = S a))) ∧
    -- the lesser and the greater, signs and comparisons (05 R104, R106, 02 R46)
    (f ≠ .e8m0 →
      (∀ least n, Num.minmax f least n a b = Num.minmax f least n b a) ∧
      (∀ least, (NanCode f a → Num.minmax f least true a b = R.nan) ∧
        (NanCode f a → ¬ NanCode f b → Num.minmax f least false a b = b) ∧
        (NanCode f a → NanCode f b → Num.minmax f least false a b = R.nan)) ∧
      (∀ n, (CodeIs f a u → CodeIs f b v → u < v ∨ (u = v ∧ S a = true) →
          Num.minmax f true n a b = a ∧ Num.minmax f false n a b = b) ∧
        (InfCode f true a → ¬ NanCode f b → Num.minmax f true n a b = a ∧ Num.minmax f false n a b = b) ∧
        (InfCode f false a → ¬ NanCode f b → Num.minmax f true n a b = b ∧ Num.minmax f false n a b = a)) ∧
      signChange f 0 a b = a % 2 ^ (R.width - 1) ∧
      signChange f 1 a b = (a + 2 ^ (R.width - 1)) % 2 ^ R.width ∧
      signChange f 2 a b = a % 2 ^ (R.width - 1) + b / 2 ^ (R.width - 1) * 2 ^ (R.width - 1) ∧
      (NanCode f a ∨ NanCode f b → fcmpFlags f a b = 0b0011) ∧
      (CodeIs f a u → CodeIs f b v → fcmpFlags f a b = if u < v then 0b1000 else if u = v then 0b0110 else 0b0010) ∧
      (∀ s, InfCode f s a → CodeIs f b v → fcmpFlags f a b = if s then 0b1000 else 0b0010) ∧
      (∀ s, CodeIs f a u → InfCode f s b → fcmpFlags f a b = if s then 0b0010 else 0b1000) ∧
      (∀ s t, InfCode f s a → InfCode f t b → fcmpFlags f a b = if s = t then 0b0110 else if s then 0b1000 else 0b0010)) ∧
    -- special functions (05 R110, R111)
    (f = .f32 ∨ f = .f16 →
      (∀ fn < 8, NanCode f a → Num.sfu f rm fn a = R.nan) ∧
      (CodeIs f a u →
        (u ≠ 0 → RoundsTo f rm (1 / u) false (Num.sfu f rm 0 a)) ∧ (u = 0 → Num.sfu f rm 0 a = beyondOf f (S a)) ∧
        (0 < u → Rounded f rm false false (1 / Real.sqrt u) (Num.sfu f rm 1 a)) ∧ (u = 0 → Num.sfu f rm 1 a = beyondOf f (S a)) ∧
        (0 < u → Rounded f rm false false (Real.sqrt u) (Num.sfu f rm 2 a)) ∧ (u = 0 → Num.sfu f rm 2 a = a) ∧
        (u < 0 → ∀ fn ∈ [1, 2, 4], Num.sfu f rm fn a = R.nan) ∧
        (∀ k : Int, u = k → |k| < 4096 → Rounded f rm false false ((2 : ℝ) ^ k) (Num.sfu f rm 3 a)) ∧
        (∀ k : Int, u = (2 : ℝ) ^ k → RoundsTo f rm k false (Num.sfu f rm 4 a)) ∧
        (u = 0 → Num.sfu f rm 4 a = beyondOf f true ∧ Num.sfu f rm 5 a = a ∧ CodeIs f (Num.sfu f rm 6 a) 1 ∧ Num.sfu f rm 7 a = a)) ∧
      (∀ s, InfCode f s a → Num.sfu f rm 0 a = withSign f s 0 ∧ Num.sfu f rm 1 a = (if s then R.nan else 0) ∧
        Num.sfu f rm 2 a = (if s then R.nan else a) ∧ Num.sfu f rm 3 a = (if s then 0 else a) ∧
        Num.sfu f rm 4 a = (if s then R.nan else a) ∧ Num.sfu f rm 5 a = R.nan ∧ Num.sfu f rm 6 a = R.nan ∧
        CodeIs f (Num.sfu f rm 7 a) (if s then -1 else 1))) ∧
    -- Welford states (05 R112, R113)
    (∀ n mu m2 one, f ≠ .e8m0 → one < 2 ^ R.width → CodeIs f one 1 →
      welfUpdate f rm [n, mu, m2] a =
        (let n' := Num.fadd f rm n one
         let dl := Num.fsub f rm a mu
         let mu' := Num.fadd f rm mu (Num.fdiv f rm dl n')
         [n', mu', Num.ffma f rm dl (Num.fsub f rm a mu') m2])) ∧
    (∀ na ma qa nb mb qb, f ≠ .e8m0 → na < 2 ^ R.width → nb < 2 ^ R.width →
      (CodeIs f na u → CodeIs f nb v → u + v = 0 → welfMerge f rm [na, ma, qa] [nb, mb, qb] = none) ∧
      ((∀ x y, CodeIs f na x → CodeIs f nb y → x + y ≠ 0) → welfMerge f rm [na, ma, qa] [nb, mb, qb] = some
        (let n := Num.fadd f rm na nb
         let dl := Num.fsub f rm mb ma
         let k := Num.fdiv f rm nb n
         [n, Num.ffma f rm dl k ma, Num.ffma f rm (Num.fmul f rm dl dl) (Num.fmul f rm na k) (Num.fadd f rm qa qb)])))

/-- 05 R114 to R117: shuffles, pushes and votes read only lanes of ISSUE. A shuffle gives a lane the A of its source lane, or
0; the source lies in the lane's segment: at an index, so far below or above it, or at its number with bits changed; where several lanes push to one the highest wins, and `.cm` marks every lane that two or more name; a vote's members are
the lanes of sB. -/
def Obligations.CrossLaneResults : Prop :=
  ∀ (m f k : BitVec 2) (g : BitVec 8) (cm : BitVec 1) (n : BitVec 3) (d a b : BitVec 7),
    let source (g i : Nat) : Nat :=
      let S := if g / 64 = 0 then 64 else if g / 64 = 1 then 32 else if g / 64 = 2 then 16 else 8
      let b := i / S * S
      let c := g % 64
      if m.toNat = 0 then b + c % S
      else if m.toNat = 1 then (if b + c ≤ i then i - c else i)
      else if m.toNat = 2 then (if i + c < b + S then i + c else i)
      else b + ((i - b) ^^^ (c % S))
    WarpResults (.shfl m d a b) 6 (fun W ls => ls.map fun i =>
      let src := source ((W.get i b.toNat).toNat % 256) i
      W.put i d.toNat (if src ∈ ls then W.get src a.toNat else 0)) ∧
    WarpResults (.shfli m g d a) 6 (fun W ls => ls.map fun i =>
      let src := source g.toNat i
      W.put i d.toNat (if src ∈ ls then W.get src a.toNat else 0)) ∧
    (∀ (c : Cur) (s : State), Issues (.shpush cm n d a b) c s →
      let W := s.warp c.gang c.warp
      let names (j : Nat) : List Nat := c.issue.filter fun i => (W.get i b.toNat).toNat % 64 = j
      ∃ mask : DWord, (∀ j, mask.getLsbD j = true ↔ 2 ≤ (names j).length) ∧
        exec (.shpush cm n d a b) s = .next (s.after (.shpush cm n d a b) c 6
          ((c.issue.flatMap fun j => ((names j).getLast?.map fun i => W.put j d.toNat (W.get i a.toNat)).toList) ++
            if cm = 1 then [(.sreg (56 + n.toNat), mask)] else []))) ∧
    (∀ (c : Cur) (s : State), Issues (.vote f k d a b) c s →
      let W := s.warp c.gang c.warp
      let member (l : Nat) : Prop := l < 64 ∧ (W.s b.toNat).getLsbD l = true
      let yes (l : Nat) : Prop := member l ∧ l ∈ c.issue ∧ W.get l a.toNat ≠ 0
      ∃ (v : BitVec 4) (w : DWord),
        Flags4 v False
          (if k.toNat = 0 then ∀ l, member l → yes l
           else if k.toNat = 2 then (∀ l, member l → yes l) ∨ ∀ l, ¬ yes l
           else ∃ l, yes l)
          (∃ l, yes l) (∃ l, member l ∧ l ∉ c.issue) ∧
        (∀ l, w.getLsbD l = true ↔ yes l) ∧
        exec (.vote f k d a b) s = .next (s.after (.vote f k d a b) c 6
          ((c.issue.map fun l => (.flag l f.toNat, v.setWidth 64)) ++ if k.toNat = 3 then [(.sreg d.toNat, w)] else [])))

/-- 05 R118, 03 R71, 04 R84: LRED and LSCAN complete in every lane of ISSUE with scoreboarded results that land 18 cycles later. LRED
gives every lane the value at the root of the tree of R71 over the members' values, with the operation's identity in every other lane,
and LSCAN gives a lane its place in the prefix tree; for an integer sum these are the sum of the members' values and the sum over the
members up to the lane. That a lane that is no member takes part with the identity, also in a `.f32` minimum or maximum whose members are
all NaN, is the model's choice (log 83). -/
def Obligations.ReductionResults : Prop :=
  ∀ (o t : BitVec 2) (d a b : BitVec 7) (c : Cur) (s : State),
    let W := s.warp c.gang c.warp
    let member (l : Nat) : Bool := (W.s b.toNat).getLsbD l
    let val (l : Nat) : Nat := if t.toNat = 3 then (W.get64 l a.toNat).toNat else (W.get l a.toNat).toNat
    let x (l : Nat) : Nat := if c.issue.contains l && member l then val l else reduceIdentity o.toNat t.toNat
    let f := reduceNumbers o.toNat t.toNat
    let lands (i : Instr) (r : Nat → DWord) : State :=
      (s.advance i c).mapWarp c.gang c.warp fun V => V.postSb (s.now c.gang c.warp) 18 c.issue
        (c.issue.flatMap fun l => if t = 3 then W.put64 l d.toNat (r l) else [W.put l d.toNat (BitVec.ofNat 32 (r l).toNat)])
    let w := if t.toNat = 3 then 64 else 32
    (Issues (.lred o t d a b) c s → ∃ r : Nat → DWord, exec (.lred o t d a b) s = .next (lands (.lred o t d a b) r) ∧
      (∀ l, (r l).toNat % 2 ^ w = reduceTree f x 6 0 % 2 ^ w) ∧
      (o.toNat = 0 → t.toNat ≠ 2 → ∀ l, (r l).toNat % 2 ^ w = ((c.issue.filter member).map val).sum % 2 ^ w)) ∧
    (Issues (.lscan o t d a b) c s → ∃ r : Nat → DWord, exec (.lscan o t d a b) s = .next (lands (.lscan o t d a b) r) ∧
      (∀ l ∈ c.issue, (r l).toNat % 2 ^ w = scanTree f x 6 l % 2 ^ w) ∧
      (o.toNat = 0 → t.toNat ≠ 2 → ∀ l ∈ c.issue,
        (r l).toNat % 2 ^ w = (((c.issue.filter member).filter (· ≤ l)).map val).sum % 2 ^ w))

/-- 09 R190 to R194: the register blocks. WBASE moves the window by 8 registers a unit, and faults REG.WINDOW where a lane's
window would leave its space; XACQ is refused at once beyond 12 blocks and otherwise joins the core's queue with its lanes
parked; XREL gives the highest blocks back, and faults where the warp has fewer, or a fibre's window would lie above the space that is
left; after either the core's queue is examined at once. In handler mode XACQ and XREL fault CTRL.HMODE (24 R373). XQRY reads the queue's
length, the pool and the warp's blocks: that a number beyond its field's range shows as the greatest of the range is the model's choice (log
80), and so is that XREL checks the fibres' own W, not one that a `regs.wbase` is still to write (log 89). -/
def Obligations.RegisterBlockInstructions : Prop :=
  ∀ (i : BitVec 8) (d : BitVec 7) (c : Cur) (s : State),
    let W := s.warp c.gang c.warp
    let core := s.coreOf c.gang c.warp
    (Issues (.regsWbase i) c s →
      ((∀ l ∈ c.issue, 0 ≤ ((W.lane l).fib.w : Int) + 8 * i.toInt ∧
          ((W.lane l).fib.w : Int) + 8 * i.toInt + 8 ≤ 64 + 32 * W.x) →
        exec (.regsWbase i) s = .next (s.after (.regsWbase i) c 4 (c.issue.map fun l =>
          (.wbase l, BitVec.ofInt 64 ((W.lane l).fib.w + 8 * i.toInt))))) ∧
      ((∃ l ∈ c.issue, ((W.lane l).fib.w : Int) + 8 * i.toInt < 0 ∨
          64 + 32 * W.x < ((W.lane l).fib.w : Int) + 8 * i.toInt + 8) →
        exec (.regsWbase i) s = .next (s.faulted c (flt 3 1)))) ∧
    (Issues (.regsXacq i) c s → W.handler = false →
      (12 < W.x + i.toNat → exec (.regsXacq i) s = .next (s.scoreboards (.regsXacq i) c []
        (c.issue.map fun l => (.flag l 0, 1)))) ∧
      (W.x + i.toNat ≤ 12 → exec (.regsXacq i) s = .next
        ((((s.parks (.regsXacq i) c c.issue (.xacq s.nextId)).setCore { s.coreSt core with
          xacq := (s.coreSt core).xacq ++ [(s.nextId, c.gang, c.warp, i.toNat)] }).waitsWith c.gang
            { s.newWork c (.regsXacq i) [] [] with awaits := c.issue.map fun l => .flag l 0, mark := 1 }).examine core))) ∧
    (Issues (.regsXrel i) c s → W.handler = false →
      (i.toNat ≤ W.x → (∀ l, (W.lane l).holds = true → (W.lane l).fib.w + 8 ≤ 64 + 32 * (W.x - i.toNat)) →
        exec (.regsXrel i) s = .next (((s.advance (.regsXrel i) c).mapWarp c.gang c.warp fun V =>
          { V.mapAll (fun _ L => { L with regs := L.regs.take (64 + 32 * (W.x - i.toNat)) }) with x := W.x - i.toNat }).examine core)) ∧
      (i.toNat ≤ W.x → (∃ l ∈ laneIds, (W.lane l).holds = true ∧ 64 + 32 * (W.x - i.toNat) < (W.lane l).fib.w + 8) →
        exec (.regsXrel i) s = .next (s.faulted c (flt 3 1))) ∧
      (W.x < i.toNat → exec (.regsXrel i) s = .next (s.faulted c (flt 3 2)))) ∧
    (W.handler = true → (Issues (.regsXacq i) c s → exec (.regsXacq i) s = .next (s.faulted c (flt 4 3))) ∧
      (Issues (.regsXrel i) c s → exec (.regsXrel i) s = .next (s.faulted c (flt 4 3)))) ∧
    (Issues (.regsXqry d) c s → exec (.regsXqry d) s = .next (s.scoreboards (.regsXqry d) c [] (c.issue.map fun l =>
      W.put l d.toNat (BitVec.ofNat 32 (512 * min (s.coreSt core).xacq.length 24 + 16 * min (s.poolFree core) 16 + min W.x 12)))))

/-- 09 R191, R192, R40: the request queue of a core. The oldest request is granted while it fits: its warp grows by the blocks, whose
registers read 0, its lanes go on with f0 = Z, it leaves the queue, the others keep their order and the queue is examined again. An
oldest request that does not fit, or would take blocks that pre-emption holds for another gang (22 R364), keeps the queue as it is, but
where no fibre of the core can go on the youngest request is refused with f0 = 0. While the region's blocks make accesses wait the request waits, and the turn
only starts the walks and lets the banks thaw (20 R345). That a request whose warp would meanwhile hold more than
12 blocks is refused at the grant with f0 = V is the model's choice (log 80), and so is what a hold covers (log 56). -/
def Obligations.RegisterBlockGrant : Prop :=
  ∀ (core : Nat) (s : State),
    let q := (s.coreSt core).xacq
    let grant := Instr.regsXacqGrant core
    let fits (g w n : Nat) : Prop := n ≤ s.blocksFor core g ∧
      s.keepsRoom (s.mapWarp g w fun V => V.grow n) g (core / 16) = true
    let lets (t : State) (id g w : Nat) (more : List Word) (f0 : BitVec 4) : Prop :=
      ∀ l < (s.warp g w).lanes.length,
        ((t.warp g w).lane l).regs = ((s.warp g w).lane l).regs ++ more ∧
        (((s.warp g w).lane l).slot = .parked (.xacq id) → ((t.warp g w).lane l).slot = .live ∧
          flagOf ((t.warp g w).lane l).fib.flags 0 = f0)
    let stuck : Prop := ∀ p ∈ s.onCore core, ∀ l ∈ laneIds, match ((s.warp p.1 p.2).lane l).slot with
      | .live | .parked (.waitc ..) | .parked (.mwait ..) | .parked (.sync _) => False
      | _ => True
    (q = [] → exec grant s = .next s) ∧
    (∀ id g w n rest, q = (id, g, w, n) :: rest → (∀ r ∈ rest, r.1 ≠ id) → g < s.gangs.length → w < (s.gang g).warps.length →
      ((s.warp g w).x + n ≤ 12 → s.blocksHeld g = false → fits g w n → ∃ u, exec grant s = exec grant u ∧
        (u.coreSt core).xacq = rest ∧ (u.warp g w).x = (s.warp g w).x + n ∧
        lets u id g w (List.replicate (32 * n) 0) 4) ∧
      (12 < (s.warp g w).x + n → ∃ u, exec grant s = exec grant u ∧
        (u.coreSt core).xacq = rest ∧ (u.warp g w).x = (s.warp g w).x ∧ lets u id g w [] 1) ∧
      ((s.warp g w).x + n ≤ 12 → s.blocksHeld g = false → ¬ fits g w n → ¬ stuck → exec grant s = .next s) ∧
      ((s.warp g w).x + n ≤ 12 → s.blocksHeld g = true → ¬ stuck →
        exec grant s = .next (s.wakeSpans (s.pathRows 8 (s.gang g).region)))) ∧
    (∀ id g w n old, q = old ++ [(id, g, w, n)] → (∀ r ∈ old, r.1 ≠ id) → g < s.gangs.length → w < (s.gang g).warps.length →
      (∀ r, q.head? = some r → (s.warp r.2.1 r.2.2.1).x + r.2.2.2 ≤ 12 ∧ ¬ fits r.2.1 r.2.2.1 r.2.2.2) → stuck →
      (∀ r ∈ q, s.blocksHeld r.2.1 = false) →
      ∃ t, exec grant s = .next t ∧ (t.coreSt core).xacq = old ∧ (t.warp g w).x = (s.warp g w).x ∧ lets t id g w [] 0)

/-- 09 R195 to R197: frames. FENTER and FLEAVE move SPTR by 16 bytes a unit, FRM moves words between registers and the frame
slot below SPTR; the lowest lane whose SPTR or frame slot would leave 0 to SLIM, or whose SPTR is no multiple of
4, faults CTRL.STACK for the warp with its SPTR, or its slot's base, in FADDR. That a base below 0 stands there modulo 2^32 is the model's
choice (log 81), and so is that the frame instructions see each move of SPTR at once, and SRD 4 cycles later (log 22). -/
def Obligations.StackFrameInstructions : Prop :=
  ∀ (n : BitVec 8) (m k : BitVec 4) (d : BitVec 7) (c : Cur) (s : State),
    let W := s.warp c.gang c.warp
    let sp (l : Nat) : Nat := (W.lane l).sptr.toNat
    let low (l : Nat) : Nat := sp l - 64 * (k.toNat + 1)
    (Issues (.fenter n) c s → (∀ l ∈ c.issue, sp l + 16 * n.toNat ≤ W.slim.toNat ∧ sp l % 4 = 0) →
      exec (.fenter n) s = .next ((s.advance (.fenter n) c).moveSptr c fun L => L.sptr + BitVec.ofNat 32 (16 * n.toNat))) ∧
    (Issues (.fleave n) c s → (∀ l ∈ c.issue, 16 * n.toNat ≤ sp l ∧ sp l % 4 = 0) →
      exec (.fleave n) s = .next ((s.advance (.fleave n) c).moveSptr c fun L => L.sptr - BitVec.ofNat 32 (16 * n.toNat))) ∧
    (Issues (.frmLd m k d) c s →
      (∀ l ∈ c.issue, 64 * (k.toNat + 1) ≤ sp l ∧ low l + 4 * (m.toNat + 1) ≤ W.slim.toNat ∧ sp l % 4 = 0) →
      exec (.frmLd m k d) s = .next (s.scoreboards (.frmLd m k d) c [] (c.issue.flatMap fun l =>
        (List.range (m.toNat + 1)).map fun j =>
          W.put l (d.toNat + j) (BitVec.ofNat 32 (leNat (Memory.bytes (W.lane l).stack (low l + 4 * j) 4)))))) ∧
    (Issues (.frmSt m k d) c s →
      (∀ l ∈ c.issue, 64 * (k.toNat + 1) ≤ sp l ∧ low l + 4 * (m.toNat + 1) ≤ W.slim.toNat ∧ sp l % 4 = 0) →
      exec (.frmSt m k d) s = .next ((s.advance (.frmSt m k d) c).mapWarp c.gang c.warp fun V =>
        V.mapLanes c.issue fun l L => { L with stack := (Memory.putBytes L.stack (low l)
          ((List.range (m.toNat + 1)).flatMap fun j => leBytes 4 (W.get l (d.toNat + j)).toNat)) })) ∧
    (∀ l, Issues (.fenter n) c s →
      c.issue.find? (fun l => decide (W.slim.toNat < sp l + 16 * n.toNat ∨ sp l % 4 ≠ 0)) = some l →
      exec (.fenter n) s = .next (s.faulted c (fltAt 4 1 l 0 (W.lane l).sptr))) ∧
    (∀ l, Issues (.fleave n) c s → c.issue.find? (fun l => decide (sp l < 16 * n.toNat ∨ sp l % 4 ≠ 0)) = some l →
      exec (.fleave n) s = .next (s.faulted c (fltAt 4 1 l 0 (W.lane l).sptr))) ∧
    (∀ l, c.issue.find? (fun l => decide (sp l < 64 * (k.toNat + 1) ∨ W.slim.toNat < low l + 4 * (m.toNat + 1) ∨
        sp l % 4 ≠ 0)) = some l →
      (Issues (.frmLd m k d) c s → exec (.frmLd m k d) s =
        .next (s.faulted c (fltAt 4 1 l 0 (BitVec.ofInt 32 ((sp l : Int) - 64 * (k.toNat + 1)))))) ∧
      (Issues (.frmSt m k d) c s → exec (.frmSt m k d) s =
        .next (s.faulted c (fltAt 4 1 l 0 (BitVec.ofInt 32 ((sp l : Int) - 64 * (k.toNat + 1)))))))

/-- 09 R199 to R201: loads of cluster memory and firn. Each lane's element is read at its offset and converted; an offset past
the share faults RANGE and a misaligned one ALIGN, of class CMEM or FIRN, in the lowest such lane with its offset in FADDR. That of an
offset of 2^32 or more FADDR holds the low 32 bits is the model's choice (log 81). -/
def Obligations.ShareLoadResults : Prop :=
  ∀ (f : BitVec 4) (g : BitVec 3) (i : BitVec 8) (d a b : BitVec 7),
    ShareLoads (.ldl f d a b) false f.toNat d.toNat (fun W l => (W.get l a.toNat).toNat + (W.get l b.toNat).toNat) ∧
    ShareLoads (.ldf f d a b) true f.toNat d.toNat (fun W l => (W.get l a.toNat).toNat + (W.get l b.toNat).toNat) ∧
    ShareLoads (.ldli g i d a) false (iFmt g.toNat) d.toNat
      (fun W l => (W.get l a.toNat).toNat + esize (iFmt g.toNat) * i.toNat)

/-- 09 R199 to R201: stores to cluster memory and firn write exactly the bytes of each lane's element at its offset; no other
byte of the shares or of memory changes. The faults are those of the loads; that of an offset of 2^32 or more FADDR holds the low 32 bits is
the model's choice (log 81). -/
def Obligations.ShareStoreEffects : Prop :=
  ∀ (f : BitVec 4) (g : BitVec 3) (i : BitVec 8) (d a b : BitVec 7),
    ShareStores (.stl f d a b) false f.toNat d.toNat (fun W l => (W.get l a.toNat).toNat + (W.get l b.toNat).toNat) ∧
    ShareStores (.stf f d a b) true f.toNat d.toNat (fun W l => (W.get l a.toNat).toNat + (W.get l b.toNat).toNat) ∧
    ShareStores (.stli g i d a) false (iFmt g.toNat) d.toNat
      (fun W l => (W.get l a.toNat).toNat + esize (iFmt g.toNat) * i.toNat)

/-- 09 R202 to R204: tile instructions. DEF takes the lowest free number, or gives -1 where the table is full, or has only entries that
pre-emption holds for another gang (22 R364); QRY gives the state's code; SET makes a tile ready or empty; FREE undefines it; a number
that is not defined faults TILE.NUM, a DEF whose descriptor is bad TILE.DESC, and one whose tile leaves the share CMEM.RANGE. That the
registers that DEF and QRY write are scoreboarded is the model's choice (log 16), and so is what a hold covers (log 56). -/
def Obligations.TileInstructions : Prop :=
  ∀ (v : BitVec 1) (d a : BitVec 7) (c : Cur) (s : State),
    let G := s.gang c.gang
    let W := G.warp c.warp
    let x := W.s a.toNat
    let u := s.advance (.tileDef d a) c
    let put (n : Nat) : State := u.mapGang c.gang fun H => { H with tiles := H.tiles ++ [{ num := n, desc := x, st := .empty }] }
    let kept (n : Nat) : Bool := u.keepsRoom (put n) c.gang (s.coreOf c.gang c.warp / 16)
    (Issues (.tileDef d a) c s → tileTf x < 8 → fld x 48 16 = 0 → fld x 20 8 = 0 →
      tileBase x + tileBytes x ≤ G.launch.cmem →
      (∀ n < 256, G.tile? n = none → (∀ m < n, (G.tile? m).isSome) → s.tilesUsed G < 256 →
        (kept n = true → exec (.tileDef d a) s = .next ((put n).await
          (s.newWork c (.tileDef d a) [] []) [(.sreg d.toNat, BitVec.ofNat 64 n)])) ∧
        (kept n = false → exec (.tileDef d a) s = .next (s.scoreboards (.tileDef d a) c []
          [(.sreg d.toNat, BitVec.ofInt 64 (-1))]))) ∧
      (256 ≤ s.tilesUsed G → exec (.tileDef d a) s = .next (s.scoreboards (.tileDef d a) c []
        [(.sreg d.toNat, BitVec.ofInt 64 (-1))]))) ∧
    (Issues (.tileDef d a) c s →
      (8 ≤ tileTf x ∨ fld x 48 16 ≠ 0 ∨ fld x 20 8 ≠ 0 → exec (.tileDef d a) s = .next (s.faulted c (flt 7 3))) ∧
      (tileTf x < 8 → fld x 48 16 = 0 → fld x 20 8 = 0 → G.launch.cmem < tileBase x + tileBytes x →
        exec (.tileDef d a) s = .next (s.faulted c (flt 8 1)))) ∧
    (∀ t, G.tileNum x = some t →
      (Issues (.tileQry d a) c s → exec (.tileQry d a) s = .next (s.scoreboards (.tileQry d a) c []
        (c.issue.map fun l => W.put l d.toNat (BitVec.ofNat 32
          (match t.st with | .empty => 0 | .filling => 1 | .ready => 2 | .draining => 3))))) ∧
      (Issues (.tileSet v a) c s → exec (.tileSet v a) s = .next ((s.advance (.tileSet v a) c).mapGang c.gang fun H =>
        { H with tiles := H.tiles.map fun u => if u.num = t.num then { u with st := if v = 1 then .ready else .empty } else u })) ∧
      (Issues (.tileFree a) c s → exec (.tileFree a) s = .next ((s.advance (.tileFree a) c).mapGang c.gang fun H =>
        { H with tiles := H.tiles.filter fun u => u.num ≠ t.num }))) ∧
    (G.tileNum x = none → (Issues (.tileQry d a) c s → exec (.tileQry d a) s = .next (s.faulted c (flt 7 1))) ∧
      (Issues (.tileSet v a) c s → exec (.tileSet v a) s = .next (s.faulted c (flt 7 1))) ∧
      (Issues (.tileFree a) c s → exec (.tileFree a) s = .next (s.faulted c (flt 7 1))))

/-- 08 R167 to R170, 01 R23: transfers. BRA goes to its quad and slot, JMPR to its register, in each lane of ISSUE; CALL pushes
the record of the window base and the next slot on each lane's stack and goes; RET comes back through it. A target that is the
second word of a pair faults INSN.PAIR, and one that is no slot, as the header of a quad is none, INSN.SLOT; a CALL or RET whose record would leave the stack faults
CTRL.STACK, and a RET to a window outside the lane's space REG.WINDOW. That CALL checks its stack before its target is the model's
choice (log 28), and so is the wrap of a target modulo 2^32 (log 30). -/
def Obligations.TransferInstructions : Prop :=
  ∀ (sl : BitVec 2) (o : BitVec 23) (a : BitVec 7) (c : Cur) (s : State),
    let W := s.warp c.gang c.warp
    let core := s.coreOf c.gang c.warp
    let asid := (s.gang c.gang).asid
    let dst := BitVec.ofInt 32 ((c.pc.toNat / 16 * 16 : Nat) + 16 * o.toInt + 4 * sl.toNat)
    let rec8 (l : Nat) : Nat := leNat (Memory.bytes (W.lane l).stack ((W.lane l).sptr.toNat - 8) 8)
    (∀ pc : Word, (pc.toNat % 4 ≠ 0 ∨ pc.toNat % 16 < 4 → s.targetCode core asid pc = some 4) ∧
      (pc.toNat % 4 = 0 → 4 ≤ pc.toNat % 16 → ∀ ws, s.fetchQuad core asid (pc.toNat / 16 * 16) = .ok ws →
        let k := pc.toNat % 16 / 4
        let pair (j : Nat) : Bool := pairedMaj (majOf (ws.getD j 0))
        s.targetCode core asid pc = if (k = 2 ∧ pair 1) ∨ (k = 3 ∧ ¬ pair 1 ∧ pair 2) then some 2 else none)) ∧
    (Issues (.bra sl o) c s → s.targetCode core asid dst = none →
      exec (.bra sl o) s = .next (s.jumps (.bra sl o) c fun _ => dst)) ∧
    (∀ k, Issues (.bra sl o) c s → s.targetCode core asid dst = some k → exec (.bra sl o) s = .next (s.faulted c (flt 1 k))) ∧
    (Issues (.jmpr a) c s → (∀ l ∈ c.issue, s.targetCode core asid (W.get l a.toNat) = none) →
      exec (.jmpr a) s = .next (s.jumps (.jmpr a) c fun l => W.get l a.toNat)) ∧
    (Issues (.jmpr a) c s → (∃ l ∈ c.issue, (W.get l a.toNat).toNat % 4 ≠ 0 ∨ (W.get l a.toNat).toNat % 16 < 4) →
      (∀ l ∈ c.issue, s.targetCode core asid (W.get l a.toNat) ≠ some 2) →
      exec (.jmpr a) s = .next (s.faulted c (flt 1 4))) ∧
    (Issues (.jmpr a) c s → (∃ l ∈ c.issue, s.targetCode core asid (W.get l a.toNat) = some 2) →
      exec (.jmpr a) s = .next (s.faulted c (flt 1 2))) ∧
    (∀ l, Issues (.call sl o) c s → (c.issue.find? fun l => decide (W.slim.toNat < (W.lane l).sptr.toNat + 8)) = some l →
      exec (.call sl o) s = .next (s.faulted c (fltAt 4 1 l 0 (W.lane l).sptr))) ∧
    (∀ k, Issues (.call sl o) c s → (∀ l ∈ c.issue, (W.lane l).sptr.toNat + 8 ≤ W.slim.toNat) →
      s.targetCode core asid dst = some k → exec (.call sl o) s = .next (s.faulted c (flt 1 k))) ∧
    (Issues .ret c s → (∃ l ∈ c.issue, (W.lane l).sptr.toNat < 8) → exec .ret s = .next (s.faulted c (flt 4 1))) ∧
    (Issues .ret c s → (∀ l ∈ c.issue, 8 ≤ (W.lane l).sptr.toNat) →
      ((∃ l ∈ c.issue, rec8 l / 2 ^ 32 % 2 ^ 16 % 8 ≠ 0 ∨ 64 + 32 * W.x < rec8 l / 2 ^ 32 % 2 ^ 16 + 8) →
        exec .ret s = .next (s.faulted c (flt 3 1))) ∧
      ((∀ l ∈ c.issue, rec8 l / 2 ^ 32 % 2 ^ 16 % 8 = 0 ∧ rec8 l / 2 ^ 32 % 2 ^ 16 + 8 ≤ 64 + 32 * W.x) →
        ((∃ l ∈ c.issue, s.targetCode core asid (BitVec.ofNat 32 (rec8 l)) = some 2) →
          exec .ret s = .next (s.faulted c (flt 1 2))) ∧
        ((∃ l ∈ c.issue, s.targetCode core asid (BitVec.ofNat 32 (rec8 l)) = some 4) →
          (∀ l ∈ c.issue, s.targetCode core asid (BitVec.ofNat 32 (rec8 l)) ≠ some 2) →
          exec .ret s = .next (s.faulted c (flt 1 4))))) ∧
    (Issues (.call sl o) c s → (∀ l ∈ c.issue, (W.lane l).sptr.toNat + 8 ≤ W.slim.toNat) →
      s.targetCode core asid dst = none →
      exec (.call sl o) s = .next ((((s.advance (.call sl o) c).mapWarp c.gang c.warp fun V =>
        V.mapLanes c.issue fun _ L => { L with stack := (Memory.putBytes L.stack L.sptr.toNat
          (leBytes 8 (L.fib.w * 2 ^ 32 + (nextPc c.pc).toNat))) }).moveSptr c fun L => L.sptr + 8).jump c fun _ => dst)) ∧
    (Issues .ret c s →
      (∀ l ∈ c.issue, 8 ≤ (W.lane l).sptr.toNat ∧ rec8 l / 2 ^ 32 % 2 ^ 16 % 8 = 0 ∧
        rec8 l / 2 ^ 32 % 2 ^ 16 + 8 ≤ 64 + 32 * W.x ∧ s.targetCode core asid (BitVec.ofNat 32 (rec8 l)) = none) →
      exec .ret s = .next ((((s.advance .ret c).mapWarp c.gang c.warp fun V =>
        V.mapLanes c.issue fun l L => L.mapFib fun f => { f with w := rec8 l / 2 ^ 32 % 2 ^ 16 }).moveSptr c fun L =>
          L.sptr - 8).jump c fun l => BitVec.ofNat 32 (rec8 l)))

/-- 08 R171 to R177: fibres. Outside handler mode FEND and EXIT end the fibres of ISSUE, whose slots become free or retired; REJOIN
parks the lanes of its mask and sends the others on to the join target, as a transfer that may drop a stale loop buffer; BAR parks the lanes of ISSUE; each is followed by the
tests of rejoins, barriers and stuck warps: lanes whose mask is satisfied, and those whose barrier is complete, go on, and of a stuck gang, workgroup or warp every fibre stands
up for the trap. FSPAWN gives its lanes, lowest first, the free slots that their counts ask for, in
ascending order, with nascent fibres at the join target; 4 cycles later each lane receives its number of fibres, and each new fibre its
spawn index in v0 and its parent's lane in v1, and no older write to its flags, its W or its SPTR is still to come. In handler mode each of them
faults CTRL.HMODE (24 R373). The wrap of the join target modulo 2^32 is the model's choice (log 30), and so are the moments of the tests
(log 27). -/
def Obligations.FibreInstructions : Prop :=
  (∀ (W : Warp) (now : Nat), W.Rejoins now) ∧ (∀ (G : Gang) (clk : Nat → Nat), G.Barriers clk) ∧ (∀ G : Gang, G.Stuck) ∧
  (∀ (s : State) (g : Nat), (s.settle g).mem = s.mem ∧ (∀ h, h ≠ g → (s.settle g).gang h = s.gang h) ∧
    (g < s.gangs.length → (s.settle g).gang g = ({ s.gang g with
      warps := (s.gang g).warps.mapIdx fun w (W : Warp) => W.rejoin (s.now g w) }.barriers (s.now g)).stuckTests)) ∧
  ∀ (b d a : BitVec 7) (x : BitVec 16) (k : BitVec 3) (n : BitVec 8) (c : Cur) (s : State),
    let W := s.warp c.gang c.warp
    let join := BitVec.ofInt 32 ((c.pc.toNat / 16 * 16 : Nat) + 16 * (fld x 0 14).toInt + 4 * (fld x 14 2).toNat)
    (∀ i ∈ [Instr.fend, .exit, .bar k n, .rejoin b x, .fspawn d a x], W.handler = true → Issues i c s →
      exec i s = .next (s.faulted c (flt 4 3))) ∧
    (W.handler = false →
    (Issues .fend c s → ∃ u : State, exec .fend s = .next (u.settle c.gang) ∧ Ends c (s.advance .fend c) u .free) ∧
    (Issues .exit c s → ∃ u : State, exec .exit s = .next (u.settle c.gang) ∧ Ends c (s.advance .exit c) u .retired) ∧
    (Issues (.bar k n) c s →
      exec (.bar k n) s = .next ((s.parks (.bar k n) c c.issue (.bar k.toNat n.toNat)).settle c.gang)) ∧
    (Issues (.rejoin b x) c s →
      let m := W.s b.toNat
      let stay := c.issue.filter fun l => m.getLsbD l
      let go := c.issue.filter fun l => !m.getLsbD l
      let sent := ((s.advance (.rejoin b x) c).mapWarp c.gang c.warp fun V =>
        V.mapLanes go fun _ L => L.mapFib fun f => { f with pc := join }).backTransfers
          (s.coreOf c.gang c.warp) (s.gang c.gang).asid (go.map fun _ => (c.pc, join))
      let held := sent.mapWarp c.gang c.warp fun V =>
        V.mapLanes stay fun _ L => { L with slot := .parked (.rejoin m join), fib := { L.fib with pc := c.pc } }
      exec (.rejoin b x) s = .next ((if stay = [] then held else held.mapWarp c.gang c.warp fun V =>
        V.enterMask m).settle c.gang)) ∧
    (Issues (.fspawn d a x) c s → Present c s →
      let free := laneIds.filter fun l => (W.lane l).slot == .free
      let ask (i : Nat) : Nat := min (W.get i a.toNat).toNat 64
      let due := s.now c.gang c.warp + 4
      ∃ t, exec (.fspawn d a x) s = .next t ∧
        ∀ lower i upper, c.issue = lower ++ i :: upper →
          let used := min (lower.map ask).sum free.length
          let cnt := min (ask i) (free.length - used)
          (∃ p ∈ (t.warp c.gang c.warp).pend, p.tgt = (W.put i d.toNat 0).1 ∧ p.val = BitVec.ofNat 64 cnt ∧ p.due = due) ∧
          ∀ j < cnt, ∀ l, free[used + j]? = some l →
            ((t.warp c.gang c.warp).lane l).slot = .nascent ∧
            ((t.warp c.gang c.warp).lane l).fib.pc = join ∧ ((t.warp c.gang c.warp).lane l).fib.flags = 0 ∧
            ((t.warp c.gang c.warp).lane l).fib.w = (W.lane i).fib.w ∧ ((t.warp c.gang c.warp).lane l).sptr = 0 ∧
            (∀ p ∈ (t.warp c.gang c.warp).pend, p.tgt ≠ .wbase l ∧ p.tgt ≠ .sptr l ∧ p.tgt ≠ .seen l ∧ ∀ n, p.tgt ≠ .flag l n) ∧
            (∃ p ∈ (t.warp c.gang c.warp).pend, p.tgt = .reg l (W.lane i).fib.w ∧ p.val = BitVec.ofNat 64 j ∧ p.due = due) ∧
            (∃ p ∈ (t.warp c.gang c.warp).pend, p.tgt = .reg l ((W.lane i).fib.w + 1) ∧ p.val = BitVec.ofNat 64 i ∧ p.due = due)))

/-- 08 R179 to R181, R186: MWAIT, YIELD and SYNC. A watch arms its lanes' monitors on the block of the watched cell; a write of the block fires an
armed monitor once its lane sees it, at the write or when it becomes visible; a watch, or a
`.dcwb` or `.dcinv`, of a line that an LDR could not read takes the fault of that LDR; a wait parks a lane whose monitor is armed and answers 0, 1 or 3 in one that is fired, lost or absent; YIELD holds its set back; the SYNC
instructions park their lanes until they complete, but `.isync`, which drops the core's loop buffer at once. In handler mode a wait faults
CTRL.HMODE (24 R373). -/
def Obligations.MonitorAndSyncInstructions : Prop :=
  (∀ (s : State) (path cell : Nat) (v : Byte), ∀ m ∈ (s.writeCell path cell v).monitors, ∃ n ∈ s.monitors,
    m = { n with st := m.st } ∧ (m.st = n.st ∨ (n.st = .armed ∧ m.st = .fired ∧ n.block = cell / 64 * 64))) ∧
  (∀ (s : State) (path cell : Nat) (v : Byte), inPeer cell = false → ∀ n ∈ s.monitors, n.st = .armed → n.block = cell / 64 * 64 →
    n.path = path →
    { n with st := .fired } ∈ (s.writeCell path cell v).monitors) ∧
  (∀ (s : State) (st : List Stale), ∀ n ∈ s.monitors, n.st = .armed →
    (∃ e ∈ s.stale, e.cell / 64 * 64 = n.block ∧
      (unseen st n.path (some (n.ctx, n.warp)) e.cell).length < (unseen s.stale n.path (some (n.ctx, n.warp)) e.cell).length) →
    { n with st := .fired } ∈ (s.setStale st).monitors) ∧
  ∀ (a b d : BitVec 7) (c : Cur) (s : State),
    let W := s.warp c.gang c.warp
    let now := s.now c.gang c.warp
    (∀ as, Issues (.mwaitWatch a b) c s → s.watchRows c a b = .ok as → ∃ t, exec (.mwaitWatch a b) s = .next t ∧
      (∀ x ∈ as, x.isBad s = false → ∃ m, t.monitor? c.gang c.warp x.lane = some m ∧ m.asid = x.tab.asid ∧
        m.va = x.va ∧ m.path = pathOf x.tab.desc.aper 0 ∧ m.block = x.cells.headD 0 / 64 * 64 ∧
        m.st = .armed) ∧
      (c.gang < s.gangs.length → (∃ x ∈ as, x.isBad s = true) → ∃ o ∈ (t.gang c.gang).accs, o.fault = badLane s as)) ∧
    (∀ x, Issues (.mwaitWatch a b) c s → s.watchRows c a b = .error x → exec (.mwaitWatch a b) s = .next (s.faulted c x)) ∧
    (∀ l, Issues (.mwaitWait d a) c s → W.handler = false → c.issue = [l] → s.monitor? c.gang c.warp l = none →
      exec (.mwaitWait d a) s = .next (s.scoreboards (.mwaitWait d a) c [] [W.put l d.toNat 3])) ∧
    (Issues (.mwaitWait d a) c s → W.handler = false → Present c s → c.issue.Nodup → ∃ t, exec (.mwaitWait d a) s = .next t ∧
      ∀ lower l upper, c.issue = lower ++ l :: upper → l < 64 →
        let id := s.nextId + lower.length
        let answers (n : Word) : Prop := t.monitor? c.gang c.warp l = none ∧
          ∃ o ∈ (t.gang c.gang).accs, o.id = id ∧ o.vals = [W.put l d.toNat n]
        (s.monitor? c.gang c.warp l = none → answers 3) ∧
        ∀ m, s.monitor? c.gang c.warp l = some m →
          (m.st = .fired → answers 0) ∧ (m.st = .lost → answers 1) ∧
          (m.st = .armed → ((t.warp c.gang c.warp).lane l).slot =
            .parked (.mwait (if W.get l a.toNat = 0 then none else some (now + (W.get l a.toNat).toNat)) id))) ∧
    (Issues (.mwaitWait d a) c s → W.handler = true → exec (.mwaitWait d a) s = .next (s.faulted c (flt 4 3))) ∧
    (Issues .yield c s → exec .yield s = .next ((s.advance .yield c).mapWarp c.gang c.warp fun V =>
      V.mapLanes c.set fun _ L => L.mapFib fun f => { f with yieldAt := some now })) ∧
    (Issues .syncIsync c s → exec .syncIsync s = .next ((s.advance .syncIsync c).setLoop
      { core := s.coreOf c.gang c.warp, quads := [], stale := false })) ∧
    (Issues (.syncIcinv a b) c s → exec (.syncIcinv a b) s = .next
      ((s.parks (.syncIcinv a b) c c.issue (.sync s.nextId)).waitsWith c.gang { s.newWork c (.syncIcinv a b)
        (W.args c.issue (fun _ => 0) (fun l => (W.get l a.toNat).setWidth 128) (fun l => (W.get l b.toNat).setWidth 128)
          fun _ => 0) [] with mark := 1 })) ∧
    (∀ as, s.watchRows c a b = .ok as → (∀ x ∈ as, x.isBad s = false) →
      (Issues (.syncDcwb a b) c s → exec (.syncDcwb a b) s = .next
        ((s.parks (.syncDcwb a b) c c.issue (.sync s.nextId)).waitsWith c.gang { s.newWork c (.syncDcwb a b) [] [] with
          cells := as.map fun x => x.cells.headD 0, mark := 1 })) ∧
      (Issues (.syncDcinv a b) c s → exec (.syncDcinv a b) s = .next
        ((s.parks (.syncDcinv a b) c c.issue (.sync s.nextId)).waitsWith c.gang { s.newWork c (.syncDcinv a b) [] [] with
          cells := as.map fun x => x.cells.headD 0, mark := 1 }))) ∧
    (∀ as, s.watchRows c a b = .ok as → (∃ x ∈ as, x.isBad s = true) → c.gang < s.gangs.length →
      (Issues (.syncDcwb a b) c s → ∃ t, exec (.syncDcwb a b) s = .next t ∧ ∃ o ∈ (t.gang c.gang).accs, o.fault = badLane s as) ∧
      (Issues (.syncDcinv a b) c s → ∃ t, exec (.syncDcinv a b) s = .next t ∧ ∃ o ∈ (t.gang c.gang).accs, o.fault = badLane s as))

/-- 01 R27, R28, 08 R182, R183, 24 R374, R375: NOP only moves on; REP evaluates the guard of the slot it repeats once in each lane and
stands before repeat 0, or, with progress saved, before the repeat that it has come to (08 R183), or faults INSN.REP; a fault of the repeated slot that its decoding finds leaves
the lanes before that repeat too; TRAP takes a trap of class SOFT for the lanes of ISSUE at the slot that follows; RETT, in handler mode,
brings the lanes of ISSUE back to their resume pcs with their flags, and takes a new trap for those whose resume pc is no target; handler
mode ends when no lane is left in it. Outside handler mode RETT faults CTRL.HMODE. -/
def Obligations.NopRepTrapRett : Prop :=
  ∀ (cnt : BitVec 6) (stp str : BitVec 3) (n : BitVec 8) (c : Cur) (s : State),
    let W := s.warp c.gang c.warp
    (Issues .nop c s → exec .nop s = .next (s.advance .nop c)) ∧
    (∀ bad gc k, s.cur = some c → s.repCheck c cnt stp str = .ok (bad, gc, k) →
      let t := s.mapWarp c.gang c.warp fun V => V.mapLanes c.set fun _ L => L.mapFib fun f =>
        { f with rep := some (match f.rep with
                              | some r => r
                              | none => (0, holds gc (flagOf f.flags k))) }
      exec (.rep cnt stp str) s = .next (match bad with
        | none => t
        | some f => t.raise { c with pc := c.pc + 4 } f)) ∧
    (∀ ws, s.cur = some c → s.fetchQuad (s.coreOf c.gang c.warp) (s.gang c.gang).asid (quadOf c.pc) = .ok ws →
      repBad ws (slotOf c.pc) cnt.toNat stp.toNat str.toNat = true →
      exec (.rep cnt stp str) s = .next (s.raise c (flt 1 3))) ∧
    (Issues (.trap n) c s → exec (.trap n) s = .next ((s.advance (.trap n) c).mapWarp c.gang c.warp fun V =>
      { V with cause := some { cls := 0x11, code := n, pc := nextPc c.pc, lanes := c.issue, words := [], masks := [],
                               stuck := false, atIssue := false } })) ∧
    (Issues .rett c s → W.handler = false → exec .rett s = .next (s.faulted c (flt 4 3))) ∧
    (Issues .rett c s → W.handler = true → Present c s →
      let core := s.coreOf c.gang c.warp
      let asid := (s.gang c.gang).asid
      let dst (l : Nat) : Word := if W.trappcWritten then W.trappc else ((W.lane l).fib.saved.map (·.1)).getD 0
      let u := s.backTransfers core asid (c.issue.map fun l => (c.pc, dst l))
      let bad := c.issue.filter fun l => (u.targetCode core asid (dst l)).isSome
      (∀ l ∈ c.issue, (W.lane l).fib.saved.isSome) →
      ∃ t, exec .rett s = .next t ∧
        (bad = [] → (t.warp c.gang c.warp).cause = W.cause) ∧
        (∀ l rest, bad = l :: rest → (t.warp c.gang c.warp).cause = some
          { cls := 1, code := (u.targetCode core asid (dst l)).getD 4, pc := dst l, lanes := bad, words := [], masks := [],
            stuck := false, atIssue := false }) ∧
        ((t.warp c.gang c.warp).handler = true ↔
          ∃ l ∈ laneIds, l ∉ c.issue ∧ (W.lane l).holds = true ∧ (W.lane l).fib.inH = true) ∧
        ∀ l ∈ c.issue, ∀ pc fl rp, (W.lane l).fib.saved = some (pc, fl, rp) →
          ((t.warp c.gang c.warp).lane l).fib.pc = dst l ∧
          ((t.warp c.gang c.warp).lane l).fib.flags = fl ∧ ((t.warp c.gang c.warp).lane l).fib.inH = false)

/-- 10 R208 to R222, 11 R239 to R245, 14 R275 to R277: an engine operation starts when its checks pass: it captures its operands,
takes the next sequence number of its counter, which rises by exactly 1, and the fibres go on at once; a bulk copy and a gather also mark their tile
filling or draining. A check that fails faults the warp, and nothing starts: of CPL the lowest lane's length, range and alignment; ENGINE.MASK
where a fibre is not in ISSUE; ENGINE.SLOT without the accumulator store; the number, state and format of a tile, the handle, the region and the
shapes that do not agree. The checks of XMMA (MATRIX.MAP, TILE.NUM, MATRIX.FMT, SHAPE, DESYNC and ACC, TILE.STATE) and of TGATH come in the order of 11 R240 and 14 R276. That a
scale tile of another format faults MATRIX.DESYNC is the model's choice (log 31). -/
def Obligations.EngineOperationsStart : Prop :=
  ∀ (g : BitVec 2) (m o : BitVec 4) (d a b cc : BitVec 7) (x : BitVec 16) (y : BitVec 12) (z : BitVec 10) (sc : BitVec 3)
    (ord : BitVec 2) (c : Cur) (s : State),
    let G := s.gang c.gang
    let W := G.warp c.warp
    let reg (n : BitVec 7) (l : Nat) : QWord := (W.get l n.toNat).setWidth 128
    (Issues (.cpl g d a b o cc x) c s →
      (∀ l ∈ c.issue, (W.get l b.toNat).toNat ≤ 32 ∧ (W.get l d.toNat).toNat % 32 = 0 ∧
        (W.get l d.toNat).toNat + 32 ≤ (if o.toNat ≤ 1 then G.launch.cmem else G.launch.firn)) →
      exec (.cpl g d a b o cc x) s = .next ((s.advance (.cpl g d a b o cc x) c).count
        (s.newWork c (.cpl g d a b o cc x)
          (W.args c.issue (reg d) (fun l => (W.get64 l a.toNat).setWidth 128) (reg b) (reg cc)) []) g.toNat)) ∧
    (∀ t, Issues (.cpb m d a o x) c s → (∀ l, (W.lane l).holds = true → l ∈ c.issue) → G.tileNum (W.s d.toNat) = some t →
      (m.toNat % 2 = 1 → t.st = .ready) → cpbFormats o.toNat t.desc = true →
      exec (.cpb m d a o x) s = .next (((s.advance (.cpb m d a o x) c).mapGang c.gang fun H =>
        H.setTile t.num (if m.toNat % 2 = 0 then .filling else .draining)).count
          { s.newWork c (.cpb m d a o x) [] [W.s d.toNat, W.s a.toNat] with tiles := [t.num] } 4)) ∧
    (∀ t, Issues (.dfence a) c s → s.handle? G.asid ((W.s a.toNat).setWidth 32) = some t →
      exec (.dfence a) s = .next ((s.advance (.dfence a) c).count
        { s.newWork c (.dfence a) [] [W.s a.toNat] with cells := [t.slot] } 4)) ∧
    (Issues (.xmma m a b o cc y) c s → needsAcc c s = none → xmmaFault G m.toNat y.toNat (W.maps m a b cc) = none →
      let ms := W.maps m a b cc
      exec (.xmma m a b o cc y) s = .next ((s.advance (.xmma m a b o cc y) c).count
        { s.newWork c (.xmma m a b o cc y) [] ([ms.getD 0 0, ms.getD 1 0, ms.getD 2 0] ++ W.mapRefs ms) with
          tiles := ms.flatMap mapTiles } 6)) ∧
    (∀ t, Issues (.xaccTile d a) c s → needsRegion a c s = none → G.tileNum (W.s d.toNat) = some t → tileTf t.desc < 6 →
      tileRows t.desc = regRows (W.s a.toNat) → tileCols t.desc = regCols (W.s a.toNat) →
      exec (.xaccTile d a) s = .next (((s.advance (.xaccTile d a) c).mapGang c.gang fun H => H.setTile t.num .filling).count
        { s.newWork c (.xaccTile d a) [] [W.s d.toNat, W.s a.toNat] with tiles := [t.num] } 6)) ∧
    (∀ t u, Issues (.tgath d a b sc ord o cc z) c s → (∀ l, (W.lane l).holds = true → l ∈ c.issue) →
      s.gathCheck c (W.s b.toNat) o.toNat z.toNat (W.s cc.toNat) = .ok (t, u) →
      ∃ k, exec (.tgath d a b sc ord o cc z) s = .next k ∧ 
        (∃ w ∈ k.idx, w.id = s.nextId ∧ w.cells = [t.slot] ∧ w.args.map (·.lane) = c.issue ∧
          w.awaits = [.sreg d.toNat, .sreg (d.toNat + 1), .gmiss]) ∧
        (c.gang < s.gangs.length → ∃ w ∈ (k.gang c.gang).ops, w.id = s.nextId ∧ w.ctr = some 5 ∧ w.tiles = [u.num])) ∧
    (∀ lower l upper, Issues (.cpl g d a b o cc x) c s → c.issue = lower ++ l :: upper →
      let bound := if o.toNat ≤ 1 then G.launch.cmem else G.launch.firn
      let cls : BitVec 8 := if o.toNat ≤ 1 then 8 else 9
      let lo := W.get l d.toNat
      (∀ k ∈ lower, (W.get k b.toNat).toNat ≤ 32 ∧ (W.get k d.toNat).toNat % 32 = 0 ∧ (W.get k d.toNat).toNat + 32 ≤ bound) →
      (32 < (W.get l b.toNat).toNat →
        exec (.cpl g d a b o cc x) s = .next (s.faulted c (fltAt 0x0A 3 l 0 (W.get l b.toNat)))) ∧
      ((W.get l b.toNat).toNat ≤ 32 → bound < lo.toNat + 32 →
        exec (.cpl g d a b o cc x) s = .next (s.faulted c (fltAt cls 1 l 0 lo))) ∧
      ((W.get l b.toNat).toNat ≤ 32 → lo.toNat + 32 ≤ bound → lo.toNat % 32 ≠ 0 →
        exec (.cpl g d a b o cc x) s = .next (s.faulted c (fltAt cls 2 l 0 lo)))) ∧
    (∀ i ∈ [Instr.cpb m d a o x, .tgath d a b sc ord o cc z, .xmma m a b o cc y, .xaccTile d a, .xaccZero a, .xaccRd d a b, .xaccWr d a b],
      Issues i c s → (∃ l ∈ laneIds, (W.lane l).holds = true ∧ l ∉ c.issue) → exec i s = .next (s.faulted c (flt 0x0A 1))) ∧
    ((∀ l, (W.lane l).holds = true → l ∈ c.issue) →
      (Issues (.cpb m d a o x) c s → (G.tileNum (W.s d.toNat) = none → exec (.cpb m d a o x) s = .next (s.faulted c (flt 7 1))) ∧
        ∀ t, G.tileNum (W.s d.toNat) = some t →
          (m.toNat % 2 = 1 → t.st ≠ .ready → exec (.cpb m d a o x) s = .next (s.faulted c (flt 7 2))) ∧
          ((m.toNat % 2 = 1 → t.st = .ready) → cpbFormats o.toNat t.desc = false →
            exec (.cpb m d a o x) s = .next (s.faulted c (flt 0x0A 6)))) ∧
      (∀ e, Issues (.tgath d a b sc ord o cc z) c s → s.gathCheck c (W.s b.toNat) o.toNat z.toNat (W.s cc.toNat) = .error e →
        exec (.tgath d a b sc ord o cc z) s = .next (s.faulted c e)) ∧
      ((G.wgs.getD W.wg default).hold = false →
        ∀ i ∈ [Instr.xmma m a b o cc y, .xaccTile d a, .xaccZero a, .xaccRd d a b, .xaccWr d a b], Issues i c s →
          exec i s = .next (s.faulted c (flt 0x0A 2))) ∧
      ((G.wgs.getD W.wg default).hold = true →
        (∀ e, Issues (.xmma m a b o cc y) c s → xmmaFault G m.toNat y.toNat (W.maps m a b cc) = some e →
          exec (.xmma m a b o cc y) s = .next (s.faulted c e)) ∧
        (regionBad (W.s a.toNat) = true → ∀ i ∈ [Instr.xaccTile d a, .xaccZero a, .xaccRd d a b, .xaccWr d a b], Issues i c s →
          exec i s = .next (s.faulted c (flt 6 6))) ∧
        (regionBad (W.s a.toNat) = false → Issues (.xaccTile d a) c s →
          (G.tileNum (W.s d.toNat) = none → exec (.xaccTile d a) s = .next (s.faulted c (flt 7 1))) ∧
          ∀ t, G.tileNum (W.s d.toNat) = some t →
            (6 ≤ tileTf t.desc → exec (.xaccTile d a) s = .next (s.faulted c (flt 6 3))) ∧
            (tileTf t.desc < 6 → tileRows t.desc ≠ regRows (W.s a.toNat) ∨ tileCols t.desc ≠ regCols (W.s a.toNat) →
              exec (.xaccTile d a) s = .next (s.faulted c (flt 6 4)))))) ∧
    (Issues (.dfence a) c s → s.handle? G.asid ((W.s a.toNat).setWidth 32) = none →
      exec (.dfence a) s = .next (s.faulted c (flt 0x0B 1))) ∧
    (∀ (o : Work) (k : Nat), o.ctx < s.gangs.length → o.warp < (s.gang o.ctx).warps.length →
      k < (s.warp o.ctx o.warp).issued.length →
      ((s.count o k).gang o.ctx).counter o.warp k = (s.gang o.ctx).counter o.warp k + 1) ∧
    -- the checks of XMMA, in their order (11 R233 to R237, R240)
    (let ms : List DWord := [W.s a.toNat, W.s b.toNat] ++ if m.toNat = 1 ∨ m.toNat = 2 then [W.s cc.toNat] else []
      let ma := W.s a.toNat
      let mb := W.s b.toNat
      let mm := ms.getD 2 0
      let kd := if m.toNat = 1 ∨ m.toNat = 2 then 2 * mapCols ma else mapCols ma
      let bad (k : DWord) : Prop := 2 ≤ mapCls k ∨ 10 ≤ mapMf k ∨ mapSs k = 3 ∨ k.toNat / 2 ^ 24 % 2 ^ 12 ≠ 0 ∨ k.toNat / 2 ^ 8 % 2 ^ 8 ≠ 0 ∨
        (mapSs k = 0 ∧ mapSloc k ≠ 0) ∨ (mapSs k = 2 ∧ 64 ≤ mapSloc k) ∨ (mapCls k = 1 ∧ 64 ≤ mapLoc k)
      let names (k : DWord) (n : Nat) : Prop := (mapCls k = 0 ∧ mapLoc k = n) ∨ (mapSs k = 1 ∧ mapSloc k = n)
      let scaled (k : DWord) : Prop := mapMf k = 4 ∨ mapMf k = 5 ∨ mapMf k = 6
      let agree : Prop := if m.toNat = 3 then mapMf ma = 8 ∧ mapMf mb = 7 else
        (mapMf ma = 0 ∧ mapMf mb = 0) ∨ (mapMf ma = 1 ∧ mapMf mb = 1) ∨
          ((mapMf ma = 2 ∨ mapMf ma = 3) ∧ (mapMf mb = 2 ∨ mapMf mb = 3)) ∨ (scaled ma ∧ scaled mb)
      let tile (k : DWord) (P : DWord → Prop) : Prop := mapCls k = 0 → ∀ t, G.tile? (mapLoc k) = some t → P t.desc
      Decided (xmmaFault G m.toNat y.toNat (W.maps m a b cc)) none [
        (∃ k ∈ ms, bad k, some (flt 6 2)),
        (∃ k ∈ ms, ∃ n, names k n ∧ G.tile? n = none, some (flt 7 1)),
        (¬ (agree ∧ (m.toNat = 1 ∨ m.toNat = 2 → mapMf mm = 9) ∧
          ∀ k ∈ ms, tile k fun t => tileTf t = [1, 2, 3, 4, 3, 4, 6, 5, 7, 6].getD (mapMf k) 7), some (flt 6 3)),
        (¬ (mapCols mb = kd ∧ (m.toNat = 1 → kd % 4 = 0) ∧ (m.toNat = 2 → kd % 8 = 0) ∧
          (m.toNat = 1 ∨ m.toNat = 2 → mapRows mm = mapRows ma ∧ mapCols mm = kd / (4 * m.toNat)) ∧
          ∀ k ∈ ms, mapCols k * mfBits (mapMf k) % 8 = 0 ∧ tile k fun t => mapRows k = tileRows t ∧ mapCols k = tileCols t),
          some (flt 6 4)),
        (¬ ∀ k ∈ ms, (scaled k ↔ mapSs k ≠ 0) ∧ (mapSs k = 1 → ∀ t, G.tile? (mapSloc k) = some t →
          tileTf t.desc = 5 ∧ tileRows t.desc = mapRows k ∧ tileCols t.desc = (kd + 31) / 32), some (flt 6 5)),
        (262144 < 64 * y.toNat + 4 * (mapRows ma * mapRows mb), some (flt 6 6)),
        (∃ k ∈ ms, ∃ n, names k n ∧ ∃ t, G.tile? n = some t ∧ t.st ≠ .ready, some (flt 7 2))]) ∧
    -- the checks of TGATH, in their order (14 R276)
    (∀ (kt aux : Nat) (tile : DWord),
      let h := W.s b.toNat
      let r := s.gathCheck c h kt aux tile
      (s.handle? G.asid (h.setWidth 32) = none → r = .error (flt 0x0B 1)) ∧
      ∀ t, s.handle? G.asid (h.setWidth 32) = some t →
        (t.desc.tkind = 0 ∨ t.mixed = false → r = .error (flt 0x0B 6)) ∧
        (t.desc.tkind ≠ 0 → t.mixed = true →
          (t.desc.keyt ≠ kt → r = .error (flt 0x0B 7)) ∧
          (t.desc.keyt = kt → (2 ^ 8 ≤ tile.toNat ∨ G.tile? tile.toNat = none → r = .error (flt 7 1)) ∧
            ∀ u, tile.toNat < 2 ^ 8 → G.tile? tile.toNat = some u → Decided r (.ok (t, u)) [
              (tileTf u.desc = 6 ∨ tileTf u.desc = 7 ∨ tileCols u.desc ≠ (t.desc.width - 2) / 4, .error (flt 0x0A 6)),
              (tileRows u.desc < aux + c.issue.length,
                .error { cls := 0x0A, code := 4, words := c.set.map fun l => (l, 0, BitVec.ofNat 32 aux) })]))) ∧
    -- the formats that a bulk copy accepts (10 R218)
    ∀ (k : Nat) (e : DWord), cpbFormats k e = true ↔
      if k ≤ 2 then tileCols e * [32, 16, 16, 8, 8, 8, 4, 2].getD (tileTf e) 2 % 8 = 0
      else if k ≤ 6 then tileTf e = 0 ∨ (k ≤ 4 ∧ tileTf e = 5)
      else tileTf e = 0 ∨ tileTf e + 6 = k

/-- 10 R209 to R222, 11 R236 to R245, 14 R277: the completion of an engine operation. It is outstanding no more, its counter counts what is left (R209), its tile takes its state, and the lanes whose WAITC it lets go go on (R210).
A lane copy leaves in each lane's 32 bytes of its share the row's first v bytes and zeros, or in the row's 32 bytes those of the share and zeros (R215). A bulk copy
leaves each row of its tile as the table's row says, or the other way, as they stand or converted (R218), and seals the blocks of CRCs that it wrote (R220). A data fence joins the views of
its table, once the warp's earlier writes to it have completed or met a fault: both read the last write (R222). XMMA leaves in each element of its region the rounded sums
of R72, or the clamped ones of R73 with the SAT bits; XACC `.tile` leaves the converted elements in its tile (R245); a gather its rows, and zeros (R277). A fault that an engine
finds stays with its operation, whose tile is empty, and has the counter and the sequence number in TRAPAUX and the row in FADDR; the lanes parked at WAITC take it (R212). Bytes are told of an operation
none of whose writes has been made early. Where the accesses of an operation wait for a walk, a bank, a swap, a sweep or a re-encryption, the turn only starts the walks and lets the banks thaw. That a data fence
joins every byte of its table is the model's choice (log 42), and so are the order in which the writes appear (log 19), what waits (log 64), and that a bulk copy of a row
of mixed width copies the bytes beyond its length too (log 92). -/
def Obligations.EngineOperationsComplete : Prop :=
  (∀ (ctx op : Nat) (o : Work) (s : State), (s.gang ctx).op? op = some o → o.ctx = ctx → o.fault = none →
    let G := s.gang ctx
    let W := G.warp o.warp
    let wg := W.wg
    let store (x : State) : Wg := (x.gang ctx).wgs.getD wg default
    (s.opHeld o = false →
      (∀ (g : BitVec 2) (d a b : BitVec 7) (k : BitVec 4) (cc : BitVec 7) (x : BitVec 16) (row : Arg → Table × List Nat), o.instr = .cpl g d a b k cc x →
        let out := k.toNat % 2 == 1
        let firn := decide (2 ≤ k.toNat)
        let lane (y : Arg) : CopyLane := CopyLane.of x y
        let share (u : State) : List Host.Cell := if firn then (u.gang ctx).firn else (u.gang ctx).cmem
        let kept (y : Arg) (j : Nat) : Prop := (lane y).ro + j < s.curLen (row y).1 ((lane y).rr.toNat % 2 ^ 32) 0
        (∀ y ∈ o.args, (lane y).v ≤ 32 ∧ (lane y).Row s G.asid out (row y).1 (row y).2) →
        ∃ t, exec (.cplComplete ctx op) s = .next t ∧ OpDone s t ctx o none ∧
          (o.cells = [] →
            (out = false → t.mem = s.mem ∧ (if firn then (t.gang ctx).cmem = G.cmem else (t.gang ctx).firn = G.firn) ∧
              (∀ i, (∀ y ∈ o.args, i < (lane y).lo ∨ (lane y).lo + 32 ≤ i) → Memory.get (share t) i = Memory.get (share s) i) ∧
              (Memory.wf (share s) = true → ∀ pre y post, o.args = pre ++ y :: post →
                (∀ z ∈ post, (lane z).lo + 32 ≤ (lane y).lo ∨ (lane y).lo + 32 ≤ (lane z).lo) → ∀ j < 32,
                (j < (lane y).v → kept y j →
                  Memory.get (share t) ((lane y).lo + j) = s.readCell (2 * (row y).1.desc.aper) ((row y).2.getD j 0)) ∧
                ((lane y).v ≤ j ∨ ¬ kept y j → Memory.get (share t) ((lane y).lo + j) = 0))) ∧
            (out = true → (t.gang ctx).cmem = G.cmem ∧ (t.gang ctx).firn = G.firn ∧
              (∀ i, (∀ y ∈ o.args, i ∉ (row y).2) → Memory.get t.mem i = Memory.get s.mem i) ∧
              (Memory.wf s.mem = true → ∀ pre y post, o.args = pre ++ y :: post → (row y).2.Nodup → ∀ j < 32, kept y j →
                let i := (row y).2.getD j 0
                inPeer i = false → (∀ z ∈ post, i ∉ (row z).2) →
                Memory.get t.mem i = if j < (lane y).v then Memory.get (share s) ((lane y).lo + j) else 0)))) ∧
      (∀ (m : BitVec 4) (d a : BitVec 7) (f : BitVec 4) (x : BitVec 16) (tb : Table) (u : Tile) (cells : Nat → List Nat), o.instr = .cpb m d a f x →
        G.tile? (o.tiles.getD 0 0) = some u →
        let out := m.toNat % 2 == 1
        let view := m.toNat / 2
        let rr := o.uni.getD 1 0
        let row := rr.toNat % 2 ^ 32
        let rows := tileRows u.desc
        let cols := tileCols u.desc
        let tf := tileTf u.desc
        let base := tileBase u.desc
        let tr := tileRowBytes u.desc
        let rb := if f.toNat ≤ 2 then tr else cols * esize f.toNat
        let blocks := crcBlocks tb row rows x.toNat rb
        let into (r : Nat) : List Byte := movedBytes true f.toNat tf cols ((cells r).map (s.readCell (2 * tb.desc.aper + view)))
        let from' (r : Nat) : List Byte := movedBytes false f.toNat tf cols (Memory.bytes G.cmem (base + r * tr) tr)
        s.Current G.asid rr tb → tb.desc.tkind = 0 → row + rows ≤ tb.desc.cap → x.toNat + rb ≤ tb.desc.width → tf < 8 →
        (∀ r < rows, s.RunIs tb (row + r) x.toNat rb (if out then .write else .read) (cells r)) →
        (o.mark = 0 → tb.sealed = true → ∀ k ∈ blocks, ∃ bs cs, s.crcBlock tb view k = .ok bs ∧
          s.crcCells tb k row (if out then .write else .read) = .ok cs ∧
          (out = false → cs.map (s.readCell 0) = leBytes 8 (crc64 bs).toNat)) →
        ∃ v t, exec (.cpbComplete ctx op) s = .next t ∧ OpDone s v ctx o (some (if out then .empty else .ready)) ∧
          t = (if out ∧ tb.sealed then v.recrc ((G.place.id + wg) / 288) tb view row blocks else v) ∧
          (o.cells = [] →
            (out = false → v.mem = s.mem ∧ (v.gang ctx).firn = G.firn ∧
              (∀ i, i < base ∨ base + rows * tr ≤ i → Memory.get (v.gang ctx).cmem i = Memory.get G.cmem i) ∧
              (Memory.wf G.cmem = true → ∀ r < rows, ∀ j < (into r).length,
                Memory.get (v.gang ctx).cmem (base + r * tr + j) = (into r).getD j 0)) ∧
            (out = true → (v.gang ctx).cmem = G.cmem ∧ (v.gang ctx).firn = G.firn ∧
              (∀ i, (∀ r < rows, i ∉ cells r) → Memory.get v.mem i = Memory.get s.mem i) ∧
              (Memory.wf s.mem = true → ∀ r < rows, (cells r).Nodup → ∀ j < (from' r).length,
                let i := (cells r).getD j 0
                inPeer i = false → (∀ q < rows, r < q → i ∉ cells q) → Memory.get v.mem i = (from' r).getD j 0)))) ∧
      (G.accHead o = true →
        (∀ (m : BitVec 4) (a b : BitVec 7) (k : BitVec 4) (cc : BitVec 7) (y : BitVec 12) (x : XmmaRows), o.instr = .xmma m a b k cc y →
          s.XmmaReads G m.toNat o.uni x → x.MetaOk m.toNat o.uni → x.TernOk m.toNat o.uni →
          ∃ t, exec (.xmmaComplete ctx op) s = .next t ∧ (∀ p ∈ (t.gang ctx).ops, p.id ≠ op) ∧
            (G.accOps wg = [o] → OpDone s t ctx o none ∧ t.mem = s.mem ∧ (t.gang ctx).cmem = G.cmem ∧ (t.gang ctx).firn = G.firn ∧
              (∀ v, v ≠ wg → (t.gang ctx).wgs.getD v default = G.wgs.getD v default) ∧
              (wg < G.wgs.length →
                let M := mapRows (o.uni.getD 0 0)
                let N := mapRows (o.uni.getD 1 0)
                let line := y.toNat
                let old (e : Nat) : Word := if k.toNat = 0 then 0 else (store s).getAcc (16 * line + e)
                let new (e : Nat) : Word := (store t).getAcc (16 * line + e)
                (∀ e, e < 16 * line ∨ 16 * line + M * N ≤ e → (store t).getAcc e = (store s).getAcc e) ∧
                (m.toNat ≠ 3 → (∀ i < M, ∀ j < N, FloatElem m.toNat o.uni x i j (old (i * N + j)).toNat (new (i * N + j)).toNat) ∧
                  ∀ n, n ∈ (store t).sat ↔ n ∈ (store s).sat ∧ ¬ (k.toNat = 0 ∧ line ≤ n ∧ n < line + (M * N + 15) / 16)) ∧
                (m.toNat = 3 → ∃ clamped : Nat → Nat → Prop,
                  (∀ i < M, ∀ j < N, TernElem o.uni x i j (old (i * N + j)).toInt (new (i * N + j)).toInt (clamped i j)) ∧
                  ∀ n, n ∈ (store t).sat ↔ (n ∈ (store s).sat ∧ ¬ (k.toNat = 0 ∧ line ≤ n ∧ n < line + (M * N + 15) / 16)) ∨
                    ∃ i < M, ∃ j < N, clamped i j ∧ n = line + (i * N + j) / 16)))) ∧
        (∀ (d a : BitVec 7) (u : Tile), o.instr = .xaccTile d a → G.tile? (o.tiles.getD 0 0) = some u →
          let r := o.uni.getD 1 0
          let tf := tileTf u.desc
          let eb := [4, 2, 2, 1, 1, 1].getD tf 0
          ∃ t, exec (.xaccTileComplete ctx op) s = .next t ∧ (∀ p ∈ (t.gang ctx).ops, p.id ≠ op) ∧
            (G.accOps wg = [o] → OpDone s t ctx o (some .ready) ∧ t.mem = s.mem ∧ (t.gang ctx).wgs = G.wgs ∧
              ShareHolds s t ctx false (tileBase u.desc) (regRows r * regCols r * eb) fun j =>
                let v := (store s).getAcc (16 * regLine r + j / eb)
                let w : Nat := if tf = 0 then v.toNat
                  else if tf = 5 then (BitVec.ofInt 8 (max (-128) (min 127 v.toInt))).toNat
                  else Num.conv .f32 ([.f32, .bf16, .f16, .e4m3, .e5m2].getD tf .f32) .rne false v.toNat
                BitVec.ofNat 8 (w / 256 ^ (j % eb)))))) ∧
    (∀ (d a b : BitVec 7) (sc : BitVec 3) (ord : BitVec 2) (k : BitVec 4) (cc : BitVec 7) (x : BitVec 10) (u : Tile), o.instr = .tgath d a b sc ord k cc x →
      G.tile? (o.tiles.getD 0 0) = some u → (∀ p ∈ s.idx, p.id ≠ op) → o.cells.length ≤ o.args.length * tileRowBytes u.desc →
      ∃ t, exec (.tgathComplete ctx op) s = .next t ∧ OpDone s t ctx o (some .ready) ∧ t.mem = s.mem ∧
        ShareHolds s t ctx false (tileBase u.desc + x.toNat * tileRowBytes u.desc) (o.args.length * tileRowBytes u.desc) fun j =>
          BitVec.ofNat 8 (o.cells.getD j 0)) ∧
    (∀ a, o.instr = .dfence a →
      (∀ p ∈ G.ops, p.warp = o.warp → p.id < op → p.fault = none → p.writesTable (o.cells.getD 0 0) = false) →
      (∀ p ∈ s.idx, p.ctx = ctx → p.warp = o.warp → op ≤ p.id) →
      ∃ t, exec (.dfenceComplete ctx op) s = .next t ∧ OpDone s t ctx o none ∧ t.mem = s.mem ∧
        (s.table? G.asid (o.cells.getD 0 0) = none → t.stale = s.stale) ∧
        ∀ tb, s.table? G.asid (o.cells.getD 0 0) = some tb →
          (∀ va p, tb.desc.rowbase ≤ va → va < tb.desc.rowbase + tb.desc.width * tb.desc.cap → s.translate tb.asid (va / 4096 * 4096) = .ok p →
            let cell := cellOf tb.desc.aper (p.pa va)
            inPeer cell = false → tb.desc.aper < 3 → t.readCell (2 * tb.desc.aper) cell = Memory.get s.mem cell ∧
              t.readCell (2 * tb.desc.aper + 1) cell = Memory.get s.mem cell) ∧
          ∀ path cell, path ≠ 2 * tb.desc.aper → path ≠ 2 * tb.desc.aper + 1 → t.readCell path cell = s.readCell path cell) ∧
    (∀ x : RowFault, s.opEffect o = .error x → (onAcc o.instr = true → G.accHead o = true) → s.opHeld o = false →
      ∃ (t : State) (f : Flt), exec (.engineSideFault ctx op) s = .next t ∧ f.cls = x.cls ∧ f.code = x.code ∧
        f.words = laneIds.map (fun l => (l, BitVec.ofNat 32 (o.ctr.getD 0 + 8 * (o.seq % 2 ^ 29)), x.faddr)) ∧
        (t.gang ctx).ops = G.ops.map (fun (p : Work) => if p.id = op then { p with fault := some f } else p) ∧
        (∀ w k, (t.gang ctx).counter w k = G.counter w k) ∧ t.mem = s.mem ∧ (t.gang ctx).cmem = G.cmem ∧ (t.gang ctx).firn = G.firn ∧
        (∀ g, g ≠ ctx → t.gang g = s.gang g) ∧ (∀ n ∈ x.retires, n ∈ t.lost) ∧
        (t.gang ctx).tiles = (match o.instr with
          | .cpb .. | .tgath .. | .xaccTile .. => G.tiles.map fun u => if u.num = o.tiles.getD 0 0 then { u with st := .empty } else u
          | _ => G.tiles) ∧
        (∀ m a b k cc y, o.instr = .xmma m a b k cc y → x.cls = 6 → x.code = 7 → wg < G.wgs.length →
          ∀ e < mapRows (o.uni.getD 0 0) * mapRows (o.uni.getD 1 0), (store t).getAcc (16 * y.toNat + e) = 0) ∧
        (W.cause.isSome = true → t.warp ctx o.warp = W) ∧
        (W.cause = none → o.warp < G.warps.length →
          let parked := laneIds.filter fun l => (W.lane l).slot matches .parked (.waitc ..)
          let why (ls : List Nat) : Cause :=
            { cls := x.cls, code := x.code, pc := o.pc, lanes := ls, words := f.words, masks := [], stuck := false, atIssue := false }
          let taken (ls : List Nat) : Warp := { W with cause := some (why ls) }
          (parked ≠ [] → t.warp ctx o.warp = taken parked) ∧
          (parked = [] → t.warp ctx o.warp = W ∨ ∃ ls, ls ≠ [] ∧ t.warp ctx o.warp = taken ls))) ∧
    -- the faults that engines find
    (∀ (g : BitVec 2) (d a b : BitVec 7) (k : BitVec 4) (cc : BitVec 7) (x : BitVec 16) (row : Arg → Table × List Nat) (pre : List Arg) (y : Arg) (post : List Arg) (cls code : BitVec 8),
      o.instr = .cpl g d a b k cc x → o.args = pre ++ y :: post →
      let out := k.toNat % 2 == 1
      let z := CopyLane.of x y
      (∀ q ∈ pre, (CopyLane.of x q).Row s G.asid out (row q).1 (row q).2) → (out = true ∨ z.v ≠ 0) →
      s.RowSideFault G.asid z.rr z.ro (if out then 32 else z.v) (if out then .write else .read) cls code →
      ∃ e, s.opEffect o = .error e ∧ e.cls = cls ∧ e.code = code ∧ e.faddr = BitVec.ofNat 32 (z.rr.toNat % 2 ^ 32)) ∧
    (∀ (m : BitVec 4) (d a : BitVec 7) (f : BitVec 4) (x : BitVec 16) (u : Tile), o.instr = .cpb m d a f x → G.tile? (o.tiles.getD 0 0) = some u →
      let rr := o.uni.getD 1 0
      let row := rr.toNat % 2 ^ 32
      let rb := if f.toNat ≤ 2 then tileRowBytes u.desc else tileCols u.desc * esize f.toNat
      let finds (cls code : BitVec 8) (n : Nat) : Prop :=
        ∃ e, s.opEffect o = .error e ∧ e.cls = cls ∧ e.code = code ∧ e.faddr = BitVec.ofNat 32 n
      (s.table? G.asid (rr.toNat / 2 ^ 48) = none → finds 0x0B 1 row) ∧
      ∀ tb, s.table? G.asid (rr.toNat / 2 ^ 48) = some tb →
        (tb.desc.cap ≤ row → finds 0x0B 2 row) ∧ (row < tb.desc.cap → ¬ s.Current G.asid rr tb → finds 0x0B 3 row) ∧
        (s.Current G.asid rr tb → (tb.desc.tkind ≠ 0 → finds 0x0A 5 row) ∧
          (tb.desc.tkind = 0 → tb.desc.cap < row + tileRows u.desc ∨ tb.desc.width < x.toNat + rb → finds 0x0A 4 row) ∧
          (tb.desc.tkind = 0 → row + tileRows u.desc ≤ tb.desc.cap → x.toNat + rb ≤ tb.desc.width →
            ∀ r < tileRows u.desc, (∀ q < r, ∃ cs, s.RunIs tb (row + q) x.toNat rb (if m.toNat % 2 = 1 then .write else .read) cs) →
              ∀ p : XFault, p.code.toNat ≤ 5 →
                s.cellsAt tb.asid tb.desc.aper (tb.desc.rowbase + (row + r) * tb.desc.width + x.toNat) rb (if m.toNat % 2 = 1 then .write else .read) =
                  .error p → finds 0x0D p.code (row + r)))) ∧
    (∀ (m : BitVec 4) (a b : BitVec 7) (k : BitVec 4) (cc : BitVec 7) (y : BitVec 12) (x : XmmaRows), o.instr = .xmma m a b k cc y →
      s.XmmaReads G m.toNat o.uni x →
      (¬ x.MetaOk m.toNat o.uni → s.opEffect o = .error (engFault 6 7 0)) ∧
      (x.MetaOk m.toNat o.uni → ¬ x.TernOk m.toNat o.uni → s.opEffect o = .error (engFault 6 8 0))) ∧
    (s.opHeld o = true →
      (∀ x, s.sideFault o = some x → exec (.engineSideFault ctx op) s = .next (s.wakeOp o)) ∧
      (∀ ws, s.opEffect o = .ok ws →
        (∀ g d a b k cc x, o.instr = .cpl g d a b k cc x → exec (.cplComplete ctx op) s = .next (s.wakeOp o)) ∧
        (∀ m d a f x, o.instr = .cpb m d a f x → exec (.cpbComplete ctx op) s = .next (s.wakeOp o)) ∧
        (∀ m a b k cc x, o.instr = .xmma m a b k cc x → G.accHead o = true → exec (.xmmaComplete ctx op) s = .next (s.wakeOp o))))) ∧
  -- the CRCs of a sealed table (10 R220)
  (∀ (t : Table) (n rows ro rb k : Nat), 0 < rb →
    (k ∈ crcBlocks t n rows ro rb ↔ ∃ r < rows, ∃ j < rb, k = ((n + r) * t.desc.width + ro + j) / 4096)) ∧
  (∀ (s : State) (die : Nat) (t : Table) (view row k : Nat) (ks : List Nat), s.recrc die t view row (k :: ks) = (s.recrc die t view row [k]).recrc die t view row ks) ∧
  (∀ (s : State) (die : Nat) (t : Table) (view row k : Nat) (cs ds : List Nat),
    let n := min 4096 (t.desc.width * t.desc.cap - 4096 * k)
    s.cellsAt t.asid t.desc.aper (t.desc.rowbase + 4096 * k) n .read = .ok cs → (∀ a ∈ cs, s.containedCell a = false ∧ s.lostCell a = false) →
    s.failedLines t.asid (t.desc.rowbase + 4096 * k) cs = [] →
    s.cellsAt t.asid 0 (t.desc.crcbase + 8 * k) 8 .write = .ok ds → (∀ a ∈ ds, s.containedCell a = false ∧ s.lostCell a = false ∧ inPeer a = false) →
    ds.Nodup → Memory.wf s.mem = true →
    let bs := cs.map (s.readCell (2 * t.desc.aper + view)) ++ List.replicate (4096 - n) 0
    let u := s.recrc die t view row [k]
    (∀ j < 8, Memory.get u.mem (ds.getD j 0) = (crc64 bs).extractLsb' (8 * j) 8) ∧ (∀ a, a ∉ ds → Memory.get u.mem a = Memory.get s.mem a) ∧
      u.gangs = s.gangs) ∧
  crc64 [0x31, 0x32, 0x33, 0x34, 0x35, 0x36, 0x37, 0x38, 0x39] = 0x6C40DF5F0B497347 ∧
  -- the fields of an operand map and of a tile descriptor (11 R233, R234; 09 R202, R203)
  (∀ m : DWord, mapCls m = m.toNat / 2 ^ 62 ∧ mapMf m = m.toNat / 2 ^ 58 % 16 ∧ mapSs m = m.toNat / 2 ^ 56 % 4 ∧
    mapRows m = m.toNat / 2 ^ 46 % 1024 + 1 ∧ mapCols m = m.toNat / 2 ^ 36 % 1024 + 1 ∧ mapSloc m = m.toNat / 2 ^ 16 % 256 ∧ mapLoc m = m.toNat % 256) ∧
  (List.range 10).map mfBits = [16, 16, 8, 8, 8, 8, 4, 8, 2, 4] ∧
  (∀ (mode : Nat) (m : DWord), denseK mode m = if mode = 1 ∨ mode = 2 then 2 * mapCols m else mapCols m) ∧
  ∀ d : DWord, tileBase d = 64 * (d.toNat / 2 ^ 32 % 2 ^ 16) ∧ tileTf d = d.toNat / 2 ^ 28 % 16 ∧ tileCols d = d.toNat / 2 ^ 10 % 1024 + 1 ∧
    tileRows d = d.toNat % 1024 + 1 ∧ tileRowBytes d = tileCols d * [32, 16, 16, 8, 8, 8, 4, 2].getD (tileTf d) 2 / 8

/-- 11 R231, R244 to R246: where its workgroup holds the accumulator store, ISSUE holds every fibre and the region lies in the store, XACC `.zero`,
`.wr` and `.rd` join the workgroup's order; with none before it there a `.zero`
clears every element of its region and the SAT bit of every line that it touches, a `.wr` leaves each element that lanes name with the highest such lane's D, and a
`.rd` answers each lane with its element and, in V of f0, its line's SAT bit. An element index beyond the region faults MATRIX.ACC. -/
def Obligations.AccumulatorAccess : Prop :=
  ∀ (d a b : BitVec 7) (c : Cur) (s : State),
    let G := s.gang c.gang
    let W := G.warp c.warp
    let r := W.s a.toNat
    let size := regRows r * regCols r
    let store (t : State) : Wg := (t.gang c.gang).wgs.getD W.wg default
    let elem (l : Nat) : Nat := 16 * regLine r + (W.get l b.toNat).toNat
    (Issues (.xaccZero a) c s → needsRegion a c s = none → Present c s → W.wg < G.wgs.length → G.accOps W.wg = [] →
      ∃ t, exec (.xaccZero a) s = .next t ∧ (∀ e < size, (store t).getAcc (16 * regLine r + e) = 0) ∧
        (∀ e, e < 16 * regLine r ∨ 16 * regLine r + size ≤ e → (store t).getAcc e = (store s).getAcc e) ∧
        ∀ n, n ∈ (store t).sat ↔ n ∈ (store s).sat ∧ ∀ e < size, n ≠ (16 * regLine r + e) / 16) ∧
    (needsRegion a c s = none → Present c s → W.wg < G.wgs.length → G.accOps W.wg = [] → (∀ l ∈ c.issue, (W.get l b.toNat).toNat < size) →
      (Issues (.xaccRd d a b) c s → ∃ t, exec (.xaccRd d a b) s = .next t ∧ store t = store s ∧
        ∃ o ∈ (t.gang c.gang).accs, o.id = s.nextId ∧ o.vals = c.issue.flatMap fun l =>
          [W.put l d.toNat ((store s).getAcc (elem l)), (.flag l 0, if (store s).sat.contains (elem l / 16) then 1 else 0)]) ∧
      (Issues (.xaccWr d a b) c s → ∃ t, exec (.xaccWr d a b) s = .next t ∧ (store t).sat = (store s).sat ∧
        (∀ e, (∀ l ∈ c.issue, e ≠ elem l) → (store t).getAcc e = (store s).getAcc e) ∧
        ∀ lower l upper, c.issue = lower ++ l :: upper → (∀ k ∈ upper, elem k ≠ elem l) →
          (store t).getAcc (elem l) = W.get l d.toNat)) ∧
    (Issues (.xaccRd d a b) c s → needsRegion a c s = none →
      (∀ l ∈ c.issue, (W.get l b.toNat).toNat < regRows r * regCols r) →
      exec (.xaccRd d a b) s = .next ((s.advance (.xaccRd d a b) c).accIssue { s.newWork c (.xaccRd d a b)
        (W.args c.issue (fun _ => 0) (fun _ => 0) (fun l => (W.get l b.toNat).setWidth 128) fun _ => 0) [r] with
          awaits := c.issue.flatMap fun l => [W.loc l d.toNat, .flag l 0] })) ∧
    (Issues (.xaccWr d a b) c s → needsRegion a c s = none →
      (∀ l ∈ c.issue, (W.get l b.toNat).toNat < regRows r * regCols r) →
      exec (.xaccWr d a b) s = .next ((s.advance (.xaccWr d a b) c).accIssue (s.newWork c (.xaccWr d a b)
        (W.args c.issue (fun l => (W.get l d.toNat).setWidth 128) (fun _ => 0) (fun l => (W.get l b.toNat).setWidth 128)
          fun _ => 0) [r]))) ∧
    (∀ i ∈ [Instr.xaccRd d a b, .xaccWr d a b], Issues i c s → needsRegion a c s = none →
      (∃ l ∈ c.issue, size ≤ (W.get l b.toNat).toNat) → exec i s = .next (s.faulted c (flt 6 6)))

/-- 10 R210, R227, R229: WAITC goes on where the counter is down to its bound, and parks ISSUE otherwise; QPOP takes the oldest
entries, one a lane in lane order, and gives each lane its entry with Z of f0, and 0 where there is none, or faults ENGINE.QWIDTH where an entry
has another width; QPUSH appends one entry a lane in lane order; SPLD loads, stops and
queries the producer, or faults ENGINE.STREAM where the handle names no stream program; without a producer slot each of them faults
ENGINE.SLOT. What `.qry` shows as the next operation once the program has ended or faulted is the model's choice (log 88). -/
def Obligations.WaitcAndQueueInstructions : Prop :=
  ∀ (k q : BitVec 3) (n : BitVec 8) (w : BitVec 2) (d a : BitVec 7) (c : Cur) (s : State),
    let G := s.gang c.gang
    let W := G.warp c.warp
    (Issues (.waitc k n) c s →
      (G.counter c.warp k.toNat ≤ n.toNat → exec (.waitc k n) s = .next (s.advance (.waitc k n) c)) ∧
      (n.toNat < G.counter c.warp k.toNat →
        exec (.waitc k n) s = .next (s.parks (.waitc k n) c c.issue (.waitc k.toNat n.toNat)))) ∧
    (∀ p, G.producer = some p →
      (Issues (.qpop q w d) c s → (∀ e ∈ (G.queues.getD q.toNat []).take c.issue.length, e.width = w.toNat) →
        ∃ t, exec (.qpop q w d) s = .next t ∧
          (c.gang < s.gangs.length → q.toNat < G.queues.length →
            (t.gang c.gang).queues.getD q.toNat [] = (G.queues.getD q.toNat []).drop c.issue.length ∧
            ∃ o ∈ (t.gang c.gang).accs, o.id = s.nextId ∧ o.vals = c.issue.zipIdx.flatMap fun p =>
              let e := (G.queues.getD q.toNat [])[p.2]?
              ((List.range (if w.toNat = 1 then 2 else if w.toNat = 2 then 4 else 1)).map fun k =>
                W.put p.1 (d.toNat + k) (((e.map fun (x : QEntry) => x.val).getD 0).extractLsb' (32 * k) 32)) ++ [(.flag p.1 0, if e.isSome then 4 else 0)])) ∧
      (Issues (.qpop q w d) c s → (∃ e ∈ (G.queues.getD q.toNat []).take c.issue.length, e.width ≠ w.toNat) →
        exec (.qpop q w d) s = .next (s.faulted c (flt 0x0A 9))) ∧
      (Issues (.qpush q w a) c s → exec (.qpush q w a) s = .next ((s.advance (.qpush q w a) c).mapGang c.gang fun H =>
        { H with queues := H.queues.modify q.toNat fun es =>
          es ++ c.issue.map fun l => { width := w.toNat, val := W.data l a.toNat w.toNat } })) ∧
      (∀ t, Issues (.spldLoad a) c s → s.streamTable G.asid ((W.s a.toNat).setWidth 32) = some t →
        exec (.spldLoad a) s = .next (((s.advance (.spldLoad a) c).noteProgram (Site.ofCore c.core) t).mapGang c.gang fun H =>
          { H with producer := some (s.loadStream t W.s c.warp c.pc p.pending) })) ∧
      (Issues (.spldLoad a) c s → s.streamTable G.asid ((W.s a.toNat).setWidth 32) = none →
        exec (.spldLoad a) s = .next (s.faulted c (flt 0x0A 8))) ∧
      (Issues .spldStop c s → exec .spldStop s = .next ((s.advance .spldStop c).mapGang c.gang fun H =>
        { H with producer := H.producer.map fun (r : Producer) => { r with running := false } })) ∧
      (Issues (.spldQry d) c s → exec (.spldQry d) s = .next (s.scoreboards (.spldQry d) c []
        (c.issue.map fun l => W.put l d.toNat (BitVec.ofNat 32 ((if p.running then 1 else 0) + (if p.ended then 2 else 0) +
          (if p.faulted then 4 else 0) + 256 * (p.next % 256))))))) ∧
    (G.producer = none →
      (Issues (.qpop q w d) c s → exec (.qpop q w d) s = .next (s.faulted c (flt 0x0A 2))) ∧
      (Issues (.qpush q w a) c s → exec (.qpush q w a) s = .next (s.faulted c (flt 0x0A 2))) ∧
      (Issues (.spldLoad a) c s → exec (.spldLoad a) s = .next (s.faulted c (flt 0x0A 2))) ∧
      (Issues .spldStop c s → exec .spldStop s = .next (s.faulted c (flt 0x0A 2))) ∧
      (Issues (.spldQry d) c s → exec (.spldQry d) s = .next (s.faulted c (flt 0x0A 2))))

/-- 10 R224 to R227: SPLD `.load` reads the rows of its table and checks them; the first operation that offends faults ENGINE.STREAM with its index, and else
the program runs with the s-registers that it names captured. A running stream program of a gang that holds its core performs one operation at a time: `loop` opens a level
or skips it where the count is 0, `next` goes back or closes it, `src` and `strd` set a stream, a read takes its bytes from the base and the strides of the open levels and converts them, or looks
its key up; past the last row it faults ENGINE.RANGE; while a fetch is under way, or the
queue of the next push is full, nothing happens, and else the next operation is performed; a fetch that has started pushes its entry, for
which room was kept, or stops the program with its fault, and where what it reads makes accesses wait it starts the walks and lets the banks
thaw. That only one fetch is under way at a time is the model's choice (log 44), and so is that an `end` inside an open loop ends the program
(log 45), that a program that runs past its rows stops with ENGINE.RANGE, and the faults of a `seek` whose handle names no such table (log 88). -/
def Obligations.StreamProgramSteps : Prop :=
  ∀ (ctx : Nat) (s : State) (p : Producer), (s.gang ctx).producer = some p →
    ((s.gang ctx).phase = .running → p.running = true → p.fetching = none →
      (∀ H, s.streamStep (s.gang ctx) p = some H → exec (.streamOperation ctx) s = .next (s.mapGang ctx fun _ => H)) ∧
      (∀ w, p.prog[p.next]? = some w → 5 ≤ sopOf w → sopOf w ≤ 8 → 64 ≤ ((s.gang ctx).queues.getD (sopQ w) []).length →
        exec (.streamOperation ctx) s = .next s) ∧
      (∀ w, p.prog[p.next]? = some w → 5 ≤ sopOf w → sopOf w ≤ 7 → ((s.gang ctx).queues.getD (sopQ w) []).length < 64 →
        exec (.streamOperation ctx) s = .next (s.mapGang ctx fun G =>
          { G with producer := some { p with next := p.next + 1, fetching := some p.next } })) ∧
      (∀ w, p.prog[p.next]? = some w → sopOf w = 8 → ((s.gang ctx).queues.getD (sopQ w) []).length < 64 →
        exec (.streamOperation ctx) s = .next (s.mapGang ctx fun G =>
          { G with producer := some { p with next := p.next + 1 }, queues := (G.queues.modify (sopQ w) fun es =>
            es ++ [{ width := 0, val := (fld w 0 32).setWidth 128 }]) })) ∧
      (∀ w, p.prog[p.next]? = some w → sopOf w = 0 → exec (.streamOperation ctx) s =
        .next (s.mapGang ctx fun _ => { s.gang ctx with producer := some { p with running := false, ended := true } })) ∧
      (∀ w, p.prog[p.next]? = some w →
        let bits (lo n : Nat) : Nat := w.toNat / 2 ^ lo % 2 ^ n
        let k := bits 58 2
        let goes (q : Producer) : Prop := exec (.streamOperation ctx) s = .next (s.mapGang ctx fun G => { G with producer := some q })
        let taken (n : Nat) : DWord := (p.captured.lookup n).getD 0
        (bits 60 4 = 1 →
          let n := if bits 57 1 = 1 then (taken (bits 32 6)).toNat else bits 0 32
          (n ≠ 0 → goes { p with next := p.next + 1, loops := { level := k, idx := 0, count := n, start := p.next + 1 } :: p.loops }) ∧
          (n = 0 → ∀ j, p.next < j → j < p.prog.length →
            let closes (i : Nat) : Prop := (p.prog.getD i 0).toNat / 2 ^ 60 = 2 ∧ (p.prog.getD i 0).toNat / 2 ^ 58 % 4 = k
            closes j → (∀ i, p.next < i → i < j → ¬ closes i) → goes { p with next := j + 1 })) ∧
        (bits 60 4 = 2 → ∀ l r, p.loops = l :: r →
          (l.idx + 1 < l.count → goes { p with next := l.start, loops := { l with idx := l.idx + 1 } :: r }) ∧
          (l.count ≤ l.idx + 1 → goes { p with next := p.next + 1, loops := r })) ∧
        (bits 60 4 = 3 → goes { p with next := p.next + 1, streams := p.streams.map fun (t : Stream) =>
          if t.k = k then { t with handle := BitVec.ofNat 32 (taken (bits 52 6)).toNat, base := bits 0 44 } else t }) ∧
        (bits 60 4 = 4 → goes { p with next := p.next + 1, streams := p.streams.map fun (t : Stream) =>
          if t.k = k then { t with strides := t.strides.set (bits 56 2) (BitVec.ofNat 32 (bits 0 32)).toInt } else t })) ∧
      ((p.prog[p.next]? = none ∨ ∃ w, p.prog[p.next]? = some w ∧ 8 < sopOf w) → ctx < s.gangs.length →
        ∃ t r x, exec (.streamOperation ctx) s = .next t ∧ (t.gang ctx).producer = some r ∧ r.running = false ∧ r.faulted = true ∧
          r.fetching = none ∧ r.next = p.next ∧ r.pending = p.pending ++ [(p.warp, p.pc, x)] ∧ x.cls = 0x0A ∧
          x.code = (if p.prog[p.next]? = none then 4 else 8) ∧ ∀ y ∈ x.words, y.2.2 = BitVec.ofNat 32 p.next)) ∧
    -- the program and its check at SPLD .load (10 R224, R226, R227)
    (∀ (t : Table) (regs : Nat → DWord) (warp : Nat) (pc : Word) (owed : List (Nat × Word × Flt)),
      let n := min t.desc.cap 257
      let r := s.loadStream t regs warp pc owed
      r.warp = warp ∧ r.pc = pc ∧ r.next = 0 ∧ r.loops = [] ∧ r.ended = false ∧ r.fetching = none ∧
      r.streams = (List.range 4).map (fun k => { k := k, handle := 0, base := 0, strides := [0, 0, 0, 0] }) ∧
      ∀ cells : Nat → List Nat, (∀ j < n, s.RunIs t j 0 8 .read (cells j)) →
        let ws := (List.range n).map fun j => BitVec.ofNat 64 (leNat ((cells j).map (s.readCell (2 * t.desc.aper))))
        let done (i : Nat) : Prop := ∃ j < i, j < ws.length ∧ (ws.getD j 0).toNat / 2 ^ 60 = 0 ∧ openAt ws j = []
        let bad (i : Nat) : Prop := OffendsAt ws i ∧ ¬ done i ∧ ∀ j < i, ¬ OffendsAt ws j
        (∀ i, bad i → r.running = false ∧ r.faulted = true ∧ ∃ x, r.pending = owed ++ [(warp, pc, x)] ∧ x.cls = 0x0A ∧ x.code = 8 ∧
          ∀ y ∈ x.words, y.2.2 = BitVec.ofNat 32 i) ∧
        ((∀ i, ¬ bad i) → r.running = true ∧ r.faulted = false ∧ r.pending = owed ∧ r.prog = ws.take 256 ∧
          ∀ w ∈ ws.take 256, let bits (lo n : Nat) : Nat := w.toNat / 2 ^ lo % 2 ^ n
            (bits 60 4 = 1 → bits 57 1 = 1 → r.captured.lookup (bits 32 6) = some (regs (bits 32 6))) ∧
            (bits 60 4 = 3 → r.captured.lookup (bits 52 6) = some (regs (bits 52 6))) ∧
            (bits 60 4 = 7 → r.captured.lookup (bits 46 6) = some (regs (bits 46 6))))) ∧
    -- the entry of a read (10 R225)
    (∀ (asid : Nat) (w : DWord),
      let bits (lo n : Nat) : Nat := w.toNat / 2 ^ lo % 2 ^ n
      let st := (p.streams[bits 58 2]?).getD default
      let a : Int := (st.base : Int) + (p.loops.map fun l => (l.idx : Int) * st.strides.getD l.level 0).sum
      let op := bits 60 4
      let f := bits 49 4
      let wd := bits 53 2
      let kt := bits 52 3
      let len := if op = 7 then 4 * keyRegs kt else if f ≤ 2 then 4 * 2 ^ f else 2 ^ wd * esize f
      let r := s.streamEntry asid p w
      let finds (cls code : BitVec 8) (n : Nat) : Prop := ∃ e, r = .error e ∧ e.cls = cls ∧ e.code = code ∧ e.faddr = BitVec.ofNat 32 n
      5 ≤ op → op ≤ 7 → (op ≤ 6 → wd ≤ 2) →
      (s.handle? asid st.handle = none → finds 0x0B 1 0) ∧
      ∀ t, s.handle? asid st.handle = some t →
        let row := (a / (t.desc.width : Int)).toNat
        (t.desc.tkind ≠ 0 → finds 0x0A 5 row) ∧
        (t.desc.tkind = 0 → a < 0 ∨ ((t.desc.width * t.desc.cap : Nat) : Int) < a + len → finds 0x0A 4 row) ∧
        (t.desc.tkind = 0 → 0 ≤ a → a + len ≤ ((t.desc.width * t.desc.cap : Nat) : Int) →
          ∀ cs, s.cellsAt t.asid t.desc.aper (t.desc.rowbase + a.toNat) len .read = .ok cs →
            (∀ x ∈ cs, s.containedCell x = false ∧ s.lostCell x = false) → s.failedLines t.asid (t.desc.rowbase + a.toNat) cs = [] →
            let bs := cs.map (s.readCell (2 * t.desc.aper + if op = 6 then 1 else 0))
            (op ≠ 7 → f ≤ 2 → r = .ok { width := wd, val := BitVec.ofNat 128 (leNat bs) }) ∧
            (op ≠ 7 → 3 ≤ f → ∃ v : QWord, r = .ok { width := wd, val := v } ∧ ∀ j < 2 ^ wd,
              v.extractLsb' (32 * j) 32 = (loadConv f (leNat ((bs.drop (j * esize f)).take (esize f)))).setWidth 32) ∧
            (op = 7 →
              let h := BitVec.ofNat 32 ((p.captured.lookup (bits 46 6)).getD 0).toNat
              (s.handle? asid h = none → finds 0x0B 1 0) ∧
              ∀ u, s.handle? asid h = some u →
                (u.desc.tkind = 0 → finds 0x0B 6 0) ∧ (u.desc.tkind ≠ 0 → u.desc.keyt ≠ kt → finds 0x0B 7 0) ∧
                (u.desc.tkind ≠ 0 → u.desc.keyt = kt →
                  let key := keyNum kt (BitVec.ofNat 128 (leNat bs))
                  (∀ e, u.find key = some e → r = .ok { width := 1, val := (u.ref e.row).setWidth 128 }) ∧
                  (u.find key = none → r = .ok { width := 1, val := BitVec.ofNat 128 (2 ^ 64 - 1) }))))) ∧
    (p.fetching.isSome = true → exec (.streamOperation ctx) s = .next s) ∧
    (∀ n, p.fetching = some n → s.fetchWaits (s.gang ctx).asid p (p.prog.getD n 0) = true →
      exec (.streamFetchComplete ctx) s = .next (s.wakeSpans (s.fetchSpans (s.gang ctx).asid p (p.prog.getD n 0)))) ∧
    (∀ n, p.fetching = some n →
      let w := p.prog.getD n 0
      let asid := (s.gang ctx).asid
      s.fetchWaits asid p w = false →
      (∀ e, s.streamEntry asid p w = .ok e →
        exec (.streamFetchComplete ctx) s = .next ((s.noteRun (s.gang ctx).place.id asid p w).mapGang ctx fun G =>
          { G with producer := some { p with fetching := none }, queues := (G.queues.modify (sopQ w) fun es => es ++ [e]) })) ∧
      (∀ f, s.streamEntry asid p w = .error f → ctx < s.gangs.length → ∃ t r x, exec (.streamFetchComplete ctx) s = .next t ∧
        (t.gang ctx).producer = some r ∧ r.running = false ∧ r.faulted = true ∧ r.fetching = none ∧
        r.pending = p.pending ++ [(p.warp, p.pc, x)] ∧ x.cls = f.cls ∧ x.code = f.code ∧ ∀ y ∈ x.words, y.2.2 = f.faddr))

/-- 13 R253, R255, R257, R259, R260: LDR and LDRI. Where every lane of ISSUE passes the checks of its row reference the load starts, and each lane's element will land in its
register form; the first lane that fails a check faults the warp, and nothing is read. The checks of a reference are TABLE.HANDLE, ROW, STALE, OFFS and ALIGN, then those of the translation, then
CONTAIN, each with its TRAPAUX and FADDR (20 R327). What lies at the length of a row of mixed width or above it reads as 0. That the load reads memory at its issue is the model's
choice (logs 5 and 17). -/
def Obligations.RowLoadResults : Prop :=
  ∀ (f : BitVec 4) (g : BitVec 3) (i : BitVec 8) (d a b : BitVec 7),
    RowLoads (.ldr f d a b) f.toNat d.toNat (fun W l => W.get64 l a.toNat) (fun W l => (W.get l b.toNat).toNat) ∧
    RowLoads (.ldri g i d a) (iFmt g.toNat) d.toNat (fun W l => W.get64 l a.toNat)
      (fun _ _ => esize (iFmt g.toNat) * i.toNat) ∧
    MemoryForms ∧
    ∀ s : State, (∀ c e k ref off, LaneChecks s c e k ref off) ∧ (∀ asid l r o e k, 0 < e → RowChecks s asid l r o e k) ∧
      ∀ t row view, RowLength s t row view

/-- 13 R255, R259 to R261: STR and STRI. Where every lane of ISSUE passes the checks and no line is lost, the store completes: every byte that no lane's element covers
keeps its value, and the cells of each lane's element in a row of fixed length hold the bytes of its data unless a higher lane stores there too (in the peer window they
go out to the remote device, 20 R337); of one element in a row of mixed width the bytes at the row's length and above are discarded; the first lane that fails a check faults the warp, and nothing is stored. That a store acts on
memory at its issue is the model's choice (log 17), and so is that the other agents may see it only later (log 5), of which nothing is said
here. -/
def Obligations.RowStoreEffects : Prop :=
  ∀ (f : BitVec 4) (g : BitVec 3) (i : BitVec 8) (d a b : BitVec 7),
    RowStores (.str f d a b) f.toNat d.toNat (fun W l => W.get64 l a.toNat) (fun W l => (W.get l b.toNat).toNat) ∧
    RowStores (.stri g i d a) (iFmt g.toNat) d.toNat (fun W l => W.get64 l a.toNat)
      (fun _ _ => esize (iFmt g.toNat) * i.toNat) ∧
    ∀ s : State, (∀ c ref off, LaneChecks s c (esize f.toNat) .write ref off) ∧
      (∀ as, (lostLane s as = none ↔ ∀ q ∈ as, ∀ a ∈ q.cells, s.lostCell a = false) ∧
        ∀ lower q upper, as = lower ++ q :: upper → (∀ p ∈ lower, ∀ a ∈ p.cells, s.lostCell a = false) → (∃ a ∈ q.cells, s.lostCell a = true) →
          lostLane s as = some (fltAt 0x0E 1 q.lane 0 (BitVec.ofNat 32 q.row)))

/-- 13 R264 to R266: the keyed instructions. Where the checks of the handle, key type and offset pass, the lanes' operations join the work of the index engines at the table, in ascending lane order, each with its key and data, and
D and f0 await them; the check that fails first, of TABLE.HANDLE, KIND, KEYT, OFFS and ALIGN in this order, faults the warp, and nothing starts. TUPD `.fmt` also needs every lane's code to be a format that rows have,
and faults TABLE.FMT for the lowest lane whose code is not. -/
def Obligations.KeyedInstructionsStart : Prop :=
  ∀ (f o : BitVec 4) (m : BitVec 1) (d a b cc : BitVec 7) (sc : BitVec 3) (ord : BitVec 2) (x : BitVec 16),
    let none' : Warp → Nat → QWord := fun _ _ => 0
    let word : Warp → Nat → QWord := fun W l => (W.get l b.toNat).setWidth 128
    let keyed (t : Table) : Prop := t.desc.tkind ≠ 0
    KeyedStarts (.ldk f d a sc ord o cc x) cc.toNat o.toNat (esize f.toNat) x.toNat a.toNat d.toNat (fmtRegs f.toNat) keyed none' none' ∧
    KeyedStarts (.stk f d a sc ord o cc x) cc.toNat o.toNat (esize f.toNat) x.toNat a.toNat d.toNat 0 keyed
      (fun W l => W.data l d.toNat f.toNat) none' ∧
    KeyedStarts (.tget d a sc ord o cc) cc.toNat o.toNat 0 0 a.toNat d.toNat 2 keyed none' none' ∧
    KeyedStarts (.tins m d a b sc ord o cc x) cc.toNat o.toNat 4 x.toNat a.toNat d.toNat 2 keyed none' word ∧
    KeyedStarts (.tdel d a sc ord o cc) cc.toNat o.toNat 0 0 a.toNat d.toNat 2 keyed none' none' ∧
    KeyedStarts (.tupdVal d a b sc ord o cc x) cc.toNat o.toNat 4 x.toNat a.toNat d.toNat 1 keyed none' word ∧
    ∀ (c : Cur) (s : State), Issues (.tupdFmt d a b sc ord o cc) c s →
      let i := Instr.tupdFmt d a b sc ord o cc
      let W := s.warp c.gang c.warp
      let u := s.advance i c
      let code (l : Nat) : Nat := (W.get l b.toNat).toNat % 256
      let chk := s.keyCheck c i (W.s cc.toNat) o.toNat 0 0
      KeyChecks s c i (W.s cc.toNat) o.toNat 0 0 (fun t => t.desc.tkind ≠ 0 ∧ t.desc.tflags.getLsbD 0 = true) ∧
      (∀ t, chk = .ok t → (∀ l ∈ c.issue, 1 ≤ code l ∧ code l ≤ 7) → ∃ w, exec i s = .next { u with idx := u.idx ++ [w], nextId := u.nextId + 1 } ∧
        w.id = s.nextId ∧ w.ctx = c.gang ∧ w.warp = c.warp ∧ w.instr = i ∧ w.cells = [t.slot] ∧ w.mark = 0 ∧ w.vals = [] ∧ w.fault = none ∧
        w.args.map (fun q => (q.lane, q.b)) = (c.issue.map fun l => (l, (W.get l b.toNat).setWidth 128)) ∧
        w.args.map (fun q => keyNum o.toNat q.a) = (c.issue.map fun l => keyNum o.toNat (W.keyVal l a.toNat o.toNat)) ∧
        w.awaits = c.issue.flatMap fun l => [W.loc l d.toNat, .flag l 0]) ∧
      (∀ x, chk = .error x → exec i s = .next (s.faulted c x)) ∧
      ∀ t l, chk = .ok t → (c.issue.find? fun k => decide (code k = 0 ∨ 8 ≤ code k)) = some l →
        exec i s = .next (s.faulted c (fltAt 0x0B 9 l 0 (BitVec.ofNat 32 (code l))))

/-- 13 R267 to R269: cursors. TSEEK opens a cursor for each lane of ISSUE, the lowest lane first, with the lowest number that its workgroup has free, which
D receives with Z of f0, and gives -1 where the workgroup has no number or the core no entry left, or only entries that pre-emption holds for
another gang (22 R364; what a hold covers is the model's choice, log 56); STEP sends the lanes' steps to the index engines; CLOSE forgets each lane's
cursor; KEY gives the key of the last row that each lane's cursor returned. The first check of TSEEK that fails, or the first lane of CLOSE, STEP or KEY that fails one, faults
the warp: a number that names no open cursor faults TABLE.CURSOR with the number in FADDR, one whose table is gone TABLE.HANDLE, then a key field that the
cursor's key type does not allow INSN.OPND, and key registers outside the window REG.WINDOW. -/
def Obligations.CursorInstructions : Prop :=
  ∀ (v : BitVec 1) (m : BitVec 2) (o : BitVec 4) (d a b cc : BitVec 7) (sc : BitVec 3) (ord : BitVec 2) (c : Cur) (s : State),
    let G := s.gang c.gang
    let W := G.warp c.warp
    let seek := Instr.tseek v m d a sc ord o cc
    (∀ x, Issues seek c s → s.keyCheck c seek (W.s cc.toNat) o.toNat 0 0 = .error x → exec seek s = .next (s.faulted c x)) ∧
    (∀ t, Issues seek c s → Present c s → W.wg < G.wgs.length → G.resident = true →
      s.keyCheck c seek (W.s cc.toNat) o.toNat 0 0 = .ok t →
      let nums := (G.wgs.getD W.wg default).cursors.map (·.num)
      let frees := (List.range 2048).filter fun n => !nums.contains n
      let core := s.coreOf c.gang c.warp
      ∃ left ≤ 2048 - s.cursorsOn core, ((∀ r ∈ s.reserved, r.2 = c.gang ∨ r.1 / 4 ≠ core / 16) → left = 2048 - s.cursorsOn core) ∧
      let got (j : Nat) : Option Nat := if j < left then frees[j]? else none
      ∃ u, exec seek s = .next u ∧
        (∃ w ∈ (u.gang c.gang).accs, w.id = s.nextId ∧ w.vals = c.issue.zipIdx.flatMap fun p =>
          [W.put p.1 d.toNat (match got p.2 with
            | some n => BitVec.ofNat 32 (2048 * W.wg + n)
            | none => BitVec.ofInt 32 (-1)), (.flag p.1 0, if (got p.2).isSome then 4 else 0)]) ∧
        ∀ lower l upper n, c.issue = lower ++ l :: upper → got lower.length = some n →
          ∃ k ∈ ((u.gang c.gang).wgs.getD W.wg default).cursors, k.num = n ∧ k.slot = t.slot ∧ k.inc = t.desc.inc ∧
            k.key = keyNum o.toNat (W.keyVal l a.toNat o.toNat) ∧ k.rev = decide (v = 1) ∧ k.incl = decide (m.toNat % 2 = 0) ∧
            k.sc = sc.toNat ∧ k.ord = ord.toNat ∧ k.last = none) ∧
    (∀ r : Nat → Nat × Cursor × Table,
      (Issues (.tcurClose a) c s → (∀ l ∈ c.issue, s.curCheck c a none l = .ok (r l)) →
        exec (.tcurClose a) s = .next (c.issue.foldl (fun t l => t.mapGang c.gang fun H => H.mapWg (r l).1 fun (V : Wg) =>
          { V with cursors := V.cursors.filter fun j => j.num ≠ (r l).2.1.num }) (s.advance (.tcurClose a) c))) ∧
      (Issues (.tcurStep d a b) c s → (∀ l ∈ c.issue, s.curCheck c a (some b) l = .ok (r l)) →
        ∃ u, exec (.tcurStep d a b) s = .next u ∧ ∃ w ∈ u.idx, w.id = s.nextId ∧
          w.cells = (c.issue.map fun l => (r l).2.2.slot).eraseDups ∧ w.args.map (·.lane) = c.issue ∧
          w.args.map (fun q => (q.w, q.d)) = (c.issue.map fun l => ((r l).1, BitVec.ofNat 128 (r l).2.1.num)) ∧
          w.awaits = c.issue.flatMap fun l => [W.loc l d.toNat, W.loc l (d.toNat + 1), .flag l 0]) ∧
      (Issues (.tcurKey d a) c s → (∀ l ∈ c.issue, s.curCheck c a (some d) l = .ok (r l)) →
        exec (.tcurKey d a) s = .next (s.scoreboards (.tcurKey d a) c [] (c.issue.flatMap fun l =>
          ((List.range (keyRegs (r l).2.2.desc.keyt)).map fun j => W.put l (d.toNat + j)
            ((((r l).2.1.last.map (keyWord (r l).2.2.desc.keyt)).getD 0).extractLsb' (32 * j) 32)) ++
            [(.flag l 0, if (r l).2.1.last.isSome then 4 else 0)])))) ∧
    (∀ lower l upper x, c.issue = lower ++ l :: upper →
      (Issues (.tcurClose a) c s → (∀ k ∈ lower, ∃ y, s.curCheck c a none k = .ok y) → s.curCheck c a none l = .error x →
        exec (.tcurClose a) s = .next (s.faulted c x)) ∧
      (Issues (.tcurStep d a b) c s → (∀ k ∈ lower, ∃ y, s.curCheck c a (some b) k = .ok y) → s.curCheck c a (some b) l = .error x →
        exec (.tcurStep d a b) s = .next (s.faulted c x)) ∧
      (Issues (.tcurKey d a) c s → (∀ k ∈ lower, ∃ y, s.curCheck c a (some d) k = .ok y) → s.curCheck c a (some d) l = .error x →
        exec (.tcurKey d a) s = .next (s.faulted c x))) ∧
    -- the checks of one lane of TCUR, in their order
    KeyChecks s c seek (W.s cc.toNat) o.toNat 0 0 (fun t => t.desc.tkind = 1) ∧
    (∀ (l : Nat) (n : Option (BitVec 7)),
      let v := (W.get l a.toNat).toNat
      let open' : Option Cursor := if 8192 ≤ v then none else (G.wgs.getD (v / 2048) default).cursors.find? fun k => decide (k.num = v % 2048)
      (open' = none → s.curCheck c a n l = .error (fltAt 0x0B 8 l 0 (W.get l a.toNat))) ∧
      ∀ k, open' = some k →
        ((∀ t, s.table? G.asid k.slot = some t → t.desc.inc ≠ k.inc) → s.curCheck c a n l = .error (flt 0x0B 1)) ∧
        ∀ t, s.table? G.asid k.slot = some t → t.desc.inc = k.inc →
          (n = none → s.curCheck c a n l = .ok (v / 2048, k, t)) ∧
          ∀ r, n = some r → Decided (s.curCheck c a n l) (.ok (v / 2048, k, t)) [
            ((t.desc.keyt = 2 ∨ t.desc.keyt = 3) ∧ r.toNat % 2 = 1 ∨ t.desc.keyt = 4 ∧ r.toNat % 4 ≠ 0, .error (flt 1 8)),
            (W.fits l r.toNat (keyRegs t.desc.keyt) = false, .error (flt 3 1))])

/-- 13 R262, R263, R266: an index engine performs the next lane of some work, once the warp's earlier work on the table is done and nothing holds its row's bytes; else
the work stays as it is, and where its row's bytes make it wait, its walk starts and its bank thaws. With k present, TGET gives the row's reference and counts a hit, LDK the converted element at AUX with a hit; STK stores its element with a hit; TINS
`.ins` gives the reference with Z 0, `.ups` writes B at AUX; TDEL removes k, LIVE loses 1, and the row's generation gains 1, 0xFFFF being followed by 1; TUPD `.val` gives the old word and
writes B, TUPD `.fmt` gives the hit counter, which it sets to 0, and re-encodes the row. With k absent, TINS takes the lowest free row, zeroes it, writes B, and LIVE gains 1, or gives
all ones with V where the table is full; TGET and TDEL give all ones, LDK and TUPD 0, and STK stores nothing. A fault of the row's bytes is that of the work, and CONTAIN where the die of the engine is dead. A gather's lookup collects
the converted values of its row and the lane's hit bit, and counts a hit, or drops its key; after the last one sD receives the hit bits, and GMISS and the table's MISS gain the dropped keys. A cursor's step answers its
lane with the next key of its direction within the bound, where it then stands, or with all ones and C. That the whole warp's operations on a table are in order is the model's choice (log 18), and so
is what makes an operation wait (log 64). -/
def Obligations.IndexEngineOperations : Prop :=
  ∀ (op : Nat) (s : State) (o : Work), (s.idx.find? fun w => w.id == op) = some o → o.ctx < s.gangs.length →
    let a := o.args.getD o.mark default
    let asid := (s.gang o.ctx).asid
    let slot := o.cells.getD 0 0
    let u := (s.publishIdx o).noteIdx o
    let here : Nat := match o.instr with
      | .tcurStep .. => ((((s.gang o.ctx).wgs.getD a.w default).cursors.find? fun k => decide (k.num = a.d.toNat)).map (·.slot)).getD slot
      | _ => slot
    let dead : Prop := ∃ t, s.table? asid here = some t ∧ Agent.computeDie (t.desc.home / 32) ∈ s.dead
    let done := exec (.indexEngineOperation op) s
    (s.idxReady o = false → done = .next s) ∧
    (s.idxReady o = true → s.spansHeld (s.idxSpans o) = true → done = .next (s.wakeSpans (s.idxSpans o))) ∧
    ((∃ p ∈ s.idx.takeWhile fun p => decide (p.id ≠ o.id), p.ctx = o.ctx ∧ p.warp = o.warp ∧ p.cells.any o.cells.contains = true) →
      s.idxReady o = false) ∧
    (s.idxReady o = true → s.spansHeld (s.idxSpans o) = false →
      -- the die of the index engine is dead
      (dead → (∀ d b x y z w h k, o.instr ≠ .tgath d b x y z w h k) →
        ∃ x f, done = .next x ∧ x.LaneDone o o.vals (some f) ∧ x.mem = s.mem ∧ x.tables = s.tables ∧ (o.fault = some f ∨ (o.fault = none ∧ f = fltAt 0x10 1 a.lane 0 0))) ∧
      -- one lookup of a gather
      (∀ d b x y z w h k op, o.instr = .tgath d b x y z w h k → (s.gang o.ctx).op? o.id = some op → o.mark < o.args.length →
        let tf := (((s.gang o.ctx).tile? (op.tiles.getD 0 0)).map fun t => tileTf t.desc).getD 0
        let drops (vals : List (Tgt × DWord)) : Nat := o.args.length - vals.length
        let goes (t : Table) (hits : List KeyRow) (vals : List (Tgt × DWord)) (bs : List Byte) : Prop :=
          ∃ x t', done = .next x ∧ x.mem = s.mem ∧ x.table? asid slot = some t' ∧ t'.keys = hits ∧ t'.gens = t.gens ∧
            (∃ p, (x.gang o.ctx).op? o.id = some p ∧ p.fault = op.fault ∧ p.cells = op.cells ++ bs.map (·.toNat)) ∧
            (o.mark + 1 < o.args.length → t'.desc = t.desc ∧ ∃ p ∈ x.idx, p.id = o.id ∧ p.mark = o.mark + 1 ∧ p.vals = vals) ∧
            (o.args.length ≤ o.mark + 1 → (∀ p ∈ x.idx, p.id ≠ o.id) ∧
              t'.desc = { t.desc with miss := min (t.desc.miss + drops vals) (2 ^ 32 - 1) } ∧
              ∃ p ∈ (x.gang o.ctx).accs, p.id = o.id ∧ p.vals = o.awaits.zip
                [BitVec.ofNat 64 (vals.map fun v => 2 ^ v.2.toNat).sum, 0,
                  BitVec.ofNat 64 (min ((s.warp o.ctx o.warp).gmiss.toNat + drops vals) (2 ^ 32 - 1))])
        let fails (cls code : BitVec 8) : Prop := ∃ x p f, done = .next x ∧ x.mem = s.mem ∧ (∀ q ∈ x.idx, q.id ≠ o.id) ∧
          (x.gang o.ctx).op? o.id = some p ∧ p.fault = some f ∧ f.cls = cls ∧ f.code = code ∧
          (∀ v, (x.gang o.ctx).tile? (op.tiles.getD 0 0) = some v → op.instr = o.instr → v.st = .empty)
        (dead → fails 0x10 1) ∧
        ∀ t, s.table? asid slot = some t → ¬ dead →
          let k := keyNum t.desc.keyt a.a
          (t.find k = none → goes t t.keys o.vals []) ∧
          ∀ e, t.find k = some e →
            (∀ f, u.keyCells t e.row 0 t.desc.width .read = .error f → fails f.cls f.code) ∧
            ∀ cs, u.keyCells t e.row 0 t.desc.width .read = .ok cs →
              let row := rowVals ((t.desc.width - 2) / 4) (cs.map (u.readCell (2 * t.desc.aper)))
              (row = none → goes t t.keys o.vals []) ∧
              ∀ vs, row = some vs → goes t (t.keys.map fun e => if e.key = k then { e with hits := min (e.hits + 1) 255 } else e)
                (o.vals ++ [(.ms, BitVec.ofNat 64 a.lane)])
                (vs.flatMap fun v => leBytes (([32, 16, 16, 8, 8, 8, 4, 2].getD tf 2 / 8)) (toTileVal tf v))) ∧
      -- one step of a cursor: the next key of its direction, within the bound
      (∀ d b x k t, o.instr = .tcurStep d b x → ¬ dead → (o.tgtsOf o.mark).length ≤ 5 → a.w < (s.gang o.ctx).wgs.length →
        (((s.gang o.ctx).wgs.getD a.w default).cursors.find? fun k => decide (k.num = a.d.toNat)) = some k →
        s.table? asid k.slot = some t → t.keys.Pairwise (fun e g => e.key < g.key) →
        let beyond (x y : Int) : Prop := if k.rev then y < x else x < y
        let ahead (e : KeyRow) : Prop := e ∈ t.keys ∧ (beyond k.key e.key ∨ (k.incl = true ∧ e.key = k.key))
        let next (e : KeyRow) : Prop := ahead e ∧ ∀ g, ahead g → g.key = e.key ∨ beyond e.key g.key
        let bound := keyNum t.desc.keyt a.b
        let answers (d : QWord) (z c : Bool) (P : State → Prop) : Prop :=
          ∃ x, done = .next x ∧ x.LaneDone o (o.vals ++ keyVals (o.tgtsOf o.mark) d (nzcv false z c false)) o.fault ∧ x.mem = s.mem ∧
            x.tables = s.tables ∧ P x
        (∀ e, next e → ¬ beyond bound e.key → answers ((t.ref e.row).setWidth 128) true false fun x =>
          ((x.gang o.ctx).wgs.getD a.w default).cursors = ((s.gang o.ctx).wgs.getD a.w default).cursors.map fun j =>
            if j.num = k.num then { j with key := e.key, incl := false, last := some e.key } else j) ∧
        ((∀ e, next e → beyond bound e.key) → answers (BitVec.ofNat 128 (2 ^ 64 - 1)) false true fun x =>
          ((x.gang o.ctx).wgs.getD a.w default).cursors = ((s.gang o.ctx).wgs.getD a.w default).cursors)) ∧
      ∀ t, s.table? asid slot = some t → ¬ dead → (o.tgtsOf o.mark).length ≤ 5 →
        let k := keyNum t.desc.keyt a.a
        let gives (d : QWord) (z c v : Bool) (P : State → Table → Prop) : Prop :=
          ∃ x t', done = .next x ∧ x.LaneDone o (o.vals ++ keyVals (o.tgtsOf o.mark) d (nzcv false z c v)) o.fault ∧
            x.table? asid slot = some t' ∧ P x t'
        let flags (z c : Bool) (P : State → Table → Prop) : Prop :=
          ∃ x t' y, done = .next x ∧ x.LaneDone o (o.vals ++ [(y, (nzcv false z c false).setWidth 64)]) o.fault ∧ o.tgtsOf o.mark = [y] ∧
            x.table? asid slot = some t' ∧ P x t'
        let faults (f : RowFault) : Prop := ∃ x, done = .next x ∧ x.LaneDone o o.vals ((o.fault <|> some (f.at a.lane))) ∧ x.mem = s.mem
        let same (x : State) (t' : Table) : Prop := x.mem = s.mem ∧ t' = t
        let hit : Table := { t with keys := t.keys.map fun e => if e.key = k then { e with hits := min (e.hits + 1) 255 } else e }
        let ref (row : Nat) : QWord := (t.ref row).setWidth 128
        let ones : QWord := BitVec.ofNat 128 (2 ^ 64 - 1)
        let b32 (j : Nat) : Byte := BitVec.ofNat 8 (a.b.toNat / 256 ^ j)
        let fixed (n : Nat) : Bool := !t.mixed && decide (n ≤ t.desc.width)
        -- TGET
        (∀ d h sc ord kt cc, o.instr = .tget d h sc ord kt cc →
          (∀ e, t.find k = some e → gives (ref e.row) true true false fun x t' => x.mem = s.mem ∧ t' = hit) ∧
          (t.find k = none → gives ones false false false same)) ∧
        -- LDK
        (∀ f d h sc ord kt cc aux, o.instr = .ldk f d h sc ord kt cc aux →
          (∀ e, t.find k = some e →
            (∀ cs, u.keyCells t e.row aux.toNat (esize f.toNat) .read = .ok cs →
              gives (loadConv f.toNat (leNat (u.loadBytes t e.row aux.toNat 0 cs))) true true false fun x t' => x.mem = s.mem ∧ t' = hit) ∧
            ∀ y, u.keyCells t e.row aux.toNat (esize f.toNat) .read = .error y → faults y) ∧
          (t.find k = none → gives 0 false false false same)) ∧
        -- STK
        (∀ f d h sc ord kt cc aux y, o.instr = .stk f d h sc ord kt cc aux → o.tgtsOf o.mark = [y] →
          (∀ e, t.find k = some e →
            (∀ cs, u.keyCells t e.row aux.toNat (esize f.toNat) .write = .ok cs →
              flags true true fun x t' => t' = hit ∧ s.Wrote x (fixed (aux.toNat + esize f.toNat) && cs.length == esize f.toNat) cs
                fun j => BitVec.ofNat 8 (storeConv f.toNat a.d / 256 ^ j)) ∧
            ∀ z, u.keyCells t e.row aux.toNat (esize f.toNat) .write = .error z → faults z) ∧
          (t.find k = none → flags false false same)) ∧
        -- TINS
        (∀ m d h b sc ord kt cc aux, o.instr = .tins m d h b sc ord kt cc aux →
          (∀ e, t.find k = some e → m = 0 → gives (ref e.row) false true false same) ∧
          (∀ e cs, t.find k = some e → m = 1 → u.keyCells t e.row aux.toNat 4 .write = .ok cs →
            gives (ref e.row) true true false fun x t' => t' = t ∧ s.Wrote x (fixed (aux.toNat + 4) && cs.length == 4) cs b32) ∧
          (∀ e y, t.find k = some e → m = 1 → u.keyCells t e.row aux.toNat 4 .write = .error y → faults y) ∧
          (∀ row all cs, t.find k = none → t.desc.live < t.desc.cap →
            row ≤ t.keys.length → (∀ e ∈ t.keys, e.row ≠ row) → (∀ j < row, ∃ e ∈ t.keys, e.row = j) →
            u.keyCells t row 0 t.desc.width .write = .ok all → u.keyCells t row aux.toNat 4 .write = .ok cs →
            gives (ref row) true false false fun x t' =>
              t'.desc = { t.desc with live := t.desc.live + 1 } ∧ t'.gens = t.gens ∧
              t'.keys.Perm ({ key := k, row := row, hits := 0 } :: t.keys) ∧
              (t.keys.Pairwise (fun e g => e.key < g.key) → t'.keys.Pairwise fun e g => e.key < g.key) ∧
              (∀ c, c ∉ all → c ∉ cs → Memory.get x.mem c = Memory.get s.mem c) ∧
              (Memory.wf s.mem = true → (∀ c ∈ all ++ cs, inPeer c = false) → all.Nodup → cs.Nodup →
                (∀ c ∈ all, c ∉ cs → Memory.get x.mem c = 0) ∧
                (fixed (aux.toNat + 4) = true → cs.length = 4 → ∀ j < 4, Memory.get x.mem (cs.getD j 0) = b32 j))) ∧
          (t.find k = none → t.desc.cap ≤ t.desc.live → gives ones false false true same)) ∧
        -- TDEL
        (∀ d h sc ord kt cc, o.instr = .tdel d h sc ord kt cc →
          (∀ e, t.find k = some e → gives (ref e.row) true true false fun x t' => x.mem = s.mem ∧
            t'.desc = { t.desc with live := t.desc.live - 1 } ∧ t'.keys = t.keys.filter (fun g => decide (g.key ≠ k)) ∧
            (t.desc.tkind ≠ 0 → t'.genOf e.row = if t.genOf e.row = 0xFFFF then 1 else t.genOf e.row + 1) ∧
            ∀ r, r ≠ e.row → t'.genOf r = t.genOf r) ∧
          (t.find k = none → gives ones false false false same)) ∧
        -- TUPD .val
        (∀ d h b sc ord kt cc aux, o.instr = .tupdVal d h b sc ord kt cc aux →
          (∀ e, t.find k = some e →
            (∀ cs, u.keyCells t e.row aux.toNat 4 .rmw = .ok cs →
              gives (BitVec.ofNat 128 (leNat (u.loadBytes t e.row aux.toNat 0 cs))) true true false fun x t' =>
                t' = t ∧ s.Wrote x (fixed (aux.toNat + 4) && cs.length == 4) cs b32) ∧
            ∀ y, u.keyCells t e.row aux.toNat 4 .rmw = .error y → faults y) ∧
          (t.find k = none → gives 0 false false false same)) ∧
        -- TUPD .fmt
        ∀ d h b sc ord kt cc, o.instr = .tupdFmt d h b sc ord kt cc →
          (∀ e, t.find k = some e →
            let reset : Table := { t with keys := t.keys.map fun g => if g.key = k then { g with hits := 0 } else g }
            let code := a.b.toNat % 256
            (∀ cs, u.keyCells t e.row 0 t.desc.width .rmw = .ok cs →
              let bs := cs.map (u.readCell (pathOf t.desc.aper 0))
              let hits := BitVec.ofNat 128 e.hits
              (rowVals t.elems bs = none → gives hits false true false fun x t' => x.mem = s.mem ∧ t' = reset) ∧
              ∀ vs, rowVals t.elems bs = some vs →
                (code = (bs.getD 0 0).toNat → gives hits true true false fun x t' => x.mem = s.mem ∧ t' = reset) ∧
                (code ≠ (bs.getD 0 0).toNat → t.desc.width < rowLen code t.elems →
                  gives hits false true true fun x t' => x.mem = s.mem ∧ t' = reset) ∧
                (code ≠ (bs.getD 0 0).toNat → rowLen code t.elems ≤ t.desc.width →
                  gives hits true true false fun x t' => t' = reset ∧
                    s.Wrote x (cs.length ≤ (reencode code t.desc.width vs).length) cs fun j => (reencode code t.desc.width vs).getD j 0)) ∧
            ∀ y, u.keyCells t e.row 0 t.desc.width .rmw = .error y → faults y) ∧
          (t.find k = none → gives 0 false false false same))

/-- 04 R84, 02 R54, 13 R260, 20 R328, R338, R344, R345, 24 R379, R381, R385, R386: an outstanding access returns once its translation and its
DRAM accesses are done and nothing holds its bytes: its results land in their registers, and for a load LATC of the lanes that receive one takes the core's cycles since its issue; one that meets a
contained byte brings nothing and faults CONTAIN. A fault that it has met becomes the warp's cause, or stays where the warp has a cause
already or its gang drains. While the DRAM has not answered nothing changes, and while a walk or a bank, a part or a key holds it, its banks
thaw, and it returns at a rated time no longer. That the access read memory at its issue is the model's choice (log 17), and so is what waits and how (log
64). -/
def Obligations.OutstandingAccessReturns : Prop :=
  ∀ (ctx acc : Nat) (s : State) (o : Work), ((s.gang ctx).accs.find? fun w => w.id == acc) = some o → o.ctx = ctx →
    ctx < s.gangs.length → o.warp < (s.gang ctx).warps.length →
    let W := s.warp ctx o.warp
    let back : Prop := ∀ r ∈ s.dram, ¬ (r.ctx = ctx ∧ r.acc = some acc)
    let walking : Prop := ∃ w ∈ s.walks, w.die = s.coreOf ctx o.warp / 288 ∧ w.asid = (s.gang ctx).asid ∧ BitVec.ofNat 64 w.page ∈ o.uni
    let load : Bool := match o.instr with
      | .ldl .. | .ldli .. | .ldf .. | .ldr .. | .ldri .. | .ldk .. | .tget .. | .mld .. => true
      | _ => false
    let ends (vals : List (Tgt × DWord)) (f : Option Flt) : Prop := ∃ t, exec (.rowAccessComplete ctx acc) s = .next t ∧
      W.Lands (t.warp ctx o.warp) vals ∧
      (∀ l < W.lanes.length, ((t.warp ctx o.warp).lane l).latc =
        if load = true ∧ (∃ a ∈ o.args, a.lane = l) ∧ ∃ v ∈ vals, v.1.lane? = some l then
          BitVec.ofNat 32 (min (s.now ctx o.warp - o.issuedAt) (2 ^ 32 - 1)) else (W.lane l).latc) ∧
      t.mem = s.mem ∧ t.stale = s.stale ∧ (∀ g, g ≠ ctx → t.gang g = s.gang g) ∧ (∀ w, w ≠ o.warp → t.warp ctx w = s.warp ctx w) ∧
      (f = none → (t.warp ctx o.warp).cause = W.cause ∧ (t.gang ctx).accs = (s.gang ctx).accs.filter fun w => w.id ≠ acc) ∧
      ∀ x, f = some x →
        (W.cause.isSome = true ∨ (s.gang ctx).phase ≠ .running → (t.warp ctx o.warp).cause = W.cause ∧ ∃ p ∈ (t.gang ctx).accs,
          p.id = acc ∧ p.fault = f ∧ p.awaits = [] ∧ p.vals = [] ∧ p.args = []) ∧
        (W.cause = none → (s.gang ctx).phase = .running → (∀ w ∈ (t.gang ctx).accs, w.id ≠ acc) ∧
          ∃ k, (t.warp ctx o.warp).cause = some k ∧ k.cls = x.cls ∧ k.code = x.code ∧ k.pc = o.pc ∧ k.words = x.words)
    (o.mark = 0 → ¬ walking → s.workHeld o = false → back →
      ((∀ x ∈ o.cells, s.containedCell x = false) → ends o.vals o.fault) ∧
      ((∃ x ∈ o.cells, s.containedCell x = true) → ends [] (some (flt 0x10 1)))) ∧
    (o.mark ≠ 0 ∨ (∃ r ∈ s.dram, r.ctx = ctx ∧ r.acc = some acc) → exec (.rowAccessComplete ctx acc) s = .next s) ∧
    (o.mark = 0 → back → walking ∨ s.workHeld o = true →
      exec (.rowAccessComplete ctx acc) s = .next ((s.wakeAll o.cells).mapGang ctx fun G =>
        { G with accs := G.accs.map fun (p : Work) => if p.id = acc then { p with rated := false } else p }))

/-- 16 R295 to R301: FENCE, AMO and CAS. A fence that waits for nothing and joins no apertures only moves on, any other holds ISSUE until it completes; AMO and CAS
read and write each lane's element in ascending lane order, each lane finding the youngest write, what the lanes below it wrote too, also in the peer window, the old value going to D; AMO writes the sum modulo 2^w, the bitwise
and, or or exclusive or, the signed or unsigned minimum or maximum, B, or the rounded floating-point sum; a lane whose line is lost writes
nothing, and the first lane that fails a check faults the warp; FENCE_COMPLETE lets the lanes go on, and an alias fence joins the apertures: in its die at
scope `.die`, in every die at the wider ones. That AMO and CAS act on memory at their issue is the model's choice (logs 5 and 17). -/
def Obligations.AtomicAndFenceInstructions : Prop :=
  ∀ (l : BitVec 1) (oo : BitVec 2) (sc : BitVec 3) (m o : BitVec 4) (d a b : BitVec 7) (ord f : BitVec 2) (x : BitVec 16)
    (c : Cur) (s : State),
    let W := s.warp c.gang c.warp
    let ref (n : Nat) : DWord := W.get64 n a.toNat
    (Issues (.fence l oo sc) c s → (oo = 0 ∨ sc = 0 ∨ s.outstanding c oo = []) → aliasFence l sc = false →
      exec (.fence l oo sc) s = .next (s.advance (.fence l oo sc) c)) ∧
    (Issues (.fence l oo sc) c s → (oo ≠ 0 ∧ sc ≠ 0 ∧ s.outstanding c oo ≠ []) ∨ aliasFence l sc = true →
      exec (.fence l oo sc) s = .next (((s.advance (.fence l oo sc) c).mapWarp c.gang c.warp fun V =>
        V.mapLanes c.issue fun _ L => L.mapFib fun g => { g with fence := some s.nextId }).waitsWith c.gang
          { s.newWork c (.fence l oo sc) [] [] with waits := if oo = 0 ∨ sc = 0 then [] else s.outstanding c oo, mark := 1 })) ∧
    (∀ as, Issues (.amo m d a b sc ord o x) c s → s.laneAccs c (4 * (1 + o.toNat)) .rmw ref (fun _ => x.toNat) = .ok as →
      let u := (s.advance (.amo m d a b sc ord o x) c)
      let r := u.rmwAll x.toNat (fun n old => some (if o.toNat = 1
        then (amoNew 64 m.toNat (BitVec.ofNat 64 old) (W.get64 n b.toNat)).toNat
        else (amoNew 32 m.toNat (BitVec.ofNat 32 old) (W.get n b.toNat)).toNat)) as
      ∃ t, exec (.amo m d a b sc ord o x) s = .next t ∧ ReadStarts r.1 t c (.amo m d a b sc ord o x) as
        (fun n => (List.range (1 + o.toNat)).map fun j => W.loc n (d.toNat + j))
        fun q => (List.range 4).map fun j => BitVec.ofNat 64 ((r.2.lookup q.lane).getD 0 / 2 ^ (32 * j) % 2 ^ 32)) ∧
    (∀ w : Nat, w = 32 ∨ w = 64 → ∀ old y : BitVec w,
      let new (op : Nat) : BitVec w := amoNew w op old y
      let fmt : Num.Fmt := if w = 64 then .f64 else .f32
      (new 0).toNat = (old.toNat + y.toNat) % 2 ^ w ∧
      (∀ k, (new 1).getLsbD k = (old.getLsbD k && y.getLsbD k) ∧ (new 2).getLsbD k = (old.getLsbD k || y.getLsbD k) ∧
        (new 3).getLsbD k = (old.getLsbD k ^^ y.getLsbD k)) ∧
      (new 4).toInt = min old.toInt y.toInt ∧ (new 5).toInt = max old.toInt y.toInt ∧
      (new 6).toNat = min old.toNat y.toNat ∧ (new 7).toNat = max old.toNat y.toNat ∧ new 8 = y ∧
      (NanCode fmt old.toNat ∨ NanCode fmt y.toNat → (new 9).toNat = (fmtRow fmt).nan) ∧
      ∀ p q : ℝ, CodeIs fmt old.toNat p → CodeIs fmt y.toNat q →
        RoundsTo fmt .rne (p + q) (signOf fmt old.toNat && signOf fmt y.toNat) (new 9).toNat) ∧
    (∀ e, Issues (.amo m d a b sc ord o x) c s → s.laneAccs c (4 * (1 + o.toNat)) .rmw ref (fun _ => x.toNat) = .error e →
      exec (.amo m d a b sc ord o x) s = .next (s.faulted c e)) ∧
    (∀ e, Issues (.cas m d a b sc ord f x) c s → s.laneAccs c (4 * (1 + m.toNat)) .rmw ref (fun _ => x.toNat) = .error e →
      exec (.cas m d a b sc ord f x) s = .next (s.faulted c e)) ∧
    (∀ (u : State) (n off : Nat) (new : Nat → Nat → Option Nat) (q : LaneAcc) (as : List LaneAcc),
      u.rmwAll off new as = u.rmwFrom u.sent.length off new as ∧
      u.rmwFrom n off new [] = (u, []) ∧ (q.isBad u = true → u.rmwFrom n off new (q :: as) = u.rmwFrom n off new as) ∧
      (q.isBad u = false →
        let v := u.publishCells (2 * q.tab.desc.aper) q.cells
        let old := leNat ((q.cells.zip (v.loadBytes q.tab q.row off 0 q.cells)).map fun p =>
          ((u.sent.drop n).reverse.lookup p.1).getD p.2)
        (q.tab.mixed = false → off + q.cells.length ≤ q.tab.desc.width → (∀ a ∈ q.cells, inPeer a = false) →
          (∀ e ∈ u.stale, e.cell ∈ q.cells → e.but ≠ []) → old = leNat (q.cells.map (Memory.get u.mem))) ∧
        ∃ k : State, (new q.lane old = none → k = v) ∧
          (∀ v, new q.lane old = some v →
            let whole := !q.tab.mixed && decide (off + q.cells.length ≤ q.tab.desc.width)
            u.Wrote k whole q.cells (fun j => BitVec.ofNat 8 (v / 256 ^ j)) ∧
            (whole = true → (∀ a ∈ q.cells, inPeer a = true) →
              k.mem = u.mem ∧ k.sent = u.sent ++ q.cells.zip (leBytes q.cells.length v))) ∧
          u.rmwFrom n off new (q :: as) = ((k.rmwFrom n off new as).1, (q.lane, old) :: (k.rmwFrom n off new as).2))) ∧
    (∀ as, Issues (.cas m d a b sc ord f x) c s → s.laneAccs c (4 * (1 + m.toNat)) .rmw ref (fun _ => x.toNat) = .ok as →
      let val (n k : Nat) : Nat := if m.toNat = 1 then (W.get64 n k).toNat else (W.get n k).toNat
      let u := (s.advance (.cas m d a b sc ord f x) c)
      let r := u.rmwAll x.toNat (fun n old => if old = val n d.toNat then some (val n b.toNat) else none) as
      ∃ t, exec (.cas m d a b sc ord f x) s = .next t ∧ ReadStarts r.1 t c (.cas m d a b sc ord f x) as
        (fun n => ((List.range (1 + m.toNat)).map fun j => W.loc n (d.toNat + j)) ++ [.flag n f.toNat])
        fun q => ((List.range (1 + m.toNat)).map fun j => BitVec.ofNat 64 ((r.2.lookup q.lane).getD 0 / 2 ^ (32 * j) % 2 ^ 32)) ++
          [if (r.2.lookup q.lane).getD 0 = val q.lane d.toNat then 4 else 0]) ∧
    (∀ e, LaneChecks s c e .rmw ref fun _ => x.toNat) ∧
    (∀ k, k ∈ s.outstanding c oo ↔ ∃ w, w.id = k ∧ ((w ∈ (s.gang c.gang).accs ∧ w.mark = 0) ∨ (w ∈ s.idx ∧ w.ctx = c.gang)) ∧
      w.warp = c.warp ∧ (∃ n ∈ w.owners, n ∈ c.issue) ∧ (oo = 1 → w.awaits ≠ []) ∧
      match w.instr with | .tgath .. | .xaccRd .. => False | _ => True) ∧
    (∀ cores cell view p q, view < 2 → p < 3 → q < 3 → (inHbm cell = true ∨ (p = 0 ∧ q = 0)) → inPeer cell = false →
      (s.aliasJoin cores).mem = s.mem ∧ (s.aliasJoin cores).readCell (2 * p + view) cell = (s.aliasJoin cores).readCell (2 * q + view) cell) ∧
    (∀ ctx warp id w, ((s.gang ctx).accs.find? fun q => q.id == id && q.warp == warp) = some w → w.instr = .fence l oo sc →
      (∀ k ∈ w.waits, (∀ q ∈ (s.gang ctx).accs, q.id ≠ k) ∧ ∀ q ∈ s.idx, q.id ≠ k) →
      exec (.fenceComplete ctx warp id) s = .next ((((if aliasFence l sc then s.aliasJoin (fun k => sc != 5 || k / 288 == s.coreOf ctx warp / 288) else s).mapGang ctx fun G =>
        { G with accs := G.accs.filter fun q => q.id ≠ id }).mapWarp ctx warp fun V => V.mapAll fun _ L =>
          if L.fib.fence = some id then L.mapFib fun g => { g with fence := none } else L)))

/-- 06 R119 to R128: MSET writes ms; MMOV copies a footprint, MIDN makes the identity, with its diagonal where the general or a packed layout stores it, MTRN the transpose, MADD works element by
element, and MMUL adds its products one after the other in ascending k, each with one rounding. -/
def Obligations.MatrixElementResults : Prop :=
  ∀ (m k n : BitVec 3) (lay : BitVec 2) (op : BitVec 4) (tb ta ac : BitVec 1) (d a b : BitVec 7),
    WarpResults (.mset m k n lay) 4 (fun _ _ =>
      [(.ms, BitVec.ofNat 64 (512 * m.toNat + 64 * k.toNat + 8 * n.toNat + lay.toNat))]) ∧
    MatrixResults (.mmov d a) (fun W l => (List.range (footprint W.ms)).map fun j =>
      W.put l (d.toNat + j) (W.get l (a.toNat + j))) ∧
    (∀ (c : Cur) (s : State), msLay (s.warp c.gang c.warp).ms = 0 → Issues (.midn d) c s → (s.warp c.gang c.warp).ms ≠ 0 →
      let vals := c.issue.flatMap fun l => (s.warp c.gang c.warp).givesGrid l d.toNat (msM (s.warp c.gang c.warp).ms)
        (msN (s.warp c.gang c.warp).ms) fun i j => if i = j then 0x3F800000 else 0
      exec (.midn d) s = .next ((s.advance (.midn d) c).waitsWith c.gang
        { s.newWork c (.midn d) [] [] with awaits := vals.map (·.1), vals := vals, mark := 2 })) ∧
    (∀ (c : Cur) (s : State), Issues (.midn d) c s → (s.warp c.gang c.warp).ms ≠ 0 → ∀ lay ∈ [1, 2], msLay (s.warp c.gang c.warp).ms = lay →
      let n := msM (s.warp c.gang c.warp).ms
      let vals := c.issue.flatMap fun l => (List.range (n * (n + 1) / 2)).map fun r => (s.warp c.gang c.warp).put l (d.toNat + r)
        (if ∃ i < n, r = (if lay = 1 then i * (i + 3) / 2 else i * n - i * (i - 1) / 2) then 0x3F800000 else 0)
      exec (.midn d) s = .next ((s.advance (.midn d) c).waitsWith c.gang
        { s.newWork c (.midn d) [] [] with awaits := vals.map (·.1), vals := vals, mark := 2 })) ∧
    MatrixResults (.mtrn d a) (fun W l => W.givesGrid l d.toNat (msN W.ms) (msM W.ms) fun i j =>
      (W.get l (a.toNat + (j * msN W.ms + i))).toNat) ∧
    MatrixResults (.madd op d a b) (fun W l => (List.range (footprint W.ms)).map fun j =>
      let x := (W.get l (a.toNat + j)).toNat
      let y := (W.get l (if op.toNat = 2 then b.toNat else b.toNat + j)).toNat
      W.put l (d.toNat + j) (BitVec.ofNat 32 (if op.toNat = 0 then Num.fadd .f32 .rne x y
        else if op.toNat = 1 then Num.fsub .f32 .rne x y else Num.fmul .f32 .rne x y))) ∧
    MatrixResults (.mmul tb ta ac d a b) (fun W l => W.givesGrid l d.toNat (msM W.ms) (msN W.ms) fun i j =>
      (List.range (msK W.ms)).foldl (fun acc t => Num.ffma .f32 .rne
        (W.get l (a.toNat + if ta = 1 then t * msM W.ms + i else i * msK W.ms + t)).toNat
        (W.get l (b.toNat + if tb = 1 then j * msK W.ms + t else t * msN W.ms + j)).toNat acc)
        (if ac = 1 then (W.get l (d.toNat + (i * msN W.ms + j))).toNat else 0))

/-- 06 R129 to R134: the factorisations, the triangular solves, MSOLV and MRED complete wherever their shape is valid: each lane's
factors, status, pivots and flags, or its solution, come from its own operands alone. MSOLV factors as MCHOL or MLUP does and, where every pivot's column is used (C is 1), solves
by `mtrs.lo` and `mtrs.lo.t`, or by `mtrs.lo.unit.piv` and `mtrs.up`, and writes the factor and the solution; then the pivots, the status and the flags; where C is 0 it writes no solution. The
factors follow from the recurrences of R130 and R131, the solutions from that of R132, and the tolerance, the classes, the status word and the flags from R129. That MTRS reads the triangle that its fields name,
of a general matrix too, is the model's choice (log 7). -/
def Obligations.MatrixSolverResults : Prop :=
  ∀ (f : BitVec 2) (p t u y m : BitVec 1) (op : BitVec 4) (d a b : BitVec 7),
    let eps (W : Warp) (l : Nat) : Nat :=
      tolerance ((W.s b.toNat).toNat % 2 ^ 32) (W.mat l a.toNat (squareFoot W.ms))
    MatrixResults (.mchol f d a b) (fun W l =>
      let r := cholesky (msM W.ms) (eps W l) (gridOf 1 (msM W.ms) (msM W.ms) (W.mat l a.toNat (squareFoot W.ms)))
      W.putMat l a.toNat (gridRegs 1 (msM W.ms) (msM W.ms) r.1) ++ W.putMat l d.toNat [statusWord r.2] ++
        [(.flag l f.toNat, (pivotFlags r.2).setWidth 64)]) ∧
    MatrixResults (.mlup f d a b) (fun W l =>
      let r := luFactor (msM W.ms) (eps W l) (gridOf 0 (msM W.ms) (msM W.ms) (W.mat l a.toNat (squareFoot W.ms)))
      W.putMat l a.toNat (gridRegs 0 (msM W.ms) (msM W.ms) r.1) ++ W.putMat l (d.toNat + 1) [pivotVector r.2.2] ++
        W.putMat l d.toNat [statusWord r.2.1] ++ [(.flag l f.toNat, (pivotFlags r.2.1).setWidth 64)]) ∧
    MatrixResults (.mtrs p t u y d a b) (fun W l =>
      W.putMat l d.toNat (gridRegs 0 (msM W.ms) (msN W.ms) (trsVal (msM W.ms) (msN W.ms) (y == 1) (u == 1) (t == 1)
        (if p = 1 then some (W.get l b.toNat).toNat else none)
        (gridOf (msLay W.ms) (msM W.ms) (msM W.ms) (W.mat l a.toNat (squareFoot W.ms)))
        (gridOf 0 (msM W.ms) (msN W.ms) (W.mat l d.toNat (msM W.ms * msN W.ms)))))) ∧
    MatrixResults (.msolv m f d a b) (fun W l =>
      let n := msM W.ms
      let xs := W.mat l a.toNat (squareFoot W.ms)
      let Y := gridOf 0 n (msN W.ms) (W.mat l (d.toNat + 2) (n * msN W.ms))
      let ch := cholesky n (eps W l) (gridOf 1 n n xs)
      let lu := luFactor n (eps W l) (gridOf 0 n n xs)
      let classes := if m = 1 then lu.2.1 else ch.2
      let factor := if m = 1 then gridRegs 0 n n lu.1 else gridRegs 1 n n ch.1
      let X := if m = 1
        then trsVal n (msN W.ms) true false false none lu.1 (trsVal n (msN W.ms) false true false (some (pivotVector lu.2.2)) lu.1 Y)
        else trsVal n (msN W.ms) false false true none ch.1 (trsVal n (msN W.ms) false false false none ch.1 Y)
      (if (pivotFlags classes).getLsbD 1 then W.putMat l a.toNat factor ++ W.putMat l (d.toNat + 2) (gridRegs 0 n (msN W.ms) X) else []) ++
        W.putMat l (d.toNat + 1) [if m = 1 then pivotVector lu.2.2 else 0] ++ W.putMat l d.toNat [statusWord classes] ++
        [(.flag l f.toNat, (pivotFlags classes).setWidth 64)]) ∧
    (∀ (c : Cur) (s : State), Issues (.msolv m f d a b) c s → shapeOk (.msolv m f d a b) (s.warp c.gang c.warp).ms = true →
      ∃ vals, exec (.msolv m f d a b) s = .next ((s.advance (.msolv m f d a b) c).waitsWith c.gang
        { s.newWork c (.msolv m f d a b) [] [] with awaits := vals.map (·.1), vals := vals, mark := 2 }) ∧
        ∀ l ∈ c.issue, ∃ v : DWord, (Tgt.flag l f.toNat, v) ∈ vals ∧ (v.getLsbD 1 = false →
          ∀ k < msM (s.warp c.gang c.warp).ms * msN (s.warp c.gang c.warp).ms, c.issue = [l] →
            (s.warp c.gang c.warp).loc l (d.toNat + 2 + k) ∉ vals.map (·.1))) ∧
    MatrixResults (.mred op d a) (fun W l =>
      let A := gridOf (msLay W.ms) (msM W.ms) (msN W.ms) (W.mat l a.toNat (footprint W.ms))
      [W.put l d.toNat (BitVec.ofNat 32 (if op.toNat = 0
        then (upTo 1 (msM W.ms)).foldl (fun acc i => Num.fadd .f32 .rne acc (A.at i i)) (A.at 0 0)
        else if op.toNat = 1 then maxAbs (W.mat l a.toNat (footprint W.ms))
        else (W.mat l a.toNat (footprint W.ms)).foldl (fun acc x => Num.ffma .f32 .rne x x acc) 0))]) ∧
    -- the factors, the solutions and the words (06 R119, R129 to R134)
    (∀ (n t cols : Nat) (g Y : Grid), g.length = n → (∀ r ∈ g, r.length = n) → (∀ i j, g.at i j < 2 ^ 32) →
      Y.length = n → (∀ r ∈ Y, r.length = cols) →
      CholeskyIs n t g.at (cholesky n t g).1.at (cholesky n t g).2 ∧
      LuIs n t g.at (luFactor n t g).1.at (luFactor n t g).2.1 (luFactor n t g).2.2 ∧
      ∀ up unit tr piv, SolveIs n cols up unit tr piv g.at Y.at (trsVal n cols up unit tr piv g Y).at) ∧
    (∀ xs : List Nat, (∀ x ∈ xs, x < 2 ^ 32) →
      ((∃ x ∈ xs, NanCode .f32 x) → maxAbs xs = 0x7FC00000) ∧
      ((∀ x ∈ xs, ¬ NanCode .f32 x) → (∀ x ∈ xs, x % 2 ^ 31 ≤ maxAbs xs) ∧ (maxAbs xs = 0 ∨ ∃ x ∈ xs, maxAbs xs = x % 2 ^ 31)) ∧
      ∀ tau < 2 ^ 32, (NanCode .f32 tau ∨ 2 ^ 31 ≤ tau → tolerance tau xs = Num.fmul .f32 .rne 0 (maxAbs xs)) ∧
        (¬ NanCode .f32 tau → tau < 2 ^ 31 → tolerance tau xs = Num.fmul .f32 .rne tau (maxAbs xs))) ∧
    (∀ ks : List Pivot,
      let fails := (ks.filter fun k => k != .good).length
      ((∀ k ∈ ks, k = .good) → statusWord ks = 0) ∧
      (∀ lower k upper, ks = lower ++ k :: upper → (∀ q ∈ lower, q = .good) → k ≠ .good → statusWord ks = 16 * fails + lower.length + 1) ∧
      Flags4 (pivotFlags ks) (Pivot.negative ∈ ks) (Pivot.zero ∈ ks) (∀ k ∈ ks, Uses k) (Pivot.notNumber ∈ ks ∨ Pivot.tiny ∈ ks)) ∧
    (∀ ps : List Nat, (∀ p ∈ ps, p < 8) → ∀ j, pivotVector ps / 8 ^ j % 8 = ps.getD j 0) ∧
    ∀ (n q : Nat) (xs : List Nat) (g : Grid), ∀ i < n,
      (∀ j < q, (gridOf 0 n q xs).at i j = xs.getD (i * q + j) 0 ∧ (gridRegs 0 n q g)[i * q + j]? = some (g.at i j)) ∧
      (∀ j ≤ i, (gridOf 1 n n xs).at i j = xs.getD (i * (i + 1) / 2 + j) 0 ∧ (gridRegs 1 n n g)[i * (i + 1) / 2 + j]? = some (g.at i j)) ∧
      ∀ j < n, i ≤ j → (gridOf 2 n n xs).at i j = xs.getD (i * n - i * (i - 1) / 2 + (j - i)) 0

/-- 06 R120, R121, R125: MLD and MST move a footprint between registers and a row. MLD waits with every lane's elements in their register form, in storage order, or
with none where an element of any lane meets a line that gives no value; MST's elements leave their bytes in their cells, the higher lane's and element's last; each element has the checks of a
load or store of its row (13 R255), and the first element of the lowest lane that
fails one, or whose line a store finds lost, faults the warp with no effect. A small-matrix operation that is done brings its results; ms that does not suit an instruction
faults MATRIX.MSHAPE with ms in TRAPAUX: ms of 0, a layout other than general or packed lower, or a trace of a matrix that is not square. That MLD and MST act on memory at their issue is the model's choice (logs 5 and 17). -/
def Obligations.MatrixMovesAndCompletion : Prop :=
  ∀ (f : BitVec 4) (d a b : BitVec 7),
    (∀ (c : Cur) (s : State), Issues (.mld f d a b) c s → (s.warp c.gang c.warp).ms ≠ 0 →
      let W := s.warp c.gang c.warp
      let e := esize f.toNat
      (∀ rows, s.matAccs c e .read a b = .ok rows →
        let u := (s.advance (.mld f d a b) c).meanwhile c.gang c.warp rows.flatten
        let bad : Prop := ∃ r ∈ rows, ∃ q ∈ r, q.isBad s = true
        let off (q : LaneAcc) (j : Nat) : Nat := (W.get q.lane b.toNat).toNat + e * j
        u.mem = s.mem ∧ ∃ (t : State) (val : LaneAcc → Nat → List Byte), exec (.mld f d a b) s = .next t ∧ t.mem = s.mem ∧
          t.stale = u.stale ∧ t.tables = s.tables ∧ (∀ g, g ≠ c.gang → t.gang g = s.gang g) ∧
          (∀ w, t.warp c.gang w = (s.advance (.mld f d a b) c).warp c.gang w) ∧
          (c.gang < s.gangs.length → ∃ o ∈ (t.gang c.gang).accs, o.id = s.nextId ∧ o.instr = .mld f d a b ∧ o.owners = c.issue ∧ o.mark = 0 ∧
            o.cells = rows.flatten.flatMap (·.cells) ∧
            o.awaits = (rows.flatMap fun r => r.mapIdx fun j q => W.loc q.lane (d.toNat + j)) ∧
            (bad → o.vals = [] ∧ o.args = [] ∧ o.fault.isSome = true) ∧
            (¬ bad → o.fault = none ∧ o.vals = rows.flatMap fun r => r.mapIdx fun j q =>
              W.put q.lane (d.toNat + j) ((loadConv f.toNat (leNat (val q j))).setWidth 32))) ∧
          ∀ r ∈ rows, ∀ q j, r[j]? = some q →
            let held (x : State) : List Byte := x.loadBytes q.tab q.row (off q j) 0 q.cells
            (1 < e → q.va % e = 0 → val q j = held (s.advance (.mld f d a b) c)) ∧
            (∀ k < e, (val q j)[k]? = (held (s.advance (.mld f d a b) c))[k]? ∨ (val q j)[k]? = (held u)[k]?) ∧
            (q.tab.mixed = false → off q j + e ≤ q.tab.desc.width → (∀ x ∈ q.cells, inPeer x = false ∧ ∀ p ∈ s.stale, p.cell ≠ x) →
              val q j = q.cells.map (Memory.get s.mem))) ∧
      ∀ x, s.matAccs c (esize f.toNat) .read a b = .error x → exec (.mld f d a b) s = .next (s.faulted c x)) ∧
    -- the checks of the elements, lane by lane and in storage order
    (∀ (c : Cur) (s : State) (e : Nat) (k : Acc),
      let W := s.warp c.gang c.warp
      let lane (l j : Nat) := s.laneRow (s.gang c.gang).asid l (W.get64 l a.toNat) ((W.get l b.toNat).toNat + e * j) e k
      (∀ g : Nat → Nat → Table × List Nat, (∀ l ∈ c.issue, ∀ j < footprint W.ms, lane l j = .ok (g l j)) →
        s.matAccs c e k a b = .ok (c.issue.map fun l => (List.range (footprint W.ms)).map fun j =>
          { lane := l, tab := (g l j).1, cells := (g l j).2, row := (W.get64 l a.toNat).toNat % 2 ^ 32,
            va := (g l j).1.desc.rowbase + (W.get64 l a.toNat).toNat % 2 ^ 32 * (g l j).1.desc.width + ((W.get l b.toNat).toNat + e * j) })) ∧
      ∀ lower l upper j x, c.issue = lower ++ l :: upper → j < footprint W.ms → (∀ m ∈ lower, ∀ i < footprint W.ms, ∃ y, lane m i = .ok y) →
        (∀ i < j, ∃ y, lane l i = .ok y) → lane l j = .error x → s.matAccs c e k a b = .error x) ∧
    (∀ (c : Cur) (s : State), Issues (.mst f d a b) c s → (s.warp c.gang c.warp).ms ≠ 0 →
      let W := s.warp c.gang c.warp
      let u := s.advance (.mst f d a b) c
      (∀ rows, s.matAccs c (esize f.toNat) .write a b = .ok rows → lostLane s rows.flatten = none →
        ∃ t, exec (.mst f d a b) s = .next t ∧
          Stores s u (u.noteAccs c none rows.flatten true) t (s.gang c.gang).asid
            (rows.flatMap fun r => r.mapIdx fun j q => (q, storeConv f.toNat (W.data q.lane (d.toNat + j) f.toNat))) (esize f.toNat)) ∧
      (∀ rows x, s.matAccs c (esize f.toNat) .write a b = .ok rows → lostLane s rows.flatten = some x →
        exec (.mst f d a b) s = .next (s.faulted c x)) ∧
      ∀ x, s.matAccs c (esize f.toNat) .write a b = .error x → exec (.mst f d a b) s = .next (s.faulted c x)) ∧
    (∀ (ctx acc : Nat) (s : State),
      (∀ o, ((s.gang ctx).accs.find? fun w => w.id == acc) = some o →
        (o.mark = 2 → o.fault = none → o.ctx = ctx → countsLatc o.instr = false → ctx < s.gangs.length → o.warp < (s.gang ctx).warps.length →
          ∃ t, exec (.smallMatrixComplete ctx acc) s = .next t ∧ t.warp ctx o.warp = o.vals.foldl (fun V x => V.land1 x.1 x.2) (s.warp ctx o.warp)) ∧
        (o.mark = 2 → o.fault = none → o.ctx = ctx → exec (.smallMatrixComplete ctx acc) s = .next ((s.landWork o).mapGang ctx fun G =>
          { G with accs := G.accs.filter fun w => w.id ≠ acc })) ∧
        (o.mark ≠ 2 → exec (.smallMatrixComplete ctx acc) s = .next s)) ∧
      (((s.gang ctx).accs.find? fun w => w.id == acc) = none → exec (.smallMatrixComplete ctx acc) s = .next s)) ∧
    (∀ (p t u y : BitVec 1) (o : BitVec 4) (g : BitVec 2) (e : BitVec 7) (c : Cur) (s : State),
      ∀ i ∈ [Instr.mld f d a b, .mst f d a b, .mmov d a, .midn d, .mtrn d a, .madd o d a b, .mmul t u p d a b, .mchol g d a e, .mlup g d a e,
        .mtrs p t u y d a b, .msolv y g d a e, .mred o d a],
        Issues i c s → shapeOk i (s.warp c.gang c.warp).ms = false →
          exec i s = .next (s.faulted c (fltAll 6 1 c.set ((s.warp c.gang c.warp).ms.setWidth 32) 0))) ∧
    -- also where a window check would fail: the shape comes first (06 R122)
    (∀ (p t u y : BitVec 1) (o : BitVec 4) (g : BitVec 2) (e : BitVec 7) (c : Cur) (s : State),
      ∀ i ∈ [Instr.mld f d a b, .mst f d a b, .mmov d a, .midn d, .mtrn d a, .madd o d a b, .mmul t u p d a b, .mchol g d a e, .mlup g d a e,
        .mtrs p t u y d a b, .msolv y g d a e, .mred o d a],
        s.cur = some c → c.set.Sublist laneIds → c.issue.Sublist c.set → s.earlyFault i c = none → c.issue ≠ [] → s.entryWait i c = false →
          shapeOk i (s.warp c.gang c.warp).ms = false →
          exec i s = .next (s.faulted c (fltAll 6 1 c.set ((s.warp c.gang c.warp).ms.setWidth 32) 0))) ∧
    ∀ (p t u y : BitVec 1) (o : BitVec 4) (g : BitVec 2) (e : BitVec 7) (ms : BitVec 12),
      let lay := ms.toNat % 4
      let square : Prop := ms.toNat / 512 % 8 = ms.toNat / 8 % 8
      (∀ i ∈ [Instr.mld f d a b, .mst f d a b, .mmov d a, .midn d, .madd o d a b], shapeOk i ms = true ↔ ms ≠ 0) ∧
      (∀ i ∈ [Instr.mtrn d a, .mmul t u p d a b, .mlup g d a e], shapeOk i ms = true ↔ ms ≠ 0 ∧ lay = 0) ∧
      (shapeOk (.mchol g d a e) ms = true ↔ ms ≠ 0 ∧ lay = 1) ∧
      (shapeOk (.mtrs p t u y d a b) ms = true ↔ ms ≠ 0 ∧ (lay = 2 → y = 1) ∧ (lay = 1 → y = 0)) ∧
      (shapeOk (.msolv y g d a e) ms = true ↔ ms ≠ 0 ∧ (y = 0 → lay = 1) ∧ (y = 1 → lay = 0)) ∧
      (shapeOk (.mred o d a) ms = true ↔ ms ≠ 0 ∧ (o = 0 → lay = 0 → square))

/-- 18 R311 to R318: calls and reads of an object start where the object's and the method's checks pass; `.stat` answers at once what the local engine
knows and has applied. A handle of no object, or of one whose calls are lost, and a method that the object does not have, or that a read may not use, fault the warp, the latter with its
number in FADDR, and nothing starts. A call captures its lane's eight arguments, a read the sequence number that it waits for. None of them changes or publishes a byte of memory (R313, R319). After the die's engine has
failed the target of a read with T = 0 is no lower than it was, which the spec only implies (log 52). -/
def Obligations.ObjectInstructionsStart : Prop :=
  ∀ (d a b r : BitVec 7) (sc : BitVec 3) (ord : BitVec 2) (m : BitVec 6) (c : Cur) (s : State) (o : Obj),
    let W := s.warp c.gang c.warp
    let die := s.coreOf c.gang c.warp / 288
    let starts (t : State) (awaits : Nat → List Tgt) (P : Nat → Arg → Prop) : Prop := t.mem = s.mem ∧ t.stale = s.stale ∧ t.objs = s.objs ∧
      ∃ w ∈ t.calls, w.id = s.nextId ∧ w.ctx = c.gang ∧ w.warp = c.warp ∧ w.owners = c.issue ∧ w.args.map (·.lane) = c.issue ∧ w.cells = [o.slot] ∧
        w.uni = [BitVec.ofNat 64 o.inc] ∧ w.awaits = c.issue.flatMap awaits ∧ w.vals = [] ∧ w.fault = none ∧ ∀ y ∈ w.args, P y.lane y
    let regs (n k l : Nat) : List Tgt := (List.range k).map fun j => W.loc l (n + j)
    let words (l : Nat) (y : Arg) : Prop := y.words = (List.range 8).map fun j => W.get l (a.toNat + j)
    let h := (W.s r.toNat).toNat
    let found := s.objs.find? fun x => decide (x.asid = (s.gang c.gang).asid ∧ x.slot = h % 2 ^ 16 ∧ x.inc = h / 2 ^ 16 % 2 ^ 16)
    -- the checks of a handle and of a method
    (found = none → s.objCheck c r = .error (flt 0x0C 1)) ∧
    (∀ x, found = some x → s.objCheck c r = if x.lost = true then .error (flt 0x10 1) else .ok x) ∧
    (∀ ro, let k := o.methods.getD m.toNat default
      methodCheck c o m.toNat ro = if k.present = true ∧ (ro = true → k.ro = true) then none
        else some { cls := 0x0C, code := 2, words := c.set.map fun l => (l, 0, BitVec.ofNat 32 m.toNat) }) ∧
    (∀ x, s.objCheck c r = .error x → ∀ i ∈ [Instr.rcall d a sc ord r m, .rreadRead d a b sc ord r m, .rreadWait d b sc ord r, .rreadStat d sc ord r],
      Issues i c s → exec i s = .next (s.faulted c x)) ∧
    (s.objCheck c r = .ok o →
    (∀ f, Issues (.rcall d a sc ord r m) c s → methodCheck c o m.toNat false = some f →
      exec (.rcall d a sc ord r m) s = .next (s.faulted c f)) ∧
    (∀ f, Issues (.rreadRead d a b sc ord r m) c s → methodCheck c o m.toNat true = some f →
      exec (.rreadRead d a b sc ord r m) s = .next (s.faulted c f)) ∧
    (Issues (.rcall d a sc ord r m) c s → methodCheck c o m.toNat false = none →
      ∃ t, exec (.rcall d a sc ord r m) s = .next t ∧ starts t (regs d.toNat 2) words) ∧
    (Issues (.rreadRead d a b sc ord r m) c s → methodCheck c o m.toNat true = none →
      ∃ t, exec (.rreadRead d a b sc ord r m) s = .next t ∧ starts t (fun l => regs d.toNat 4 l ++ [.flag l 0]) fun l y => words l y ∧
        y.c.toNat = if W.get64 l b.toNat = 0 then max (o.localRep die).known (o.repOf die).known % 2 ^ 128 else (W.get64 l b.toNat).toNat) ∧
    (Issues (.rreadWait d b sc ord r) c s → ∃ t, exec (.rreadWait d b sc ord r) s = .next t ∧
      starts t (fun l => regs d.toNat 4 l ++ [.flag l 0]) fun l y => y.d = (W.get64 l b.toNat).setWidth 128) ∧
    (Issues (.rreadStat d sc ord r) c s → exec (.rreadStat d sc ord r) s = .next (s.scoreboards (.rreadStat d sc ord r) c []
      (c.issue.flatMap fun l => [W.put l d.toNat (BitVec.ofNat 32 (o.localRep die).known),
        W.put l (d.toNat + 1) (BitVec.ofNat 32 ((o.localRep die).known / 2 ^ 32)),
        W.put l (d.toNat + 2) (BitVec.ofNat 32 (o.localRep die).applied),
        W.put l (d.toNat + 3) (BitVec.ofNat 32 ((o.localRep die).applied / 2 ^ 32))]))))

/-- 18 R302 to R317, R321: an append takes the object's next sequence numbers in lane order; a replica applies the next entry it knows, and only that
one, and the home replica's outcome is written once both copies of the log can hold it; an append or a read of an object that is gone ends with OBJ.HANDLE, and one whose calls are
lost with CONTAIN; another read ends once every lane is answered, a wait with the results, or the trap, of its call in the record, or with C where it is gone; a call leaves in the replica what its method
leaves in its copy where that returns within 4,096 steps, and else the state as it was, with the trap's code; a mirror copy that is done writes the outcomes that have waited. That an append waits for both copies of the log, and what the home writes
into them and when, is the model's choice (log 48), and so is what a mirror copy does (log 52). -/
def Obligations.ObjectEngineSteps : Prop :=
  ∀ (s : State) (asid slot : Nat) (o : Obj), s.objAt asid slot = some o →
    (∀ req w d a sc ord r m, (s.calls.find? fun q => q.id == req) = some w → w.instr = .rcall d a sc ord r m → s.mayCall w = true →
      (∀ p ∈ s.calls.takeWhile fun p => p.id != req, ¬ (p.ctx = w.ctx ∧ p.warp = w.warp ∧ p.cells = w.cells ∧ p.uni = w.uni ∧
        (p.instr matches .rcall ..) = true)) →
      (s.objOf w = none → exec (.logAppend req) s = .next (s.callDone { w with fault := some (flt 0x0C 1) })) ∧
      (s.objOf w = some o → o.lost = true → exec (.logAppend req) s = .next (s.callDone { w with fault := some (flt 0x10 1) })) ∧
      (s.objOf w = some o → o.lost = false → o.copying = true ∨ o.mirror = none ∨ o.applied + 4096 < o.tail + w.args.length →
        exec (.logAppend req) s = .next s) ∧
      (s.objOf w = some o → w.cells.getD 0 0 = slot → (s.gang w.ctx).asid = asid →
        o.lost = false → o.copying = false → o.mirror.isSome = true → o.tail + w.args.length ≤ o.applied + 4096 →
        exec (.logAppend req) s = .next ((s.mapObj asid slot fun x => x.append w m.toNat asid (s.coreOf w.ctx w.warp / 288)).callDone
          { w with vals := (w.args.mapIdx fun k _ => pairVals ((w.awaits.drop (2 * k)).take 2) (o.tail + 1 + k)).flatten }))) ∧
    (∀ die p e, o.repOf die = p → p ∈ o.reps → p.die = die → p.failed = false → o.lost = false → p.applied < p.known →
      (o.log.find? fun x => x.seq == p.applied + 1) = some e →
      let x := o.outcome e.meth p.state e.args
      ∃ t o', exec (.replayApply asid slot die) s = .next t ∧ t.objAt asid slot = some o' ∧
        (o'.repOf die).state = x.1 ∧ (o'.repOf die).applied = p.applied + 1 ∧
        (∀ k, k ≠ die → (o'.repOf k).applied = (o.repOf k).applied ∧ (o'.repOf k).state = (o.repOf k).state) ∧
        (die = o.home → p.outs = [] → o.copying = false → o.mirror.isSome = true →
          o'.log = o.log.map fun (y : LogEntry) => if y.seq = e.seq ∧ y.state = 1 then
            { y with tcode := x.2.1, taux := x.2.2.1, res := x.2.2.2, state := if x.2.1 = 0 then 2 else 3 } else y) ∧
        (o.copying = true ∨ o.mirror = none ∨ (die ≠ o.home ∧ (o.repOf o.home).outs = []) → o'.log = o.log)) ∧
    (∀ die p, (o.reps.find? fun q => q.die == die && !q.failed) = some p → p.known ≤ p.applied →
      exec (.replayApply asid slot die) s = .next s) ∧
    (∀ req w, (s.calls.find? fun q => q.id == req) = some w → (w.instr matches .rreadWait ..) = true → s.mayCall w = true →
      (s.objOf w = none → exec (.rreadReturn req) s = .next (s.callDone { w with fault := some (flt 0x0C 1) })) ∧
      (s.objOf w = some o → o.lost = true → exec (.rreadReturn req) s = .next (s.callDone { w with fault := some (flt 0x10 1) })) ∧
      (s.objOf w = some o → o.lost = false → (s.answerLanes w o).args.length < (s.answerLanes w o).cells.length →
        exec (.rreadReturn req) s = .next (s.callDone (s.answerLanes w o)))) ∧
    (∀ req w d a b sc ord r m, (s.calls.find? fun q => q.id == req) = some w → w.instr = .rreadRead d a b sc ord r m →
      s.mayCall w = true → (s.calls.head?.map (·.id)) = some req → s.objOf w = some o → o.lost = false →
      ∀ die p y, die = s.coreOf w.ctx w.warp / 288 → o.repOf die = p → p ∈ o.reps → p.die = die → p.failed = false →
        w.args = [y] → w.cells.length = 1 → y.c.toNat ≤ p.applied →
        let x := o.outcome m.toNat p.state y.words
        exec (.rreadReturn req) s = .next (s.callDone (w.answer 0 (if x.2.1 = 0 then (x.2.2.2, nzcv false true false false)
          else ([BitVec.ofNat 32 x.2.1, x.2.2.1, 0, 0], nzcv false false false true))))) ∧
    exec (.logMirrorCopyComplete asid slot) s = .next (s.mapObj asid slot fun x => { x with copying := false }.publish) ∧
    -- a call on a state block: what its method leaves (18 R306 to R310)
    (∀ (meth : Nat) (block : List Byte) (args : List Word),
      let m := o.methods.getD meth default
      let size := block.length
      let r : MRun := { regs := (List.range 64).map fun j => if j < 8 then args.getD j 0 else 0, flags := 0, stack := [], sptr := 0,
                        pc := m.entry, mem := Memory.putBytes [] 0 block }
      let owned : Prop := m.entry.toNat % 16 ≠ 0 ∧ m.entry.toNat % 4 = 0 ∧ 4 < 4 * m.code.length
      let trapped (c : Nat) (aux : Word) := (block, c, aux, [(0 : Word), 0, 0, 0])
      (¬ owned → o.outcome meth block args = trapped 8 0) ∧
      (owned →
        (∀ n q x, n < 4096 → m.Reaches size n r q → methodStep m size q = .done x →
          o.outcome meth block args = (Memory.bytes x.mem 0 size, 0, 0, x.regs.take 4)) ∧
        (∀ n q k aux, n < 4096 → m.Reaches size n r q → methodStep m size q = .trap k aux → o.outcome meth block args = trapped k aux) ∧
        (∀ q, m.Reaches size 4096 r q → o.outcome meth block args = trapped 4 0)) ∧
      ∀ q, MethodSteps m size q) ∧
    -- the entries of an append, and the answer of a wait (18 R304, R305, R312, R317)
    (∀ w meth die,
      let tail := o.tail + w.args.length
      o.append w meth asid die = { o with tail := tail, log := (o.log ++ w.args.mapIdx fun k y =>
        ({ seq := o.tail + 1 + k, meth := meth, state := 1, tcode := 0, taux := 0, args := y.words, res := [0, 0, 0, 0],
           asid := asid, lane := y.lane, die := die } : LogEntry)).filter fun e => decide (tail < e.seq + 4096) }) ∧
    (∀ (q known : Nat) (acq : Bool), let r := o.waitAnswer q known acq
      (q = 0 → r = some ([0, 0, 0, 0], 0)) ∧
      (0 < q → o.tail < q ∨ (acq = true ∧ known < q) → r = none) ∧
      (0 < q → q ≤ o.tail → (acq = true → q ≤ known) →
        (q + 4096 ≤ o.tail → r = some ([0, 0, 0, 0], nzcv false false true false)) ∧
        (o.tail < q + 4096 → ∀ e, (o.log.find? fun e => e.seq == q) = some e →
          (e.state = 2 → r = some (e.res, nzcv false true false false)) ∧
          (e.state = 3 → r = some ([BitVec.ofNat 32 e.tcode, e.taux, 0, 0], nzcv false false false true)) ∧
          (e.state ≠ 2 → e.state ≠ 3 → r = none)))) ∧
    ∀ w d b sc ord r, w.instr = .rreadWait d b sc ord r → w.cells.length = 1 →
      let known := (o.localRep (s.coreOf w.ctx w.warp / 288)).known
      let found := (List.range w.args.length).filterMap fun j => (o.waitAnswer (w.args.getD j default).d.toNat known (ord == 1)).map fun x => (j, x)
      (s.answerLanes w o).cells = w.cells ++ found.map (·.1) ∧ (s.answerLanes w o).args = w.args ∧
        (s.answerLanes w o).vals = w.vals ++ found.flatMap fun p => ((w.awaits.drop (5 * p.1)).take 5).zip
          ((p.2.1.map fun (v : Word) => v.setWidth 64) ++ [p.2.2.setWidth 64])

/-- 08 R179 to R181, R186, 22 R362: what ends a wait. A lane parked at MWAIT goes on with reason 0 once its monitor has fired, 1 once that is lost, and 2 once
its bound has passed, and D receives the reason; until then, and where no lane waits, MONITOR_FIRE and MWAIT_TIMEOUT change nothing; 16 cycles after a YIELD its set may
issue again; a SYNC that is done lets its lanes go on; 1,024 cycles as a candidate raise a warp's standing. Before its time a YIELD's end and a rise change nothing. -/
def Obligations.WaitsEnd : Prop :=
  ∀ (ctx warp lane : Nat) (s : State),
    let L := (s.warp ctx warp).lane lane
    let st := (s.monitor? ctx warp lane).map (·.st)
    (∀ b id, L.slot = .parked (.mwait b id) →
      let reason (n : Nat) : Prop := ∃ t, exec (.monitorFire ctx warp lane) s = .next t ∧ exec (.mwaitTimeout ctx warp lane) s = .next t ∧
        t.monitor? ctx warp lane = none ∧
        (warp < (s.gang ctx).warps.length → lane < (s.warp ctx warp).lanes.length → ctx < s.gangs.length →
          ((t.warp ctx warp).lane lane).slot = .live ∧
          ∀ o, ((s.gang ctx).accs.find? fun o => o.id == id) = some o → ∀ k < L.regs.length,
            o.awaits = [.reg lane k] → ((t.warp ctx warp).lane lane).regs[k]? = some (BitVec.ofNat 32 n))
      (st = some .fired → reason 0) ∧ (st = some .lost → reason 1) ∧
      (st ≠ some .fired → st ≠ some .lost →
        (∀ n, b = some n → n ≤ s.now ctx warp → reason 2) ∧
        ((∀ n, b = some n → s.now ctx warp < n) → exec (.monitorFire ctx warp lane) s = .next s ∧
          exec (.mwaitTimeout ctx warp lane) s = .next s))) ∧
    ((∀ b id, L.slot ≠ .parked (.mwait b id)) → exec (.monitorFire ctx warp lane) s = .next s ∧
      exec (.mwaitTimeout ctx warp lane) s = .next s) ∧
    (∀ y, L.fib.yieldAt = some y →
      (y + 16 ≤ s.now ctx warp → exec (.yieldExpiry ctx warp lane) s = .next (s.mapWarp ctx warp fun W =>
        W.mapLanes [lane] fun _ K => K.mapFib fun f => { f with yieldAt := none })) ∧
      (s.now ctx warp < y + 16 → exec (.yieldExpiry ctx warp lane) s = .next s)) ∧
    (∀ id w a b, ((s.gang ctx).accs.find? fun o => o.id == id && o.warp == warp) = some w →
      w.instr = .syncIcinv a b ∨ w.instr = .syncDcwb a b ∨ w.instr = .syncDcinv a b →
      exec (.syncComplete ctx warp id) s = .next (((s.syncEffect w).mapGang ctx fun G =>
        { G with accs := G.accs.filter fun o => o.id ≠ id }).mapWarp ctx warp fun W => W.mapAll fun _ K =>
          if K.slot = .parked (.sync id) then K.resume (s.now ctx warp) else K)) ∧
    (1024 ≤ (s.warp ctx warp).candidate →
      exec (.priorityStandingRaise ctx warp) s = .next (s.mapWarp ctx warp fun W => { W with raised := true })) ∧
    ((s.warp ctx warp).candidate < 1024 → exec (.priorityStandingRaise ctx warp) s = .next s)

/-- 24 R371 to R373, R378: taking an exception. Once nothing of the warp is pending, the warp of a running gang takes its cause, after what the gang had in flight is
discarded where the cause is a fault: with a handler, outside handler mode and for a class other than CONTAIN each lane of the handler set goes to HENTRY with its pc, or
the faulting slot's, and its flags saved, its flags clear and its words in TRAPAUX and FADDR; TRAPC holds class and code and TRAPPC the cause's pc, and no other lane enters; otherwise the gang halts.
The core's request queue is then examined. What lanes that the entry unparks had asked for is withdrawn, and the write that an access waits for
is not waited for where the lane stays parked: both are the model's choice (logs 87 and 58). -/
def Obligations.TrapEntry : Prop :=
  ∀ (s : State) (g w : Nat) (k : Cause), (s.warp g w).cause = some k → (s.gang g).phase = .running →
    s.entryPending g w (k.cls == 0x11) = false →
    let u := if k.cls = 0x11 then s else s.discard g
    let he := u.hentry (u.gang g).asid
    exec (.trapEntry g w) s = .next ((s.enterTrap g w k).examineAll [s.coreOf g w]) ∧
    ((u.warp g w).handler = false → k.cls ≠ 0x10 → he ≠ 0 → g < u.gangs.length → w < (u.gang g).warps.length →
      let V := (s.enterTrap g w k).warp g w
      V.handler = true ∧ V.cause = none ∧ V.trapc = BitVec.ofNat 32 (256 * k.cls.toNat + k.code.toNat) ∧
      V.trappc = k.pc ∧
      ∀ l < (u.warp g w).lanes.length,
        (l ∈ k.lanes → (V.lane l).slot = .live ∧ (V.lane l).fib.pc = he ∧ (V.lane l).fib.inH = true ∧
          (V.lane l).trapaux = (k.word l).1 ∧ (V.lane l).faddr = (k.word l).2 ∧
          (V.lane l).fib.flags = 0 ∧ (V.lane l).fib.saved = some (if k.atIssue then k.pc else ((u.warp g w).lane l).fib.pc,
            ((u.warp g w).lane l).fib.flags, ((u.warp g w).lane l).fib.rep)) ∧
        (l ∉ k.lanes → (V.lane l).trapaux = ((u.warp g w).lane l).trapaux ∧ (V.lane l).faddr = ((u.warp g w).lane l).faddr ∧
          (V.lane l).fib.flags = ((u.warp g w).lane l).fib.flags ∧ (V.lane l).fib.inH = ((u.warp g w).lane l).fib.inH ∧
          (V.lane l).fib.saved = ((u.warp g w).lane l).fib.saved) ∧
        (V.lane l).regs = ((u.warp g w).lane l).regs) ∧
    ((u.warp g w).handler = false → k.cls ≠ 0x10 → he ≠ 0 → ∀ l ∈ k.lanes, ∀ id, ((u.warp g w).lane l).parkedOn = some id →
      (∀ o ∈ ((s.enterTrap g w k).gang g).accs, o.id ≠ id) ∧ ∀ c ∈ (s.enterTrap g w k).cores, ∀ r ∈ c.xacq, r.1 ≠ id) ∧
    ((u.warp g w).handler = true ∨ k.cls = 0x10 ∨ he = 0 → s.enterTrap g w k = u.haltGang g k.cls k.code k.pc true)

/-- 01 R34, 02 R51, 24 R370, R372: a fault at issue. A slot whose fields, status register or stall count are faulty takes its fault for
every lane of its set before its guard is looked at, and has no other effect; a slot that no lane of its set takes only moves on; a control
or management register read outside ASID 0 faults PRIV.SREG where some lane issues. That these faults come before the guard, and in which order, is for the status
registers the model's choice (log 76), and so is what a slot names for STALL.SHORT (log 89). -/
def Obligations.FaultsAtIssue : Prop :=
  ∀ (i : Instr) (c : Cur) (s : State), s.cur = some c → encode i ≠ [] → (∀ a b d, i ≠ .rep a b d) →
    (∀ f, s.earlyFault i c = some f → exec i s = .next (s.faulted c f)) ∧
    (s.earlyFault i c = none → c.issue = [] → exec i s = .next (s.advance i c)) ∧
    (∀ n d, i = .srd n d → 0x40 ≤ n.toNat → i.wf = true → (s.gang c.gang).asid ≠ 0 → c.issue ≠ [] →
      exec i s = .next (s.faulted c (flt 5 1))) ∧
    (∀ f, c.rep = none → (s.faulted c f).mem = s.mem ∧ ∀ l,
      ((s.faulted c f).warp c.gang c.warp).lane l = (s.warp c.gang c.warp).lane l)

/-- 22 R361 to R365, 08 R164: gangs and warps. A waiting gang that no other that fits precedes takes its place: of those with room, in the columns at heat code 12 or lower that its region allows, one of a coolest column, then of one with most
free warp slots, then the first; a new one starts there as a launch says, a saved one goes on with what was saved. The higher priority commits first, then the saved gang, then the one
whose record reached its head first. With a new one the next of its record waits, or HEAD passes the record; a drained gang is saved;
a running gang whose column drains, or whose region stops, drains, and so does each victim of the gang for which victims are sought: a waiting one that
finds no column; the victims are running gangs of lower priority of one column, without which a cluster has room, of no higher a priority than any
other such choice, and the cluster's room is held; a warp with nothing left retires, and its gang when all its warps have; a column whose engines do not drain is dead; placement, pre-emption, saving and retirement change nothing
where they do not apply. What a time-out is counted against (log 34), one step for all of a placement (log 82), its order (log 55), what a hold
covers (log 56) and which of several least choices is taken (log 9) are the model's choices. -/
def Obligations.GangEvents : Prop :=
  ∀ (ctx w : Nat) (s : State),
    (∀ path p, s.waits ctx = true → (∀ h < s.gangs.length, h ≠ ctx → ¬ (s.precedes h ctx = true ∧ s.placeable h = true)) →
      s.pathFor ctx = some path → s.placeFor ctx path = some p →
      exec (.gangPlacement ctx) s = .next (if (s.gang ctx).phase = .waiting
        then (((s.commit ctx path p).writeUse (s.gang ctx).region).examineAll ((s.commit ctx path p).gang ctx).cores).nextOfRecord (s.gang ctx)
        else ((s.commit ctx path p).writeUse (s.gang ctx).region).examineAll ((s.commit ctx path p).gang ctx).cores) ∧
      s.Places ctx path p ∧ ((s.gang ctx).phase ≠ .saved → GangStarts s (s.commit ctx path p) ctx path p) ∧
      ((s.gang ctx).phase = .saved → GangResumes s (s.commit ctx path p) ctx p)) ∧
    (∀ path, s.placeFor ctx path = none ↔ ∀ p, ¬ s.MayTake ctx path p) ∧
    (∀ path, s.pathFor ctx = some path ↔ s.regionPath (s.gang ctx).region = some path ∧ pathValid path = true ∧ effStop path = false ∧
      ∀ x ∈ path, let d := (s.gang ctx).demand
        (x.2.firnk ≠ 0xFFFFFFFF → s.useFirn x.1 + d.firn ≤ 1024 * x.2.firnk) ∧ (x.2.cmemk ≠ 0xFFFFFFFF → s.useCmem x.1 + d.cmem ≤ 1024 * x.2.cmemk) ∧
        (x.2.xshare ≠ 0xFFFF → s.useX x.1 + (d.wgs.map fun w => w.2.2).sum ≤ x.2.xshare)) ∧
    (s.placeable ctx = true ↔ s.waits ctx = true ∧ ∃ path p, s.pathFor ctx = some path ∧ s.placeFor ctx path = some p) ∧
    (∀ h, let saved (g : Nat) : Prop := (s.gang g).phase = .saved
      (s.precedes h ctx = true ↔ s.prioOf ctx < s.prioOf h ∨ (s.prioOf h = s.prioOf ctx ∧ ((saved h ∧ ¬ saved ctx) ∨ ((saved h ↔ saved ctx) ∧
        ((s.gang h).headAt < (s.gang ctx).headAt ∨ ((s.gang h).headAt = (s.gang ctx).headAt ∧ h < ctx))))))) ∧
    (∀ G e pl d, s.queue? G.queue = some e → e.placing = some pl → s.qdesc? e.desc = some d →
      (pl.next + 1 < pl.launch.gangs → ∃ H, (s.nextOfRecord G).gangs = s.gangs ++ [H] ∧ H.phase = .waiting ∧ H.gangid = pl.next + 1 ∧ H.launch = pl.launch ∧
        H.region = G.region ∧ H.asid = G.asid ∧ H.regid = G.regid ∧ H.queue = e.num ∧ H.recIdx = G.recIdx) ∧
      (pl.launch.gangs ≤ pl.next + 1 → s.nextOfRecord G = (s.rowWrite 0 e.desc 24 (leBytes 8 (d.head + 1))).mapQueue e.num fun q =>
        { q with placing := none, interval := 64, headAt := if d.head + 1 < d.tail then some s.tick else none })) ∧
    (s.waits ctx = false → exec (.gangPlacement ctx) s = .next s) ∧
    ((s.gang ctx).phase = .running → (s.colOf (s.gang ctx).place.die (s.gang ctx).place.col).st = 1 →
      exec (.preemption ctx) s = .next (s.drain [ctx])) ∧
    (∀ path, (s.gang ctx).phase = .running → s.regionPath (s.gang ctx).region = some path → effStop path = true →
      exec (.preemption ctx) s = .next (s.drain [ctx])) ∧
    (∀ g path v, (s.gang ctx).phase = .running → (∀ p, s.regionPath (s.gang ctx).region = some p → effStop p = false) →
      (s.colOf (s.gang ctx).place.die (s.gang ctx).place.col).st ≠ 1 → s.seeker = some (g, path) → s.victimsFor g path = some v →
      (ctx ∈ v.gangs → exec (.preemption ctx) s = .next { s.drain v.gangs with
        reserved := (s.reserved.filter fun r => r.2 ≠ g) ++ [(v.place.id / 4, g)] }) ∧
      (ctx ∉ v.gangs → exec (.preemption ctx) s = .next s)) ∧
    ((s.gang ctx).phase = .running → (∀ p, s.regionPath (s.gang ctx).region = some p → effStop p = false) →
      (s.colOf (s.gang ctx).place.die (s.gang ctx).place.col).st ≠ 1 → s.seeker = none → exec (.preemption ctx) s = .next s) ∧
    (∀ g path, s.seeker = some (g, path) → s.waits g = true ∧ s.pathFor g = some path ∧ s.columnsFor g path = [] ∧
      ∃ v, s.victimsFor g path = some v ∧ v.gangs ≠ [] ∧ s.openColumn path (v.place.die, v.place.col) = true ∧
        (∀ h ∈ v.gangs, (s.gang h).phase = .running ∧ s.prioOf h < effPrio path ∧ (s.gang h).place.die = v.place.die ∧
          (s.gang h).place.col = v.place.col) ∧
        (∃ k < 4, (s.without v.gangs).room (s.gang g).demand { v.place with core := k } = true) ∧
        ∀ p ∈ columns, s.openColumn path p = true → ∀ clu < 4, ∀ o ∈ s.victimsAt g path ⟨p.1, p.2, clu, 0⟩,
          (∀ c ∈ columns, s.heatOf c.1 c.2 < 16) → v.gangs.length < 65536 → o.gangs.length < 65536 → ∀ h ∈ v.gangs,
            ∃ k ∈ o.gangs, s.prioOf h ≤ s.prioOf k) ∧
    ((s.gang ctx).phase ≠ .running → exec (.preemption ctx) s = .next s) ∧
    ((s.gang ctx).phase = .draining → (∀ o ∈ (s.gang ctx).ops, (s.gang ctx).opOver o = true) →
      (s.gang ctx).producer.bind (·.fetching) = none →
      exec (.drainTimeout ctx) s = .next s) ∧
    ((s.gang ctx).phase = .draining → s.drained ctx = true →
      ∃ t, exec (.preemptionSave ctx) s = .next t ∧ (t.gang ctx).phase = .saved ∧
        (∀ o ∈ (t.gang ctx).ops, o.fault ≠ none) ∧ (∀ o ∈ (t.gang ctx).accs, o.keptPending = true ∨ o.fault ≠ none) ∧ (∀ x ∈ (t.gang ctx).tiles, x ∈ (s.gang ctx).tiles ∨ x.st = .empty) ∧
        ∀ m ∈ t.monitors, m.ctx = ctx → m.st = .fired ∨ m.st = .lost) ∧
    ((s.gang ctx).phase ≠ .draining → exec (.preemptionSave ctx) s = .next s) ∧
    ((s.gang ctx).phase = .draining →
      (∃ o ∈ (s.gang ctx).ops, (s.gang ctx).opOver o = false) ∨ (s.gang ctx).producer.bind (·.fetching) ≠ none →
      exec (.drainTimeout ctx) s = .next (s.declareDead (.column (s.gang ctx).place.die (s.gang ctx).place.col))) ∧
    (s.mayRetire ctx w = true → ∃ t, exec (.warpRetire ctx w) s = .next t ∧ (t.warp ctx w).retired = true ∧
      ((∀ c ∈ s.cores, ∀ r ∈ c.xacq, ¬ (r.2.1 = ctx ∧ r.2.2.1 = w)) → (t.warp ctx w).x = 0) ∧ ((∀ v < (s.gang ctx).warps.length, v ≠ w → (s.warp ctx v).retired = true) →
        (t.gang ctx).phase = .retired)) ∧
    (s.mayRetire ctx w = false → exec (.warpRetire ctx w) s = .next s)

/-- 22 R353 to R357, R366, R367: queues and launches. An enabled queue whose poll time has come and whose ring is empty backs off: it waits its interval, which doubles up to 65,536; a record that fails its
checks puts the queue in error, with the code of the first check that fails; a record is opened where it is unconditional or its SEM word passes the test, and the queue backs off where it does not; opened, its first gang waits for a place; a queue in error places nothing; a record all of whose gangs
have retired adds 1 to its DONE word; LNCH appends the lanes' records in ascending order where the queue has room, each lane's answer being the record's index with Z, or all ones with V; and a
handle that names no such queue faults LAUNCH.QUEUE. When a record counts as at the head (log 85), the order of its errors (log 33), what an
unreadable descriptor means (log 60) and the traces of the control plane's own reads (log 86) are the model's choices. -/
def Obligations.LaunchEvents : Prop :=
  ∀ (q idx : Nat) (s : State),
    (∀ e d, s.queue? q = some e → s.qdesc? e.desc = some d → e.enabled = true → e.wait = 0 → e.placing = none →
      d.qstat / 2 % 2 = 0 →
      let f (x : Queue) : Queue := { x with headAt := some (x.headAt.getD s.tick) }
      let u := s.mapQueue q f
      RecordChecks u d ∧ (∀ r p, RecordOpens u (u.openRecord (f e) d r p) (f e) d r p) ∧
      (d.tail = d.head → exec (.queuePoll q) s = .next (s.mapQueue q fun x =>
        { x with wait := x.interval, interval := min (2 * x.interval) 65536, headAt := none })) ∧
      (d.tail ≠ d.head → q = 0 → exec (.queuePoll q) s =
        .next (if s.rowRead 0 (d.ringRef d.head) 0 64 = none then s.queueError 0 5 else s)) ∧
      (∀ code, d.tail ≠ d.head → q ≠ 0 → u.checkRecord d = .error code →
        exec (.queuePoll q) s = .next (u.queueError q code)) ∧
      (∀ r p, d.tail ≠ d.head → q ≠ 0 → u.checkRecord d = .ok (r, p) →
        (r.cond = 0 → exec (.queuePoll q) s = .next (u.openRecord (f e) d r p)) ∧
        (r.cond ≠ 0 → u.rowRead (effAsid p) r.sem 0 8 = none → exec (.queuePoll q) s = .next (u.mapQueue q fun x =>
          { x with wait := x.interval, interval := min (2 * x.interval) 65536 })) ∧
        (∀ bs, r.cond ≠ 0 → u.rowRead (effAsid p) r.sem 0 8 = some bs →
          let v : DWord := BitVec.ofNat 64 (leNat bs)
          let seen := u.mapQueue q fun (x : Queue) => { x with semSeen := v }
          exec (.queuePoll q) s = .next (if launchTest r.cond v r.sval then seen.openRecord (f e) d r p
            else seen.mapQueue q fun x => { x with wait := x.interval, interval := min (2 * x.interval) 65536 })))) ∧
    (∀ v w : DWord, (launchTest 1 v w = true ↔ v = w) ∧ (launchTest 2 v w = true ↔ v ≠ w) ∧ (launchTest 3 v w = true ↔ w.toInt ≤ v.toInt) ∧
      (launchTest 4 v w = true ↔ v.toInt < w.toInt) ∧ (launchTest 5 v w = true ↔ w.toNat ≤ v.toNat) ∧ (launchTest 6 v w = true ↔ v.toNat < w.toNat)) ∧
    (∀ e d, s.queue? q = some e → s.qdesc? e.desc = some d → d.qstat / 2 % 2 = 1 → exec (.queuePoll q) s = .next s) ∧
    (∀ e d, s.queue? q = some e → s.qdesc? e.desc = some d → e.enabled = false → exec (.queuePoll q) s = .next s) ∧
    (∀ r d, (s.recs.find? fun x => x.queue == q && x.idx == idx && !x.halted && decide (x.total ≤ x.retired)) = some r →
      r.done = some d → exec (.doneIncrement q idx) s =
        .next ({ s with recs := s.recs.filter fun x => x ≠ r }.addOne r.asid d)) ∧
    (∀ (d a : BitVec 7) (sc : BitVec 3) (ord : BitVec 2) (h : BitVec 7) (c : Cur), Issues (.lnch d a sc ord h) c s →
      let W := s.warp c.gang c.warp
      (s.launchQueue c.gang ((W.s h.toNat).setWidth 32) = none →
        exec (.lnch d a sc ord h) s = .next (s.faulted c (flt 0x0F 1))) ∧
      (∀ e k as, s.launchQueue c.gang ((W.s h.toNat).setWidth 32) = some (e, k) →
        s.laneAccs c 64 .read (fun l => W.get64 l a.toNat) (fun _ => 0) = .ok as →
        let r := (s.advance (.lnch d a sc ord h) c).enqueueAll e as
        ∃ t, exec (.lnch d a sc ord h) s = .next t ∧ ReadStarts r.1 t c (.lnch d a sc ord h) as (fun l => [W.loc l d.toNat, .flag l 0])
          fun x => let y := (r.2.lookup x.lane).getD (0, 0)
            [y.1.setWidth 64, y.2.setWidth 64]) ∧
      LaneChecks s c 64 .read (fun l => W.get64 l a.toNat) (fun _ => 0) ∧
      (∀ e k x, s.launchQueue c.gang ((W.s h.toNat).setWidth 32) = some (e, k) →
        s.laneAccs c 64 .read (fun l => W.get64 l a.toNat) (fun _ => 0) = .error x →
        exec (.lnch d a sc ord h) s = .next (s.faulted c x)) ∧
      (∀ e as x, x.isBad s = false →
        let t := s.enqueueAll e as
        let y := t.1.enqueue e (t.1.loadBytes x.tab x.row 0 0 x.cells)
        s.enqueueAll e (as ++ [x]) = (y.1, t.2 ++ [(x.lane, y.2)])) ∧
      (∀ e as x, x.isBad s = true → s.enqueueAll e (as ++ [x]) = s.enqueueAll e as) ∧
      (∀ e k bs, s.qdesc? e.desc = some k →
        let u := s.noteRows (s.spansOf 0 e.desc 1 0 64 0 false ++ s.pathRows 8 k.rcb)
        (u.hasRoom k = true → s.enqueue e bs = ((u.rowWrite 0 (k.ringRef k.tail) 0 bs).rowWrite 0 e.desc 32 (leBytes 8 (k.tail + 1)),
          BitVec.ofNat 32 k.tail, nzcv false true false false)) ∧
        (u.hasRoom k = false → s.enqueue e bs = (u, BitVec.allOnes 32, nzcv false false false true)) ∧ u.mem = s.mem ∧
        (s.hasRoom k = true ↔ k.tail - k.head < k.size ∧ ∀ path n, s.regionPath k.rcb = some path → effQdepth path = some n → s.useQ k.rcb < n)) ∧
      (∀ e k x y, s.qdesc? e.desc = some k → x.isBad s = false → s.enqueueAll e [x] = y →
        let u := s.noteRows (s.spansOf 0 e.desc 1 0 64 0 false ++ s.pathRows 8 k.rcb)
        (k.tail - k.head < k.size → u.hasRoom k = true →
          y.2 = [(x.lane, BitVec.ofNat 32 k.tail, nzcv false true false false)] ∧
          y.1 = (u.rowWrite 0 (k.ringRef k.tail) 0 (s.loadBytes x.tab x.row 0 0 x.cells)).rowWrite 0 e.desc 32 (leBytes 8 (k.tail + 1))) ∧
        (u.hasRoom k = false → y = (u, [(x.lane, BitVec.allOnes 32, nzcv false false false true)]))))

/-- 24 R382: commands. The command at the head of queue 0 is performed and answered 0x01 where its fields and arguments are good, answered 0x81 without
effect where a field that must be zero is not, or its code names no command, and 0x82 without effect where its arguments fail: the answer goes into its record, DONE gains 1 and HEAD passes it.
DIR.SET installs the descriptor of an image whose INC is another than the slot's, DIR.CLR empties a slot; OBJ.SET makes the object that a record's image gives, OBJ.CLR removes it; XLAT.INV leaves no
translation, code or monitor of its range; QUEUE.SET names and enables a queue, QUEUE.CLR disables it. REGION.HALT halts, in the order of their
launch, the gangs in being of the named region's subtree, with class, code and TRAPPC 0; LINE.CLR makes a lost line readable again, of zeros. With no command at the head, or one of another
code, the events of the commands change nothing. What a record of an OBJ.SET is (log 37), what becomes of a record under placement (log 38), the
conditions for 0x82 but those of DIR.SET, and the order of the halts (log 91) are the model's choices. -/
def Obligations.CommandsAnswer : Prop :=
  let cmds : List (Nat × Instr) := [(1, Instr.cmdDirSet), (2, .cmdDirClr), (3, .cmdObjSet), (4, .cmdObjClr), (5, .cmdXlatInv),
    (6, .cmdQueueSet), (7, .cmdQueueClr), (8, .cmdRegionHalt), (9, .cmdContainClr), (10, .cmdLineClr)]
  (∀ s : State, s.command? = none → ∀ x ∈ cmds, exec x.2 s = .next s) ∧
  ∀ (s : State) (e : Queue) (d : QDesc) (k : Cmd), s.command? = some (e, d, k) →
    (∀ x ∈ cmds, k.code ≠ x.1 → exec x.2 s = .next s) ∧
    (k.zeros = false → ∀ n i, (n, i) ∈ cmds → k.code = n → exec i s = .next (s.endCommand e d k 0x81)) ∧
    (k.zeros = true →
    (∀ (u : State) x, u.endCommand e d k x = ((if k.done = 0 then u.rowWrite 0 (d.ringRef d.head) 1 [x]
        else (u.rowWrite 0 (d.ringRef d.head) 1 [x]).addOne 0 k.done).rowWrite 0 e.desc 24 (leBytes 8 (d.head + 1))).mapQueue 0 fun q =>
      { q with interval := 64 }) ∧
    (s.dirSet k = none ↔ 0xFFFE < k.arg0 ∨ ∀ bs, s.rowRead 0 k.arg1 0 64 = some bs → s.slotInc k.asid k.arg0 = some (leNat ((bs.drop 12).take 2))) ∧
    (∀ x, s.table? k.asid k.arg0 = some x → s.slotInc k.asid k.arg0 = some x.desc.inc) ∧
    (∀ t, s.dirSet k = some t → ∃ bs, s.rowRead 0 k.arg1 0 64 = some bs ∧ Installs s t k.asid k.arg0 bs) ∧
    ((s.clearSlot k.asid k.arg0).table? k.asid k.arg0 = none ∧ (s.clearSlot k.asid k.arg0).mem = s.mem ∧
      ∀ a n, ¬ (a = k.asid ∧ n = k.arg0) → (s.clearSlot k.asid k.arg0).table? a n = s.table? a n) ∧
    ((s.clearObj k.asid k.arg0).objAt k.asid k.arg0 = none ∧ (s.clearObj k.asid k.arg0).mem = s.mem ∧
      ∀ a n, ¬ (a = k.asid ∧ n = k.arg0) → (s.clearObj k.asid k.arg0).objAt a n = s.objAt a n) ∧
    (∀ t, s.objSet k = some t → ∃ hd bs, s.runRead k.arg1 8 = some hd ∧
      let home := leNat (hd.take 1)
      let m := leNat ((hd.drop 1).take 1)
      let size := leNat ((hd.drop 4).take 4)
      s.runRead k.arg1 (8 + 8 * m + size) = some bs ∧ k.arg0 < 1024 ∧ (home ≤ 3 ∨ home = 0xFF) ∧ m ≤ 64 ∧ leNat ((hd.drop 2).take 2) = 0 ∧
      4 ≤ size ∧ size ≤ 65536 ∧ size % 4 = 0 ∧ Creates s t k.asid k.arg0 (k.arg2.setWidth 32) hd bs) ∧
    NamesQueue s (s.nameQueue k.arg0 (k.arg2.toNat % 65536) k.arg1) k.arg0 (k.arg2.toNat % 65536) k.arg1 ∧
    Invalidates s (s.invalidate k.asid k.arg1.toNat k.arg2.toNat) k.asid k.arg1.toNat k.arg2.toNat ∧
    (∀ m ∈ (s.loseMonitors k.asid k.arg1.toNat k.arg2.toNat).monitors, m.asid = k.asid → m.va / 64 * 64 < k.arg1.toNat + k.arg2.toNat →
      k.arg1.toNat < m.va / 64 * 64 + 64 → m.st = .fired ∨ m.st = .lost) ∧
    (∀ t, k.code = 1 → s.dirSet k = some t → exec .cmdDirSet s = .next (t.endCommand e d k 0x01)) ∧
    (k.code = 1 → s.dirSet k = none → exec .cmdDirSet s = .next (s.endCommand e d k 0x82)) ∧
    (k.code = 2 → k.arg0 ≤ 0xFFFE → exec .cmdDirClr s = .next ((s.clearSlot k.asid k.arg0).endCommand e d k 0x01)) ∧
    (k.code = 2 → 0xFFFE < k.arg0 → exec .cmdDirClr s = .next (s.endCommand e d k 0x82)) ∧
    (k.code = 3 → s.objSet k = none → exec .cmdObjSet s = .next (s.endCommand e d k 0x82)) ∧
    (k.code = 4 → 1024 ≤ k.arg0 → exec .cmdObjClr s = .next (s.endCommand e d k 0x82)) ∧
    (k.code = 5 → 2 ^ 48 < k.arg1.toNat + k.arg2.toNat → exec .cmdXlatInv s = .next (s.endCommand e d k 0x82)) ∧
    (k.code = 6 → 4096 ≤ k.arg0 ∨ s.qdesc? k.arg1 = none → exec .cmdQueueSet s = .next (s.endCommand e d k 0x82)) ∧
    (k.code = 8 → s.rcb? k.arg1 = none → exec .cmdRegionHalt s = .next (s.endCommand e d k 0x82)) ∧
    (k.code = 9 → inHole k.arg1.toNat = true ∨ 2 ^ 44 < k.arg1.toNat + k.arg2.toNat →
      exec .cmdContainClr s = .next (s.endCommand e d k 0x82)) ∧
    (k.code = 10 → inHole k.arg1.toNat = true → exec .cmdLineClr s = .next (s.endCommand e d k 0x82)) ∧
    (∀ t, k.code = 3 → s.objSet k = some t → exec .cmdObjSet s = .next (t.endCommand e d k 0x01)) ∧
    (k.code = 4 → k.arg0 < 1024 → exec .cmdObjClr s = .next ((s.clearObj k.asid k.arg0).endCommand e d k 0x01)) ∧
    (k.code = 5 → k.arg1.toNat + k.arg2.toNat ≤ 2 ^ 48 → exec .cmdXlatInv s =
      .next (((s.invalidate k.asid k.arg1.toNat k.arg2.toNat).loseMonitors k.asid k.arg1.toNat k.arg2.toNat).endCommand e d k 0x01)) ∧
    (∀ x, k.code = 6 → k.arg0 < 4096 → s.qdesc? k.arg1 = some x → exec .cmdQueueSet s =
      .next (((s.nameQueue k.arg0 (k.arg2.toNat % 65536) k.arg1).rowWrite 0 k.arg1 40 (leBytes 4 1)).endCommand e d k 0x01)) ∧
    (k.code = 7 → s.queue? k.arg0 = none → exec .cmdQueueClr s = .next (s.endCommand e d k 0x82)) ∧
    (∀ x, k.code = 7 → s.queue? k.arg0 = some x → s.qdesc? x.desc = none → exec .cmdQueueClr s =
      .next ((s.mapQueue k.arg0 fun (f : Queue) => { f with enabled := false }).endCommand e d k 0x01)) ∧
    (∀ x b, k.code = 7 → s.queue? k.arg0 = some x → s.qdesc? x.desc = some b → exec .cmdQueueClr s =
      .next (((s.rowWrite 0 x.desc 40 (leBytes 4 (b.qstat / 2 * 2))).mapQueue k.arg0 fun (f : Queue) =>
        { f with enabled := false }).endCommand e d k 0x01)) ∧
    (k.code = 8 → s.rcb? k.arg1 ≠ none → exec .cmdRegionHalt s = .next (((List.range s.gangs.length).foldl (fun (t : State) g =>
      if (t.gang g).inBeing = true ∧ t.inSubtree (t.gang g).region k.arg1 = true then t.haltGang g 0 0 0 false else t) s).endCommand
        e d k 0x01)) ∧
    (∀ g, k.code = 8 → s.rcb? k.arg1 ≠ none → s.gangs.length = g + 1 → (∀ h < g, (s.gang h).inBeing = false) → (s.gang g).inBeing = true →
      s.inSubtree (s.gang g).region k.arg1 = true → ∃ t, exec .cmdRegionHalt s = .next t ∧ (t.gang g).phase = .halted ∧
        (t.gang g).haltClass = 0 ∧ (t.gang g).haltCode = 0 ∧ (t.gang g).haltPc = 0) ∧
    (k.code = 8 → s.rcb? k.arg1 ≠ none → (∀ g < s.gangs.length, (s.gang g).inBeing = false) →
      exec .cmdRegionHalt s = .next (s.endCommand e d k 0x01)) ∧
    (k.code = 9 → inHole k.arg1.toNat = false → k.arg1.toNat + k.arg2.toNat ≤ 2 ^ 44 → exec .cmdContainClr s =
      .next ({ s with cleared := s.cleared ++ [(k.arg1.toNat, k.arg2.toNat, s.dead.length)] }.endCommand e d k 0x01)) ∧
    (k.code = 10 → inHole k.arg1.toNat = false → s.lost.contains (k.arg1.toNat / 64) = false →
      exec .cmdLineClr s = .next (s.endCommand e d k 0x01)) ∧
    (k.code = 10 → inHole k.arg1.toNat = false → s.lost.contains (k.arg1.toNat / 64) = true →
      let line := k.arg1.toNat / 64
      let u := s.touchDie (homeDie (64 * line)) true [s.lineBlock line]
      let st := s.stale.filter fun x => x.cell / 64 ≠ line
      exec .cmdLineClr s =
        .next ({ u with lost := s.lost.filter (fun l => l ≠ line), mem := Memory.putBytes s.mem (64 * line) (List.replicate 64 0),
                        stale := st, monitors := monitorsAt s.monitors st (64 * line) }.endCommand e d k 0x01))) ∧
    (k.code = 0 ∨ 11 ≤ k.code → exec .cmdReserved s = .next (s.endCommand e d k 0x81)) ∧
    (1 ≤ k.code → k.code ≤ 10 → exec .cmdReserved s = .next s)

/-- 24 R383, R384: the management interface. Before firmware runs every command but IDENT is answered Busy and changes nothing; afterwards ATTEST answers a
48-byte nonce, RESYNC answers a snapshot and forgets halted gangs, KEY.SET and KEY.CLR change slots 1 to 255 that no leaf names, PEER.MAP maps one
of 64 windows, and FW.LOAD stages its image. What answers before firmware runs, and IDENT's bytes, are the model's choice (log 65). IDENT's answer
depends on the images in place alone. -/
def Obligations.ManagementReplies : Prop :=
  ∀ (s : State) (nonce image sig wrapped key : List Byte) (slot window device : Nat),
    (∃ p, (∀ u : State, u.images = s.images → exec .ident u = .next { u with replies := u.replies ++ [.success 0xC001 p] }) ∧
      p.take 9 = [0x4E, 0x43, 0x39, 0x2D, 0x58, 0x31, 0x31, 0x35, 0x32] ∧
      ∀ k < s.images.length, p[p.length - s.images.length + k]? =
        some (if (s.images[k]?.map fun i => Config.verifies i.1 i.2) = some true then 0 else 1)) ∧
    (s.firmware = false →
      exec (.attest nonce) s = .next { s with replies := s.replies ++ [.busy 0xC002] } ∧
      exec .resync s = .next { s with replies := s.replies ++ [.busy 0xC003] } ∧
      exec (.keySet slot wrapped) s = .next { s with replies := s.replies ++ [.busy 0xC004] } ∧
      exec (.keyClr slot) s = .next { s with replies := s.replies ++ [.busy 0xC005] } ∧
      exec (.peerMap window device) s = .next { s with replies := s.replies ++ [.busy 0xC006] } ∧
      exec (.fwLoad image sig) s = .next { s with replies := s.replies ++ [.busy 0xC007] }) ∧
    (s.firmware = true →
      (nonce.length = 48 → ∃ p, exec (.attest nonce) s = .next { s with replies := s.replies ++ [.success 0xC002 p] }) ∧
      (nonce.length ≠ 48 → exec (.attest nonce) s = .next { s with replies := s.replies ++ [.invalidInput 0xC002] }) ∧
      (∃ p, exec .resync s = .next { s with
        snapshot := s.snapshot + 1, replies := s.replies ++ [.success 0xC003 p],
        gangs := s.gangs.map fun (G : Gang) => if G.phase = .halted then { G with phase := .retired } else G }) ∧
      (Config.unwrapKey wrapped = some key → 1 ≤ slot → slot ≤ 255 → s.leafNames slot = false →
        exec (.keySet slot wrapped) s = .next { s with keys := (slot, key) :: s.keys.filter (fun e => e.1 ≠ slot),
                                                       replies := s.replies ++ [.success 0xC004 []] }) ∧
      (Config.unwrapKey wrapped = none →
        exec (.keySet slot wrapped) s = .next { s with replies := s.replies ++ [.invalidInput 0xC004] }) ∧
      (1 ≤ slot → slot ≤ 255 → s.leafNames slot = false →
        exec (.keyClr slot) s = .next { s with keys := s.keys.filter (fun e => e.1 ≠ slot),
                                               replies := s.replies ++ [.success 0xC005 []] }) ∧
      (255 < slot → exec (.keyClr slot) s = .next { s with replies := s.replies ++ [.invalidInput 0xC005] }) ∧
      (window < 64 → exec (.peerMap window device) s = .next { s with
        peers := (window, device) :: s.peers.filter (fun e => e.1 ≠ window), replies := s.replies ++ [.success 0xC006 []] }) ∧
      exec (.fwLoad image sig) s = .next { s with staged := s.staged ++ [(image, sig)],
                                                  replies := s.replies ++ [.success 0xC007 []] })

/-- 24 R379 to R381, R388: dead agents and reset. Each detection declares its agent dead, once: its ranges are contained, what is outstanding to them completes with CONTAIN, and the gangs on it halt. A device reset keeps
memory, lost lines and repaired parts, and forgets gangs and dead agents; it verifies each image under its own
signature, those staged whose signature verifies in their slots, and brings the device up where the management firmware verifies, with queue 0
where the control-plane firmware does too; otherwise it stays in the boot ROM. Which slot is whose is the model's choice (log 65), and so is
what a link leads to (log 11). -/
def Obligations.DeadAgentsAndReset : Prop :=
  ∀ (s : State) (a : Agent) (link k : Nat),
    exec (.coherenceAckTimeout a) s = .next (s.declareDead a) ∧
    ContainedCells s ∧ (s.dead.contains a = false → Dies s (s.declareDead a) a) ∧
    exec (.dieWatchdog (.computeDie k)) s = .next (s.declareDead (.computeDie k)) ∧
    exec (.dieWatchdog (.column k k)) s = .next s ∧
    (s.dead.contains a = true → exec (.coherenceAckTimeout a) s = .next s) ∧
    ((agentsOf s.peers)[Config.linkAgent link]? = none → exec (.linkDead link) s =
      .next { s with deadLinks := link :: s.deadLinks.filter fun l => l ≠ link }) ∧
    (∀ b, (agentsOf s.peers)[Config.linkAgent link]? = some b → exec (.linkDead link) s =
      .next ({ s with deadLinks := link :: s.deadLinks.filter fun l => l ≠ link }.declareDead b)) ∧
    (s.deadLinks.contains link = false → exec (.linkRetrainComplete link) s =
      .next { s with retraining := s.retraining.filter fun l => l ≠ link }) ∧
    (s.deadLinks.contains link = true → exec (.linkRetrainComplete link) s = .next s) ∧
    (∀ im sig, s.afterReset.images[1]? = some (im, sig) → Config.verifies im sig = true →
      exec .deviceReset s = .next (s.afterReset.bringUp Config.bringup)) ∧
    (∀ im sig, s.afterReset.images[1]? = some (im, sig) → Config.verifies im sig = false → exec .deviceReset s = .next s.afterReset) ∧
    (s.afterReset.mem = s.mem ∧ s.afterReset.lost = s.lost ∧ s.afterReset.repaired = s.repaired ∧ s.afterReset.gangs = [] ∧ s.afterReset.dead = [] ∧
      s.afterReset.cleared = [] ∧ s.afterReset.taken = [] ∧ s.afterReset.queues = [] ∧ s.afterReset.firmware = false) ∧
    (∀ (u : State) b, let t := u.bringUp b
      t.firmware = true ∧ t.asidTable = b.asidAt ∧ t.gangs = u.gangs ∧
      (∀ x ∈ [(0xFF00, 8, 4096, b.asidAt), (0xFF01, 16, 4096, b.contextAt), (0xFF02, 64, b.ringRows, b.ringAt)], ∃ y ∈ t.tables, y.asid = 0 ∧
        y.slot = x.1 ∧ y.desc.tkind = 0 ∧ y.desc.width = x.2.1 ∧ y.desc.cap = x.2.2.1 ∧ y.desc.rowbase = x.2.2.2) ∧
      ∀ im sig, u.images[2]? = some (im, sig) → Config.verifies im sig = true → ∃ q, t.queues = [q] ∧ q.num = 0 ∧ q.enabled = true ∧ q.interval = 64) ∧
    (∀ im sig, s.images.length = 3 → s.staged = [(im, sig)] → s.afterReset.images =
      if Config.verifies im sig = true then s.images.set (Config.imageSlot im % 3) (im, sig) else s.images) ∧
    ∀ im sig, s.afterReset.images[2]? = some (im, sig) → Config.verifies im sig = false →
      (s.afterReset.bringUp Config.bringup).queues = []

/-- 20 R322, R337, 24 R388: accesses from outside. One that names an address in a hole of the map stops the machine; one that a bank, a swap, a sweep or a re-encryption holds back leaves all as it is, but that its bank thaws; any other completes: a read
answers the bytes, a write stores them, but for lost and contained ones, and no byte beside them; a dead remote device's access does not arrive; a snoop of a host-window line drops every copy of it on the device, or leaves none that is dirty.
That a held access comes again (log 64), what becomes of a contained or lost byte (log 54), the numbering of the snooped lines (log 53), and the
stop at a hole, for which the spec gives no effect, are the model's choices. -/
def Obligations.OutsideAccesses : Prop :=
  ∀ (s : State) (pa len line device : Nat) (bytes : List Byte),
    (∀ a, holeIn pa bytes.length = some a → exec (.hostWrite pa bytes) s = .fault (.hole a)) ∧
    (holeIn pa bytes.length = none → s.outsideHeld pa bytes.length true = true → exec (.hostWrite pa bytes) s = .next (s.wakeOutside pa bytes.length)) ∧
    (holeIn pa bytes.length = none → s.outsideHeld pa bytes.length true = false →
      ∃ t, exec (.hostWrite pa bytes) s = .next t ∧ t = s.outsideWrite pa bytes ∧
        (∀ a, a < pa ∨ pa + bytes.length ≤ a → Memory.get t.mem a = Memory.get s.mem a) ∧
        (Memory.wf s.mem = true → ∀ k < bytes.length, inPeer (pa + k) = false → s.containedCell (pa + k) = false →
          s.lostCell (pa + k) = false → Memory.get t.mem (pa + k) = bytes.getD k 0)) ∧
    (∀ a, holeIn pa len = some a → exec (.hostRead pa len) s = .fault (.hole a)) ∧
    (holeIn pa len = none → s.outsideHeld pa len false = true → exec (.hostRead pa len) s = .next (s.wakeOutside pa len)) ∧
    (∀ n, s.wakeOutside pa n = { s with banks := (s.wakeOutside pa n).banks } ∧
      ∀ k < n, s.banks.lookup (Config.bankOf (pa + k)) = some .frozen → (s.wakeOutside pa n).banks.lookup (Config.bankOf (pa + k)) = some .thawing) ∧
    (holeIn pa len = none → s.outsideHeld pa len false = false → ∃ t, exec (.hostRead pa len) s = .next t ∧ t.mem = s.mem ∧
      t.hostOut = s.hostOut ++ [(pa, s.outsideRead pa len)]) ∧
    (s.dead.contains (.remote device) = true → exec (.remoteDeviceAccess device pa (.load len)) s = .next s) ∧
    (s.dead.contains (.remote device) = false → inDevice pa len = true → s.outsideHeld pa len false = false →
      ∃ t, exec (.remoteDeviceAccess device pa (.load len)) s = .next t ∧ t.mem = s.mem ∧
        t.remoteOut = s.remoteOut ++ [(device, pa, s.outsideRead pa len)]) ∧
    (s.dead.contains (.remote device) = false → inDevice pa bytes.length = true → s.outsideHeld pa bytes.length true = false →
      exec (.remoteDeviceAccess device pa (.store bytes)) s = .next (s.outsideWrite pa bytes)) ∧
    (s.dead.contains (.remote device) = false → inDevice pa bytes.length = false →
      exec (.remoteDeviceAccess device pa (.store bytes)) s = .fault (.hole pa)) ∧
    (∀ k, inHost (128 * line) = false → exec (.cxlCacheSnoop line k) s = .next s) ∧
    (inHost (128 * line) = true → ∃ t, exec (.cxlCacheSnoop line .drop) s = .next t ∧ t.mem = s.mem ∧
      (∀ e ∈ t.l2, e.die < 4 → e.line ≠ line) ∧ (∀ e ∈ t.l1, e.core / 288 < 4 → e.line ≠ line) ∧
      ∀ e ∈ s.l1, e.line ≠ line → e ∈ t.l1) ∧
    ∀ k ∈ [Snoop.writeBack, .downgrade], inHost (128 * line) = true → ∃ t, exec (.cxlCacheSnoop line k) s = .next t ∧ t.mem = s.mem ∧
      (∀ e ∈ t.l1, e.core / 288 < 4 → e.line = line → e.st = .s) ∧
      (∀ e ∈ s.l2, e.die < 4 → e.line = line → ∃ f ∈ t.l2, f.die = e.die ∧ f.line = line) ∧
      ∀ e ∈ t.l2, e.die < 4 → e.line = line → e.dirty = 0

/-- 24 R379, R385 to R387: repair. A temperature sets its column's heat code, and 120 degrees make the column dead; the swap of a part begins only where the part has worn out, by an
uncorrectable error or 256 corrected ones that still count; a worn active column drains when its swap begins; a failed replay engine is dead; a row's swap ends in the list of repaired
parts, its errors forgotten; a column's or a slice's ends once no gang holds it, and the die's first spare serves under its logical number; a slice's
swap begins where it is active, and a port's spare lane is used once, while the port retrains; the scrubber counts corrected errors and makes an
uncorrectable line lost. The scrubber's numbering of lines, and how long an error counts, are the model's choice (log 40). -/
def Obligations.RepairEvents : Prop :=
  ∀ (s : State) (die col temp phys row line : Nat),
    let worn (p : Part) : Prop := ∃ n u, s.errors.lookup p = some (n, u) ∧ (u = true ∨ 256 ≤ n)
    (die < 4 → col < 18 → temp < 120 → exec (.heatCodeWrite die col temp) s =
      .next { s with heat := (18 * die + col, heatCode temp) :: s.heat.filter fun h => h.1 ≠ 18 * die + col }) ∧
    (die < 4 → col < 18 → 120 ≤ temp → exec (.heatCodeWrite die col temp) s =
      .next ({ s with heat := (18 * die + col, heatCode temp) :: s.heat.filter fun h => h.1 ≠ 18 * die + col }.declareDead
        (.column die col))) ∧
    (s.swaps.contains (.column die phys) = false → worn (.column die phys) → (∃ c ∈ s.cols, c.die = die ∧ c.phys = phys ∧ c.st = 0) →
      exec (.spareSwap (.column die phys)) s = .next { s with swaps := s.swaps ++ [.column die phys], cols := s.cols.map fun c =>
        if c.die = die && c.phys = phys then { c with st := 1 } else c }) ∧
    (s.swaps.contains (.slice die phys) = false → worn (.slice die phys) → (∃ c ∈ s.slices, c.die = die ∧ c.phys = phys ∧ c.st = 0) →
      exec (.spareSwap (.slice die phys)) s = .next { s with swaps := s.swaps ++ [.slice die phys], slices := s.slices.map fun c =>
        if c.die = die && c.phys = phys then { c with st := 1 } else c }) ∧
    (∀ port lane, s.swaps.contains (.perpelLane port lane) = false → worn (.perpelLane port lane) →
      ((∀ l, Part.perpelLane port l ∉ s.repaired) → exec (.spareSwap (.perpelLane port lane)) s =
        .next { s with swaps := s.swaps ++ [.perpelLane port lane], retraining := port :: s.retraining.filter fun l => l ≠ port }) ∧
      ((∃ l, Part.perpelLane port l ∈ s.repaired) → exec (.spareSwap (.perpelLane port lane)) s = .next s)) ∧
    (∀ w, s.swaps.contains (.column die phys) = true → (s.cols.find? fun c => c.die == die && c.phys == phys) = some w →
      (s.colBusy die phys = true → exec (.spareSwapComplete (.column die phys)) s = .next s) ∧
      (s.colBusy die phys = false → ∃ t, exec (.spareSwapComplete (.column die phys)) s = .next t ∧ t.mem = s.mem ∧
        t.swaps = s.swaps.filter (fun p => p ≠ .column die phys) ∧ t.errors = s.errors.filter (fun e => e.1 ≠ .column die phys) ∧
        (∀ e ∈ t.l1, e.core / 16 ≠ 18 * die + w.logical) ∧ (∀ e ∈ t.icache, e.core / 16 ≠ 18 * die + w.logical) ∧
        let gone := s.cols.map fun (c : ColSt) => if c.die = die && c.phys = phys then { c with st := 2 } else c
        t.cols = match gone.find? fun c => c.die == die && c.st == 3 with
          | none => gone
          | some p => gone.map fun (c : ColSt) => if c.die = die && c.phys = p.phys then { c with st := 0, logical := w.logical } else c)) ∧
    (∀ w, s.swaps.contains (.slice die phys) = true → (s.slices.find? fun c => c.die == die && c.phys == phys) = some w →
      ∃ t, exec (.spareSwapComplete (.slice die phys)) s = .next t ∧ t.mem = s.mem ∧
        t.swaps = s.swaps.filter (fun p => p ≠ .slice die phys) ∧ t.errors = s.errors.filter (fun e => e.1 ≠ .slice die phys) ∧
        (∀ e ∈ t.l2, e.die = die → sliceOf e.line ≠ w.logical) ∧
        let gone := s.slices.map fun (c : SliceSt) => if c.die = die && c.phys = phys then { c with st := 2 } else c
        t.slices = match gone.find? fun c => c.die == die && c.st == 3 with
          | none => gone
          | some p => gone.map fun (c : SliceSt) => if c.die = die && c.phys = p.phys then { c with st := 0, logical := w.logical } else c) ∧
    (∀ port lane, s.swaps.contains (.perpelLane port lane) = true → exec (.spareSwapComplete (.perpelLane port lane)) s =
      .next { s with swaps := s.swaps.filter (fun p => p ≠ .perpelLane port lane), errors := s.errors.filter (fun e => e.1 ≠ .perpelLane port lane),
                     repaired := s.repaired ++ [.perpelLane port lane] }) ∧
    (∀ p, (∀ k, p ≠ .replayEngine k) → ¬ worn p ∨ s.swaps.contains p = true → exec (.spareSwap p) s = .next s) ∧
    exec (.spareSwap (.replayEngine die)) s = .next (s.declareDead (.replayEngine die)) ∧
    (∀ p, (∀ a b, p ≠ .column a b ∧ p ≠ .slice a b ∧ p ≠ .perpelLane a b) → (∀ k, p ≠ .replayEngine k) →
      worn p → s.swaps.contains p = false → exec (.spareSwap p) s = .next { s with swaps := s.swaps ++ [p] }) ∧
    (s.swaps.contains (.hbmRow die row) = true → exec (.spareSwapComplete (.hbmRow die row)) s =
      .next { s with swaps := s.swaps.filter (fun p => p ≠ .hbmRow die row), errors := s.errors.filter (fun e => e.1 ≠ .hbmRow die row),
                     repaired := s.repaired ++ [.hbmRow die row] }) ∧
    (s.swaps.contains (.hbmRow die row) = false → exec (.spareSwapComplete (.hbmRow die row)) s = .next s) ∧
    exec (.patrolScrub line .clean) s = .next s ∧
    (∀ d k, scrubbed line = .l2 d k → ∃ t, exec (.patrolScrub line .corrected) s = .next t ∧
      t.errors.lookup (.slice d k) = some (((s.errors.lookup (.slice d k)).getD (0, false)).1 + 1, ((s.errors.lookup (.slice d k)).getD (0, false)).2) ∧
      t.slices = s.slices.map fun c => if c.die = d && c.phys = k then { c with corrected := c.corrected + 1 } else c) ∧
    (∀ l, scrubbed line = .memory l → ∃ t, exec (.patrolScrub line .corrected) s = .next t ∧ t.memErrors = s.memErrors + 1 ∧
      t.lost = s.lost ∧ t.mem = s.mem) ∧
    (∀ l, scrubbed line = .memory l → ∃ t, exec (.patrolScrub line .uncorrectable) s = .next t ∧ t.mem = s.mem ∧ l ∈ t.lost ∧
      ∀ x, x ≠ l → (x ∈ t.lost ↔ x ∈ s.lost))

/-- 24 R386: retention. An active bank begins to freeze; a freezing bank is frozen once it has, unless an access came meanwhile, when it thaws; a thawed bank is
active again. -/
def Obligations.BankRetention : Prop :=
  ∀ (s : State) (bank : Nat), ∃ f z h : State,
    exec (.bankFreeze bank) s = .next f ∧ exec (.freezeComplete bank) s = .next z ∧ exec (.thawComplete bank) s = .next h ∧
    (s.banks.lookup bank = none → f.banks.lookup bank = some .freezing) ∧
    (s.banks.lookup bank = some .freezing → z.banks.lookup bank = some .frozen) ∧
    (s.banks.lookup bank = some .freezingThenThaw → z.banks.lookup bank = some .thawing) ∧
    (s.banks.lookup bank = some .thawing → h.banks.lookup bank = none) ∧
    (s.banks.lookup bank = some .frozen → f = s ∧ z = s ∧ h = s) ∧
    ∀ b, b ≠ bank → f.banks.lookup b = s.banks.lookup b ∧ z.banks.lookup b = s.banks.lookup b ∧
      h.banks.lookup b = s.banks.lookup b

/-- 20 R338 to R341, 21 R348: the DRAM controllers. An access whose way to the controller is over joins its bank's queue, ends the idle count and starts an exit from
self-refresh; an access waits while its bank serves another; a bank-private one is served for 110 cycles and travels back for 20, and the times of the others
are free (the model's choice, log 6). A refresh that falls due is covered by an all-bank refresh pending or in progress; else it is postponed while
accesses are at the controller and fewer than 8 are owed, is made at the bank of the rotation where the controller is idle, and is forced on all banks where 8 are
owed: pending, it begins once nothing is in service and no other refresh is in progress, and lasts 490 cycles; the rotation advances each time. Idle times of 490 and 14,000 cycles repay what is owed and enter self-refresh, which ends 700 cycles after an access
wants it to; before its time an event changes nothing. That an entry still pending is given up when an access comes is the model's choice (log 62). -/
def Obligations.DramControllerSteps : Prop :=
  (∀ (s : State) (id : Nat) (r : DramReq), s.dramReq? id = some r →
    let c := s.pchan r.pch
    (r.phase = .travel → r.ready ≤ c.clock → exec (.dramAccessArrival id) s =
      .next (({ s with dram := (s.dram.filter fun (q : DramReq) => q.id ≠ id) ++ [{ r with phase := .wait }] }.setPchan
        { c with idle := 0, pendingSelf := false, refresh := if c.self = true ∧ c.refresh = none
            then some { bank := none, ends := c.clock + 700, exit := true } else c.refresh }).startAccesses r.pch)) ∧
    (r.phase ≠ .travel ∨ c.clock < r.ready → exec (.dramAccessArrival id) s = .next s) ∧
    (r.phase = .service → r.ready ≤ c.clock → exec (.dramServiceComplete id) s =
      .next (({ s with dram := s.dram.map fun (q : DramReq) =>
        if q.id = id then { q with phase := .back, ready := q.ready + if q.priv = true then 20 else s.freeNat 8 id } else q }.beginAll r.pch).startAccesses r.pch)) ∧
    (r.phase ≠ .service ∨ c.clock < r.ready → exec (.dramServiceComplete id) s = .next s)) ∧
  (∀ (s : State) (id : Nat) (r : DramReq), s.dramReq? id = some r → r.phase = .wait → (s.dram.map (·.id)).Nodup →
    let c := s.pchan r.pch
    ((∃ q ∈ s.dram, q.pch = r.pch ∧ q.bank = r.bank ∧ q.phase = .service) ∨ c.pendingAll = true ∨ c.self = true ∨
      (∃ f, c.refresh = some f ∧ (f.bank = none ∨ f.bank = some r.bank)) → (s.startAccesses r.pch).dramReq? id = some r) ∧
    (r.priv = true → c.pendingAll = false → c.self = false → (∀ f, c.refresh = some f → f.bank ≠ none ∧ f.bank ≠ some r.bank) →
      (∀ q ∈ s.dram, q.pch = r.pch → q.bank = r.bank → q.phase = .wait ∨ q.phase = .service → q = r) →
      (s.startAccesses r.pch).dramReq? id = some { r with phase := .service, ready := c.clock + 110 })) ∧
  (∀ (s : State) (p : Nat), let c := s.pchan p
    let begins : Prop := c.pendingAll = true ∧ c.refresh = none ∧ ∀ q ∈ s.dram, q.pch = p → q.phase ≠ .service
    (begins → s.beginAll p = s.setPchan { c with pendingAll := false, refresh := some { bank := none, ends := c.clock + 490, exit := false } }) ∧
    (¬ begins → s.beginAll p = s)) ∧
  ∀ (s : State) (p : Nat),
    let c := s.pchan p
    let next := { c with rot := (c.rot + 1) % 16, due := c.due + 342 }
    (c.self = false → c.due ≤ c.clock → (c.pendingAll = true ∨ ∃ f, c.refresh = some f ∧ f.bank = none) →
      exec (.refreshDue p) s = .next (s.setPchan next)) ∧
    (c.self = false → c.due ≤ c.clock → c.pendingAll = false → (∀ f, c.refresh = some f → f.bank ≠ none) →
      (c.owed < 8 → s.atController p = true → exec (.refreshDue p) s = .next (s.setPchan { next with owed := c.owed + 1 })) ∧
      (c.owed < 8 → s.atController p = false → exec (.refreshDue p) s = .next (s.setPchan
        { next with refresh := some { bank := some c.rot, ends := c.clock + 182, exit := false } })) ∧
      (c.owed = 8 → exec (.refreshDue p) s = .next ((s.setPchan { next with pendingAll := true }).beginAll p))) ∧
    (c.self = true ∨ c.clock < c.due → exec (.refreshDue p) s = .next s) ∧
    ((∀ f, c.refresh = some f → f.exit = true ∨ c.clock < f.ends) → exec (.refreshComplete p) s = .next s) ∧
    ((∀ f, c.refresh = some f → f.exit = false ∨ c.clock < f.ends) → exec (.selfRefreshExitComplete p) s = .next s) ∧
    (∀ f, c.refresh = some f → f.exit = false → f.ends ≤ c.clock → exec (.refreshComplete p) s =
      .next (((s.setPchan { c with
        refresh := none, owed := (if f.bank = none ∨ c.pendingSelf = true then 0 else c.owed),
        self := c.pendingSelf, pendingSelf := false }).beginAll p).startAccesses p)) ∧
    (490 ≤ c.idle → 0 < c.owed → c.pendingAll = false → c.refresh = none →
      exec (.idleRepay p) s = .next ((s.setPchan { c with pendingAll := true }).beginAll p)) ∧
    (490 ≤ c.idle → 0 < c.owed → c.self = false → c.due ≤ c.clock → ∀ u, exec (.idleRepay p) s = .next u →
      exec (.refreshDue p) u = .next (u.setPchan { u.pchan p with rot := ((u.pchan p).rot + 1) % 16, due := (u.pchan p).due + 342 })) ∧
    (c.idle < 490 ∨ c.owed = 0 → exec (.idleRepay p) s = .next s) ∧
    (14000 ≤ c.idle → c.self = false → c.refresh = none →
      exec (.selfRefreshEntry p) s = .next (s.setPchan { c with self := true, owed := 0 })) ∧
    (c.idle < 14000 → exec (.selfRefreshEntry p) s = .next s) ∧
    (∀ f, c.refresh = some f → f.exit = true → f.ends ≤ c.clock → exec (.selfRefreshExitComplete p) s =
      .next ((s.setPchan { c with refresh := none, self := false, due := c.clock + 342 }).startAccesses p))

/-- 20 R323 to R328, R336, R343 to R345: translation, regions and encryption. A walk that completes is gone, its result is kept in the cache of its die and in those of the core and the cluster of each miss attached
to it, and waiting walks start; a walk whose reads are outstanding stays, and where a bank makes them wait the bank thaws; a write-back advances its line's counter, or, past
2^28 - 1, the page's, and waits while the page is re-encrypted or its key is swept; two halves of one parent that their home tracks in one state, with 4,096 operations each, become one region, and no other region changes; a walk finds the page that the
tables map, or NOMAP, PTE or PA with the level of the entry that stops it; a page that was re-encrypted is free again, and
the write-backs that waited are made; a key whose counters are spent rotates once, and its sweep leaves every counter of its pages 0. When a walk reads its entries and which caches keep them (log 20), when a write-back advances what (log 25),
and what counts as an operation of a region (log 26) are the model's choices. -/
def Obligations.TranslationAndProtectionEvents : Prop :=
  ∀ (s : State) (asid page base slot : Nat),
    let ws := s.walks.filter fun v => v.asid == asid && v.page == page && v.started
    ((∀ w, (ws.find? fun v => !s.walkHeld v) = some w →
        let u := { s with walks := s.walks.filter fun v => v ≠ w }
        (∀ x, w.result = some x → exec (.pageWalkComplete asid page) s =
          .next (w.attached.foldl (fun (t : State) k => t.keepFor x k) (u.keepXlat (.die w.die) x)).startWalks) ∧
        (w.result = none → exec (.pageWalkComplete asid page) s = .next u.startWalks)) ∧
      ((∀ v ∈ ws, s.walkHeld v = true) → ∃ t, exec (.pageWalkComplete asid page) s = .next t ∧ t = { s with banks := t.banks } ∧
        ∀ v ∈ ws, ∀ pa ∈ s.walkReads v.asid (4096 * v.page), s.banks.lookup (Config.bankOf pa) = some .frozen →
          t.banks.lookup (Config.bankOf pa) = some .thawing) ∧
      ∀ v, (∃ r ∈ s.dram, r.id ∈ v.reqs) → s.walkHeld v = true) ∧
    (∀ w x k, s.walks = [w] → w.asid = asid → w.page = page → w.started = true → s.walkHeld w = false → w.result = some x → w.attached = [k] →
      s.tlb = [] → exec (.pageWalkComplete asid page) s = .next { s with
        walks := [], tlb := [{ x with cache := .die w.die }, { x with cache := .core k }, { x with cache := .cluster (k / 4) }] }) ∧
    (∀ a ∈ s.regions, ∀ b ∈ s.regions, a.base = base → a.Halves b → (∀ r ∈ s.regions, r.base = base → r = a) →
      (∀ r ∈ s.regions, r.home = a.home → r.base = b.base → r = b) →
      exec (.regionMerge base) s = .next { s with
        regions := (s.regions.filter fun r => r ≠ a ∧ r ≠ b) ++ [{ a with size := 2 * a.size, ops := 0 }] }) ∧
    ((∀ a ∈ s.regions, ∀ b ∈ s.regions, a.base = base → ¬ a.Halves b) → exec (.regionMerge base) s = .next s) ∧
    WalkSteps s asid (4096 * page) ∧ (∀ site, Translates s site asid (4096 * page)) ∧
    (∀ p, (s.prot.filter fun q => q.page == page) = [p] → p.busy = true → p.major < 2 ^ 56 →
      exec (.pageReencryptionComplete page) s = .next (s.putCaches (s.caches.goOn p))) ∧
    ((∀ p ∈ s.prot, p.page = page → p.busy = false) → exec (.pageReencryptionComplete page) s = .next s) ∧
    (∀ (c : Caches) (p : ProtPage), (p.waiting = [] → c.goOn p =
        { c with prot := { p with busy := false, waiting := [] } :: c.prot.filter fun q => q.page ≠ p.page }) ∧
      ∀ xs x, p.waiting = xs ++ [x] →
        c.goOn p = (c.goOn { p with waiting := xs }).writeBack p.key (64 * p.page + x.line) x.da x.bursts x.priv) ∧
    (∀ (c : Caches) (key line da bursts : Nat) (priv : Bool),
      let p := c.page key (line / 64)
      let n := line % 64
      let m := (p.minors.lookup n).getD 0
      (p.busy = true ∨ key ∈ c.sweeps ∨ p.spent c.tree = true → c.writeBack key line da bursts priv =
        { c with prot := { p with waiting := p.waiting ++ [⟨n, da, bursts, priv⟩] } :: c.prot.filter fun q => q.page ≠ line / 64 }) ∧
      (p.busy = false → key ∉ c.sweeps → p.spent c.tree = false → ∃ q ∈ (c.writeBack key line da bursts priv).prot,
        q.page = p.page ∧ q.key = p.key ∧ q.waiting = p.waiting ∧
        (m + 1 < 2 ^ 28 → q.major = p.major ∧ q.busy = false ∧ q.minors.lookup n = some (m + 1) ∧
          ∀ k, k ≠ n → q.minors.lookup k = p.minors.lookup k) ∧
        (2 ^ 28 ≤ m + 1 → q.major = p.major + 1 ∧ q.minors = [] ∧ q.busy = true))) ∧
    (s.keySpent slot = true → s.sweeps.contains slot = false → ∃ k, exec (.keyRotation slot) s =
      .next { s with sweeps := s.sweeps ++ [slot], keys := (slot, k) :: s.keys.filter fun x => x.1 ≠ slot }) ∧
    (s.keySpent slot = false → exec (.keyRotation slot) s = .next s) ∧
    (s.sweeps.contains slot = true → ∃ t, exec (.keySweepComplete slot) s = .next t ∧ t.mem = s.mem ∧
      t.sweeps.contains slot = false ∧
      ((∀ p ∈ s.prot, p.key = slot → p.waiting = []) → ∀ p ∈ t.prot, p.key = slot → p.major = 0 ∧ p.minors = [] ∧ p.busy = false)) ∧
    (s.sweeps.contains slot = false → exec (.keySweepComplete slot) s = .next s)

/-- 01 R14 to R17, R20, 00 R4, 04 R74 to R77, 16 R284: a step runs the decoded instruction. The plan of a set holds the instruction that the quad at its pc decodes to, with
the lanes whose guard holds; when a core's turn comes at its clock's edge and one set is ready, the step is `exec` of that instruction at the state that has landed
its results, has granted the blocks that can be granted and noted the fetch; where the instruction had its effect in some lane it then releases at its scope the stores that its warp sees, and the ages, the standings and
the core's clock, at 1.4 or 1.1 GHz, move on; an event's turn is `exec` of the event, with the traces of what the control plane reads for it, unless those reads
wait. Who moves next (log 1), when relaxed stores are visible (log 5), the clocks' edges (log 6) and what the control plane waits for (log 86) are the model's choices. -/
def Obligations.StepRunsDecodedInstruction : Prop :=
  ∀ (s : State) (id g w : Nat),
    (∀ (k : Key) (ws : List Word) (i : Instr), namesSlot k.pc = true → k.rep = none →
      s.fetchQuad (s.coreOf g w) (s.gang g).asid (quadOf k.pc) = .ok ws → majOf (ws.getD (slotOf k.pc) 0) ≠ 0x7F →
      decodeSlot ws (slotOf k.pc) = .ok i →
      let p := s.plan g w k
      p.what = .ok i ∧ p.cur.gang = g ∧ p.cur.warp = w ∧ p.cur.pc = k.pc ∧ p.cur.rep = none ∧
        p.cur.stall = stallOf (ws.getD 0 0) (slotOf k.pc) ∧ p.cur.set = (s.warp g w).members k ∧
        p.cur.issue = p.cur.set.filter fun l => holds (gcOf (ws.getD 0 0) (slotOf k.pc))
          (flagOf ((s.warp g w).lane l).fib.flags (fselOf (ws.getD 0 0) (slotOf k.pc)))) ∧
    (∀ (p : Plan) (i : Instr) (t : State),
      let u := ((s.landCore id).examine id).prepare id
      s.mover = .core id → s.coreTicks id = true → u.candidates id = [((g, w), [p])] → p.what = .ok i → p.cur.gang = g → p.cur.warp = w →
      exec i { u.noteFetch (u.coreOf g w) (u.gang g).asid (quadOf p.cur.pc) with cur := some p.cur } = .next t →
      let took : Prop := p.cur.issue ≠ [] ∧ ∀ k, (t.warp g w).cause = some k → k.atIssue = false
      ∀ x : State, (took → ∀ sc, releaseScope i = some sc → x = { t with cur := none }.release g w sc) →
        (¬ took ∨ releaseScope i = none → x = { t with cur := none }) →
      let y := if (u.warp g w).serial = true then x else x.mapWarp g w fun W => W.agesAfter [p] [p]
      let v := (y.countStanding id [(g, w)] (some (g, w))).examine id
      step s = .next (v.setCore { v.coreSt id with cycle := ((v.coreSt id).cycle + 1) % 2 ^ 64, edge := (v.coreSt id).edge + v.period id }).handOver) ∧
    (s.mover = .core id → s.coreTicks id = false → step s = .next s.handOver) ∧
    (s.period id = if s.heatOf (id / 288) (id / 16 % 18) = 15 then 14 else 11) ∧
    (∀ v ord sc, releaseScope (.fence v ord sc) = if 2 ≤ ord.toNat ∧ 2 ≤ sc.toNat then some sc.toNat else none) ∧
    (∀ m d a b sc ord o x, releaseScope (.amo m d a b sc ord o x) = if 2 ≤ ord.toNat ∧ 2 ≤ sc.toNat then some sc.toNat else none) ∧
    (∀ d a sc ord r, releaseScope (.lnch d a sc ord r) = if 2 ≤ ord.toNat ∧ 6 ≤ sc.toNat then some sc.toNat else none) ∧
    (∀ sc, let t := s.release g w sc
      t.mem = s.mem ∧ (6 ≤ sc → ∀ e ∈ t.stale, (g, w) ∉ e.but) ∧
      (sc < 6 → ∀ e ∈ t.stale, (g, w) ∈ e.but → ∀ x ∈ s.instanceOf g w sc, x ∈ e.but)) ∧
    (∀ (i : Instr) (t : State), s.mover = .event i → encode i = [] →
      (s.ctlRows i = [] → exec i s = .next t → step s = .next t.handOver) ∧
      (s.ctlWaits i (s.ctlRows i) = false → exec i (s.noteRows (s.ctlRows i)) = .next t → step s = .next t.handOver) ∧
      (s.ctlWaits i (s.ctlRows i) = true → step s = .next (s.wakeSpans (s.ctlRows i)).handOver)) ∧
    ∀ k : Key, (s.plan g w k).cur.set.Sublist laneIds ∧ (s.plan g w k).cur.issue.Sublist (s.plan g w k).cur.set

/-- 01 R24 to R36: decoding inverts encoding. For every well-formed instruction that a slot word names, with every operand at every value that its encoding admits, the
words that its encoding gives decode to it again; a one-word instruction does not depend on the word that follows. -/
def Obligations.DecodeInvertsEncode : Prop :=
  ∀ i : Instr, i.wf = true → i.canonical = true →
    (∀ w v, encode i = [w] → decodeWord w v = .ok i) ∧ (∀ w v, encode i = [w, v] → decodeWord w v = .ok i) ∧
    (encode i).length ≤ 2

/-- 01 R28: the all-zero word is `nop`, any other word with MAJ 0x00 is INSN.RSV, and a quad of four zero words is three `nop` slots guarded `.al` with stall count 0. Words
written out bit by bit from the spec's encodings decode to the instructions that they stand for. -/
def Obligations.DecodeReadsWords : Prop :=
  (∀ v, decodeWord 0 v = .ok .nop) ∧ (∀ w v, w ≠ 0 → majOf w = 0 → decodeWord w v = .error .rsv) ∧
  (∀ k, 1 ≤ k → k ≤ 3 → decodeSlot [0, 0, 0, 0] k = .ok .nop ∧ gcOf 0 k = 0 ∧ stallOf 0 k = 0) ∧ InsnCode.rsv.value = 9 ∧
  (∀ b fl, b = 0 → holds b fl = true) ∧
  decodeWord 0x03010283 0 = .ok (.iadd 1 0 4 5 3) ∧
  decodeWord 0x14608206 0 = .ok (.icmp 0 3 2 4 6) ∧
  decodeWord 0x3C07C489 0 = .ok (.sari 0 31 9 9) ∧
  decodeWord 0x67A2858C 0 = .ok (.ffma 3 1 10 11 12) ∧
  decodeWord 0x4F4FC600 0 = .ok (.smovi 5 0x3F 12) ∧
  decodeWord 0x7800C101 0 = .ok (.sfu 0 0 3 2 1)

/-- 00 R2, 02 R36, 24 R388: the machine right after reset. Nothing runs, no table, key or translation exists, no firmware runs, and the device is about to start its boot ROM; the
invariants of the model hold. That memory lists nothing, and reads 0 where nothing has been written, is the model's choice (DESIGN CHOICE, log 2), and so are the values of
registers for which the spec gives none (log 68), the map's numbers (log 4), and that the step after a reset is the device's (log 1). -/
def Obligations.ResetState : Prop :=
  State.reset.memoryOk ∧ State.reset.warpsWhole ∧ State.reset.gangs = [] ∧ State.reset.queues = [] ∧ State.reset.tables = [] ∧
  State.reset.tlb = [] ∧ State.reset.keys = [] ∧ State.reset.dead = [] ∧ State.reset.firmware = false ∧
  State.reset.mover = .event .deviceReset ∧ (∀ core, (State.reset.coreSt core).cycle = 0) ∧
  (∀ a, Memory.get State.reset.mem a = 0) ∧
  ∀ p, State.reset.pchan p = freshPchan p ∧ (State.reset.pchan p).owed = 0 ∧ (State.reset.pchan p).rot = 0

/-- 00 R9, 09 R195, R198, 20 R330: every step keeps every memory, the device's and each gang's shares and lanes' stacks, in its canonical form: addresses
strictly rising, and no entry equal to what an unlisted address reads as, so that equal memories are equal data. -/
def Obligations.StepKeepsMemoryCanonical : Prop :=
  ∀ s t : State, s.memoryOk → step s = .next t → t.memoryOk

/-- 02 R36, 08 R163: every step keeps the 64 lane slots of every warp. -/
def Obligations.StepKeepsWarpsWhole : Prop :=
  ∀ s t : State, s.warpsWhole → step s = .next t → t.warpsWhole

/-- 04 R80, R81, 01 R21, R34: the frame of the register forms. An instruction whose results have a fixed latency, but FSPAWN, changes nothing but its own warp, whatever becomes of the
slot: every byte of memory, every other warp and gang, and in its warp every register, flag, stack and status register keep their values; only where the
fibres stand, what is on its way and a fault met at issue may differ. -/
def Obligations.RegisterFormsFrame : Prop :=
  ∀ (i : Instr) (c : Cur) (s t : State), latency i ≠ 0 → (∀ d a x, i ≠ .fspawn d a x) → s.cur = some c →
    exec i s = .next t →
    t = { s with gangs := t.gangs } ∧ (∀ a, Memory.get t.mem a = Memory.get s.mem a) ∧ t.gangs.length = s.gangs.length ∧
      (∀ g, g ≠ c.gang → t.gang g = s.gang g) ∧ t.gang c.gang = { s.gang c.gang with warps := (t.gang c.gang).warps } ∧
      (∀ w, w ≠ c.warp → t.warp c.gang w = s.warp c.gang w) ∧
      (s.warp c.gang c.warp).KeepsRegisters (t.warp c.gang c.warp)

/-- 04 R80 to R82: results land. At its cycle each result that is due is written, in the order of issue, so that the last one stays; the others stay on their way; a
register that no due result names keeps its value. -/
def Obligations.ResultsLand : Prop :=
  ∀ (W : Warp) (now l n : Nat),
    (W.land now).pend = W.pend.filter (fun p => decide (now < p.due)) ∧
    ((∀ p ∈ W.pend, p.due ≤ now → p.tgt ≠ .reg l n) → ((W.land now).lane l).regs[n]? = (W.lane l).regs[n]?) ∧
    ((∀ p ∈ W.pend, p.due ≤ now → p.tgt ≠ .sreg n) → (W.land now).sregs[n]? = W.sregs[n]?) ∧
    ∀ xs p ys, (W.pend.filter fun p => decide (p.due ≤ now)) = xs ++ p :: ys → (∀ q ∈ ys, q.tgt ≠ p.tgt) →
      (p.tgt = .reg l n → l < W.lanes.length → n < (W.lane l).regs.length →
        ((W.land now).lane l).regs[n]? = some (p.val.setWidth 32)) ∧
      (p.tgt = .sreg n → n < W.sregs.length → (W.land now).sregs[n]? = some p.val)
end

