-- ==== Sys2Proof/Laws/State.lean ====
section
/-! SUPPORT. What each named update of the state, a gang, a warp or a lane leaves in each field. -/

namespace Sys2Proof.Machine

/-! Fields of the state after a change of one gang or one warp, after a fresh number, and after a core's own change. -/

@[simp] theorem State.mapGang_tick (x : State) (g : Nat) (f : Gang → Gang) : (x.mapGang g f).tick = x.tick := rfl
@[simp] theorem State.mapGang_mover (x : State) (g : Nat) (f : Gang → Gang) : (x.mapGang g f).mover = x.mover := rfl
@[simp] theorem State.mapGang_cur (x : State) (g : Nat) (f : Gang → Gang) : (x.mapGang g f).cur = x.cur := rfl
@[simp] theorem State.mapGang_nextId (x : State) (g : Nat) (f : Gang → Gang) : (x.mapGang g f).nextId = x.nextId := rfl
@[simp] theorem State.mapGang_mem (x : State) (g : Nat) (f : Gang → Gang) : (x.mapGang g f).mem = x.mem := rfl
@[simp] theorem State.mapGang_stale (x : State) (g : Nat) (f : Gang → Gang) : (x.mapGang g f).stale = x.stale := rfl
@[simp] theorem State.mapGang_tables (x : State) (g : Nat) (f : Gang → Gang) : (x.mapGang g f).tables = x.tables := rfl
@[simp] theorem State.mapGang_slotIncs (x : State) (g : Nat) (f : Gang → Gang) : (x.mapGang g f).slotIncs = x.slotIncs := rfl
@[simp] theorem State.mapGang_asidTable (x : State) (g : Nat) (f : Gang → Gang) : (x.mapGang g f).asidTable = x.asidTable := rfl
@[simp] theorem State.mapGang_tlb (x : State) (g : Nat) (f : Gang → Gang) : (x.mapGang g f).tlb = x.tlb := rfl
@[simp] theorem State.mapGang_walks (x : State) (g : Nat) (f : Gang → Gang) : (x.mapGang g f).walks = x.walks := rfl
@[simp] theorem State.mapGang_icache (x : State) (g : Nat) (f : Gang → Gang) : (x.mapGang g f).icache = x.icache := rfl
@[simp] theorem State.mapGang_loops (x : State) (g : Nat) (f : Gang → Gang) : (x.mapGang g f).loops = x.loops := rfl
@[simp] theorem State.mapGang_cores (x : State) (g : Nat) (f : Gang → Gang) : (x.mapGang g f).cores = x.cores := rfl
@[simp] theorem State.mapGang_l1 (x : State) (g : Nat) (f : Gang → Gang) : (x.mapGang g f).l1 = x.l1 := rfl
@[simp] theorem State.mapGang_l2 (x : State) (g : Nat) (f : Gang → Gang) : (x.mapGang g f).l2 = x.l2 := rfl
@[simp] theorem State.mapGang_regions (x : State) (g : Nat) (f : Gang → Gang) : (x.mapGang g f).regions = x.regions := rfl
@[simp] theorem State.mapGang_hubLines (x : State) (g : Nat) (f : Gang → Gang) : (x.mapGang g f).hubLines = x.hubLines := rfl
@[simp] theorem State.mapGang_pchans (x : State) (g : Nat) (f : Gang → Gang) : (x.mapGang g f).pchans = x.pchans := rfl
@[simp] theorem State.mapGang_dram (x : State) (g : Nat) (f : Gang → Gang) : (x.mapGang g f).dram = x.dram := rfl
@[simp] theorem State.mapGang_monitors (x : State) (g : Nat) (f : Gang → Gang) : (x.mapGang g f).monitors = x.monitors := rfl
@[simp] theorem State.mapGang_idx (x : State) (g : Nat) (f : Gang → Gang) : (x.mapGang g f).idx = x.idx := rfl
@[simp] theorem State.mapGang_calls (x : State) (g : Nat) (f : Gang → Gang) : (x.mapGang g f).calls = x.calls := rfl
@[simp] theorem State.mapGang_objs (x : State) (g : Nat) (f : Gang → Gang) : (x.mapGang g f).objs = x.objs := rfl
@[simp] theorem State.mapGang_objIncs (x : State) (g : Nat) (f : Gang → Gang) : (x.mapGang g f).objIncs = x.objIncs := rfl
@[simp] theorem State.mapGang_queues (x : State) (g : Nat) (f : Gang → Gang) : (x.mapGang g f).queues = x.queues := rfl
@[simp] theorem State.mapGang_ctlWrites (x : State) (g : Nat) (f : Gang → Gang) : (x.mapGang g f).ctlWrites = x.ctlWrites := rfl
@[simp] theorem State.mapGang_recs (x : State) (g : Nat) (f : Gang → Gang) : (x.mapGang g f).recs = x.recs := rfl
@[simp] theorem State.mapGang_reserved (x : State) (g : Nat) (f : Gang → Gang) : (x.mapGang g f).reserved = x.reserved := rfl
@[simp] theorem State.mapGang_heat (x : State) (g : Nat) (f : Gang → Gang) : (x.mapGang g f).heat = x.heat := rfl
@[simp] theorem State.mapGang_cols (x : State) (g : Nat) (f : Gang → Gang) : (x.mapGang g f).cols = x.cols := rfl
@[simp] theorem State.mapGang_slices (x : State) (g : Nat) (f : Gang → Gang) : (x.mapGang g f).slices = x.slices := rfl
@[simp] theorem State.mapGang_ecnt (x : State) (g : Nat) (f : Gang → Gang) : (x.mapGang g f).ecnt = x.ecnt := rfl
@[simp] theorem State.mapGang_swaps (x : State) (g : Nat) (f : Gang → Gang) : (x.mapGang g f).swaps = x.swaps := rfl
@[simp] theorem State.mapGang_repaired (x : State) (g : Nat) (f : Gang → Gang) : (x.mapGang g f).repaired = x.repaired := rfl
@[simp] theorem State.mapGang_errors (x : State) (g : Nat) (f : Gang → Gang) : (x.mapGang g f).errors = x.errors := rfl
@[simp] theorem State.mapGang_memErrors (x : State) (g : Nat) (f : Gang → Gang) : (x.mapGang g f).memErrors = x.memErrors := rfl
@[simp] theorem State.mapGang_banks (x : State) (g : Nat) (f : Gang → Gang) : (x.mapGang g f).banks = x.banks := rfl
@[simp] theorem State.mapGang_prot (x : State) (g : Nat) (f : Gang → Gang) : (x.mapGang g f).prot = x.prot := rfl
@[simp] theorem State.mapGang_tree (x : State) (g : Nat) (f : Gang → Gang) : (x.mapGang g f).tree = x.tree := rfl
@[simp] theorem State.mapGang_sweeps (x : State) (g : Nat) (f : Gang → Gang) : (x.mapGang g f).sweeps = x.sweeps := rfl
@[simp] theorem State.mapGang_keys (x : State) (g : Nat) (f : Gang → Gang) : (x.mapGang g f).keys = x.keys := rfl
@[simp] theorem State.mapGang_lost (x : State) (g : Nat) (f : Gang → Gang) : (x.mapGang g f).lost = x.lost := rfl
@[simp] theorem State.mapGang_cleared (x : State) (g : Nat) (f : Gang → Gang) : (x.mapGang g f).cleared = x.cleared := rfl
@[simp] theorem State.mapGang_taken (x : State) (g : Nat) (f : Gang → Gang) : (x.mapGang g f).taken = x.taken := rfl
@[simp] theorem State.mapGang_dead (x : State) (g : Nat) (f : Gang → Gang) : (x.mapGang g f).dead = x.dead := rfl
@[simp] theorem State.mapGang_deadLinks (x : State) (g : Nat) (f : Gang → Gang) : (x.mapGang g f).deadLinks = x.deadLinks := rfl
@[simp] theorem State.mapGang_retraining (x : State) (g : Nat) (f : Gang → Gang) : (x.mapGang g f).retraining = x.retraining := rfl
@[simp] theorem State.mapGang_peers (x : State) (g : Nat) (f : Gang → Gang) : (x.mapGang g f).peers = x.peers := rfl
@[simp] theorem State.mapGang_staged (x : State) (g : Nat) (f : Gang → Gang) : (x.mapGang g f).staged = x.staged := rfl
@[simp] theorem State.mapGang_images (x : State) (g : Nat) (f : Gang → Gang) : (x.mapGang g f).images = x.images := rfl
@[simp] theorem State.mapGang_firmware (x : State) (g : Nat) (f : Gang → Gang) : (x.mapGang g f).firmware = x.firmware := rfl
@[simp] theorem State.mapGang_snapshot (x : State) (g : Nat) (f : Gang → Gang) : (x.mapGang g f).snapshot = x.snapshot := rfl
@[simp] theorem State.mapGang_replies (x : State) (g : Nat) (f : Gang → Gang) : (x.mapGang g f).replies = x.replies := rfl
@[simp] theorem State.mapGang_hostOut (x : State) (g : Nat) (f : Gang → Gang) : (x.mapGang g f).hostOut = x.hostOut := rfl
@[simp] theorem State.mapGang_remoteOut (x : State) (g : Nat) (f : Gang → Gang) : (x.mapGang g f).remoteOut = x.remoteOut := rfl
@[simp] theorem State.mapGang_sent (x : State) (g : Nat) (f : Gang → Gang) : (x.mapGang g f).sent = x.sent := rfl

@[simp] theorem State.mapWarp_tick (x : State) (g w : Nat) (f : Warp → Warp) : (x.mapWarp g w f).tick = x.tick := rfl
@[simp] theorem State.mapWarp_mover (x : State) (g w : Nat) (f : Warp → Warp) : (x.mapWarp g w f).mover = x.mover := rfl
@[simp] theorem State.mapWarp_cur (x : State) (g w : Nat) (f : Warp → Warp) : (x.mapWarp g w f).cur = x.cur := rfl
@[simp] theorem State.mapWarp_nextId (x : State) (g w : Nat) (f : Warp → Warp) : (x.mapWarp g w f).nextId = x.nextId := rfl
@[simp] theorem State.mapWarp_mem (x : State) (g w : Nat) (f : Warp → Warp) : (x.mapWarp g w f).mem = x.mem := rfl
@[simp] theorem State.mapWarp_stale (x : State) (g w : Nat) (f : Warp → Warp) : (x.mapWarp g w f).stale = x.stale := rfl
@[simp] theorem State.mapWarp_tables (x : State) (g w : Nat) (f : Warp → Warp) : (x.mapWarp g w f).tables = x.tables := rfl
@[simp] theorem State.mapWarp_slotIncs (x : State) (g w : Nat) (f : Warp → Warp) : (x.mapWarp g w f).slotIncs = x.slotIncs := rfl
@[simp] theorem State.mapWarp_asidTable (x : State) (g w : Nat) (f : Warp → Warp) : (x.mapWarp g w f).asidTable = x.asidTable := rfl
@[simp] theorem State.mapWarp_tlb (x : State) (g w : Nat) (f : Warp → Warp) : (x.mapWarp g w f).tlb = x.tlb := rfl
@[simp] theorem State.mapWarp_walks (x : State) (g w : Nat) (f : Warp → Warp) : (x.mapWarp g w f).walks = x.walks := rfl
@[simp] theorem State.mapWarp_icache (x : State) (g w : Nat) (f : Warp → Warp) : (x.mapWarp g w f).icache = x.icache := rfl
@[simp] theorem State.mapWarp_loops (x : State) (g w : Nat) (f : Warp → Warp) : (x.mapWarp g w f).loops = x.loops := rfl
@[simp] theorem State.mapWarp_cores (x : State) (g w : Nat) (f : Warp → Warp) : (x.mapWarp g w f).cores = x.cores := rfl
@[simp] theorem State.mapWarp_l1 (x : State) (g w : Nat) (f : Warp → Warp) : (x.mapWarp g w f).l1 = x.l1 := rfl
@[simp] theorem State.mapWarp_l2 (x : State) (g w : Nat) (f : Warp → Warp) : (x.mapWarp g w f).l2 = x.l2 := rfl
@[simp] theorem State.mapWarp_regions (x : State) (g w : Nat) (f : Warp → Warp) : (x.mapWarp g w f).regions = x.regions := rfl
@[simp] theorem State.mapWarp_hubLines (x : State) (g w : Nat) (f : Warp → Warp) : (x.mapWarp g w f).hubLines = x.hubLines := rfl
@[simp] theorem State.mapWarp_pchans (x : State) (g w : Nat) (f : Warp → Warp) : (x.mapWarp g w f).pchans = x.pchans := rfl
@[simp] theorem State.mapWarp_dram (x : State) (g w : Nat) (f : Warp → Warp) : (x.mapWarp g w f).dram = x.dram := rfl
@[simp] theorem State.mapWarp_monitors (x : State) (g w : Nat) (f : Warp → Warp) : (x.mapWarp g w f).monitors = x.monitors := rfl
@[simp] theorem State.mapWarp_idx (x : State) (g w : Nat) (f : Warp → Warp) : (x.mapWarp g w f).idx = x.idx := rfl
@[simp] theorem State.mapWarp_calls (x : State) (g w : Nat) (f : Warp → Warp) : (x.mapWarp g w f).calls = x.calls := rfl
@[simp] theorem State.mapWarp_objs (x : State) (g w : Nat) (f : Warp → Warp) : (x.mapWarp g w f).objs = x.objs := rfl
@[simp] theorem State.mapWarp_objIncs (x : State) (g w : Nat) (f : Warp → Warp) : (x.mapWarp g w f).objIncs = x.objIncs := rfl
@[simp] theorem State.mapWarp_queues (x : State) (g w : Nat) (f : Warp → Warp) : (x.mapWarp g w f).queues = x.queues := rfl
@[simp] theorem State.mapWarp_ctlWrites (x : State) (g w : Nat) (f : Warp → Warp) : (x.mapWarp g w f).ctlWrites = x.ctlWrites := rfl
@[simp] theorem State.mapWarp_recs (x : State) (g w : Nat) (f : Warp → Warp) : (x.mapWarp g w f).recs = x.recs := rfl
@[simp] theorem State.mapWarp_reserved (x : State) (g w : Nat) (f : Warp → Warp) : (x.mapWarp g w f).reserved = x.reserved := rfl
@[simp] theorem State.mapWarp_heat (x : State) (g w : Nat) (f : Warp → Warp) : (x.mapWarp g w f).heat = x.heat := rfl
@[simp] theorem State.mapWarp_cols (x : State) (g w : Nat) (f : Warp → Warp) : (x.mapWarp g w f).cols = x.cols := rfl
@[simp] theorem State.mapWarp_slices (x : State) (g w : Nat) (f : Warp → Warp) : (x.mapWarp g w f).slices = x.slices := rfl
@[simp] theorem State.mapWarp_ecnt (x : State) (g w : Nat) (f : Warp → Warp) : (x.mapWarp g w f).ecnt = x.ecnt := rfl
@[simp] theorem State.mapWarp_swaps (x : State) (g w : Nat) (f : Warp → Warp) : (x.mapWarp g w f).swaps = x.swaps := rfl
@[simp] theorem State.mapWarp_repaired (x : State) (g w : Nat) (f : Warp → Warp) : (x.mapWarp g w f).repaired = x.repaired := rfl
@[simp] theorem State.mapWarp_errors (x : State) (g w : Nat) (f : Warp → Warp) : (x.mapWarp g w f).errors = x.errors := rfl
@[simp] theorem State.mapWarp_memErrors (x : State) (g w : Nat) (f : Warp → Warp) : (x.mapWarp g w f).memErrors = x.memErrors := rfl
@[simp] theorem State.mapWarp_banks (x : State) (g w : Nat) (f : Warp → Warp) : (x.mapWarp g w f).banks = x.banks := rfl
@[simp] theorem State.mapWarp_prot (x : State) (g w : Nat) (f : Warp → Warp) : (x.mapWarp g w f).prot = x.prot := rfl
@[simp] theorem State.mapWarp_tree (x : State) (g w : Nat) (f : Warp → Warp) : (x.mapWarp g w f).tree = x.tree := rfl
@[simp] theorem State.mapWarp_sweeps (x : State) (g w : Nat) (f : Warp → Warp) : (x.mapWarp g w f).sweeps = x.sweeps := rfl
@[simp] theorem State.mapWarp_keys (x : State) (g w : Nat) (f : Warp → Warp) : (x.mapWarp g w f).keys = x.keys := rfl
@[simp] theorem State.mapWarp_lost (x : State) (g w : Nat) (f : Warp → Warp) : (x.mapWarp g w f).lost = x.lost := rfl
@[simp] theorem State.mapWarp_cleared (x : State) (g w : Nat) (f : Warp → Warp) : (x.mapWarp g w f).cleared = x.cleared := rfl
@[simp] theorem State.mapWarp_taken (x : State) (g w : Nat) (f : Warp → Warp) : (x.mapWarp g w f).taken = x.taken := rfl
@[simp] theorem State.mapWarp_dead (x : State) (g w : Nat) (f : Warp → Warp) : (x.mapWarp g w f).dead = x.dead := rfl
@[simp] theorem State.mapWarp_deadLinks (x : State) (g w : Nat) (f : Warp → Warp) : (x.mapWarp g w f).deadLinks = x.deadLinks := rfl
@[simp] theorem State.mapWarp_retraining (x : State) (g w : Nat) (f : Warp → Warp) : (x.mapWarp g w f).retraining = x.retraining := rfl
@[simp] theorem State.mapWarp_peers (x : State) (g w : Nat) (f : Warp → Warp) : (x.mapWarp g w f).peers = x.peers := rfl
@[simp] theorem State.mapWarp_staged (x : State) (g w : Nat) (f : Warp → Warp) : (x.mapWarp g w f).staged = x.staged := rfl
@[simp] theorem State.mapWarp_images (x : State) (g w : Nat) (f : Warp → Warp) : (x.mapWarp g w f).images = x.images := rfl
@[simp] theorem State.mapWarp_firmware (x : State) (g w : Nat) (f : Warp → Warp) : (x.mapWarp g w f).firmware = x.firmware := rfl
@[simp] theorem State.mapWarp_snapshot (x : State) (g w : Nat) (f : Warp → Warp) : (x.mapWarp g w f).snapshot = x.snapshot := rfl
@[simp] theorem State.mapWarp_replies (x : State) (g w : Nat) (f : Warp → Warp) : (x.mapWarp g w f).replies = x.replies := rfl
@[simp] theorem State.mapWarp_hostOut (x : State) (g w : Nat) (f : Warp → Warp) : (x.mapWarp g w f).hostOut = x.hostOut := rfl
@[simp] theorem State.mapWarp_remoteOut (x : State) (g w : Nat) (f : Warp → Warp) : (x.mapWarp g w f).remoteOut = x.remoteOut := rfl
@[simp] theorem State.mapWarp_sent (x : State) (g w : Nat) (f : Warp → Warp) : (x.mapWarp g w f).sent = x.sent := rfl

@[simp] theorem State.fresh_tick (x : State) : (x.fresh).tick = x.tick := rfl
@[simp] theorem State.fresh_mover (x : State) : (x.fresh).mover = x.mover := rfl
@[simp] theorem State.fresh_cur (x : State) : (x.fresh).cur = x.cur := rfl
@[simp] theorem State.fresh_mem (x : State) : (x.fresh).mem = x.mem := rfl
@[simp] theorem State.fresh_stale (x : State) : (x.fresh).stale = x.stale := rfl
@[simp] theorem State.fresh_tables (x : State) : (x.fresh).tables = x.tables := rfl
@[simp] theorem State.fresh_slotIncs (x : State) : (x.fresh).slotIncs = x.slotIncs := rfl
@[simp] theorem State.fresh_asidTable (x : State) : (x.fresh).asidTable = x.asidTable := rfl
@[simp] theorem State.fresh_tlb (x : State) : (x.fresh).tlb = x.tlb := rfl
@[simp] theorem State.fresh_walks (x : State) : (x.fresh).walks = x.walks := rfl
@[simp] theorem State.fresh_icache (x : State) : (x.fresh).icache = x.icache := rfl
@[simp] theorem State.fresh_loops (x : State) : (x.fresh).loops = x.loops := rfl
@[simp] theorem State.fresh_cores (x : State) : (x.fresh).cores = x.cores := rfl
@[simp] theorem State.fresh_l1 (x : State) : (x.fresh).l1 = x.l1 := rfl
@[simp] theorem State.fresh_l2 (x : State) : (x.fresh).l2 = x.l2 := rfl
@[simp] theorem State.fresh_regions (x : State) : (x.fresh).regions = x.regions := rfl
@[simp] theorem State.fresh_hubLines (x : State) : (x.fresh).hubLines = x.hubLines := rfl
@[simp] theorem State.fresh_pchans (x : State) : (x.fresh).pchans = x.pchans := rfl
@[simp] theorem State.fresh_dram (x : State) : (x.fresh).dram = x.dram := rfl
@[simp] theorem State.fresh_monitors (x : State) : (x.fresh).monitors = x.monitors := rfl
@[simp] theorem State.fresh_idx (x : State) : (x.fresh).idx = x.idx := rfl
@[simp] theorem State.fresh_calls (x : State) : (x.fresh).calls = x.calls := rfl
@[simp] theorem State.fresh_objs (x : State) : (x.fresh).objs = x.objs := rfl
@[simp] theorem State.fresh_objIncs (x : State) : (x.fresh).objIncs = x.objIncs := rfl
@[simp] theorem State.fresh_gangs (x : State) : (x.fresh).gangs = x.gangs := rfl
@[simp] theorem State.fresh_queues (x : State) : (x.fresh).queues = x.queues := rfl
@[simp] theorem State.fresh_ctlWrites (x : State) : (x.fresh).ctlWrites = x.ctlWrites := rfl
@[simp] theorem State.fresh_recs (x : State) : (x.fresh).recs = x.recs := rfl
@[simp] theorem State.fresh_reserved (x : State) : (x.fresh).reserved = x.reserved := rfl
@[simp] theorem State.fresh_heat (x : State) : (x.fresh).heat = x.heat := rfl
@[simp] theorem State.fresh_cols (x : State) : (x.fresh).cols = x.cols := rfl
@[simp] theorem State.fresh_slices (x : State) : (x.fresh).slices = x.slices := rfl
@[simp] theorem State.fresh_ecnt (x : State) : (x.fresh).ecnt = x.ecnt := rfl
@[simp] theorem State.fresh_swaps (x : State) : (x.fresh).swaps = x.swaps := rfl
@[simp] theorem State.fresh_repaired (x : State) : (x.fresh).repaired = x.repaired := rfl
@[simp] theorem State.fresh_errors (x : State) : (x.fresh).errors = x.errors := rfl
@[simp] theorem State.fresh_memErrors (x : State) : (x.fresh).memErrors = x.memErrors := rfl
@[simp] theorem State.fresh_banks (x : State) : (x.fresh).banks = x.banks := rfl
@[simp] theorem State.fresh_prot (x : State) : (x.fresh).prot = x.prot := rfl
@[simp] theorem State.fresh_tree (x : State) : (x.fresh).tree = x.tree := rfl
@[simp] theorem State.fresh_sweeps (x : State) : (x.fresh).sweeps = x.sweeps := rfl
@[simp] theorem State.fresh_keys (x : State) : (x.fresh).keys = x.keys := rfl
@[simp] theorem State.fresh_lost (x : State) : (x.fresh).lost = x.lost := rfl
@[simp] theorem State.fresh_cleared (x : State) : (x.fresh).cleared = x.cleared := rfl
@[simp] theorem State.fresh_taken (x : State) : (x.fresh).taken = x.taken := rfl
@[simp] theorem State.fresh_dead (x : State) : (x.fresh).dead = x.dead := rfl
@[simp] theorem State.fresh_deadLinks (x : State) : (x.fresh).deadLinks = x.deadLinks := rfl
@[simp] theorem State.fresh_retraining (x : State) : (x.fresh).retraining = x.retraining := rfl
@[simp] theorem State.fresh_peers (x : State) : (x.fresh).peers = x.peers := rfl
@[simp] theorem State.fresh_staged (x : State) : (x.fresh).staged = x.staged := rfl
@[simp] theorem State.fresh_images (x : State) : (x.fresh).images = x.images := rfl
@[simp] theorem State.fresh_firmware (x : State) : (x.fresh).firmware = x.firmware := rfl
@[simp] theorem State.fresh_snapshot (x : State) : (x.fresh).snapshot = x.snapshot := rfl
@[simp] theorem State.fresh_replies (x : State) : (x.fresh).replies = x.replies := rfl
@[simp] theorem State.fresh_hostOut (x : State) : (x.fresh).hostOut = x.hostOut := rfl
@[simp] theorem State.fresh_remoteOut (x : State) : (x.fresh).remoteOut = x.remoteOut := rfl
@[simp] theorem State.fresh_sent (x : State) : (x.fresh).sent = x.sent := rfl

@[simp] theorem State.setCore_tick (x : State) (c : CoreSt) : (x.setCore c).tick = x.tick := rfl
@[simp] theorem State.setCore_mover (x : State) (c : CoreSt) : (x.setCore c).mover = x.mover := rfl
@[simp] theorem State.setCore_cur (x : State) (c : CoreSt) : (x.setCore c).cur = x.cur := rfl
@[simp] theorem State.setCore_nextId (x : State) (c : CoreSt) : (x.setCore c).nextId = x.nextId := rfl
@[simp] theorem State.setCore_mem (x : State) (c : CoreSt) : (x.setCore c).mem = x.mem := rfl
@[simp] theorem State.setCore_stale (x : State) (c : CoreSt) : (x.setCore c).stale = x.stale := rfl
@[simp] theorem State.setCore_tables (x : State) (c : CoreSt) : (x.setCore c).tables = x.tables := rfl
@[simp] theorem State.setCore_slotIncs (x : State) (c : CoreSt) : (x.setCore c).slotIncs = x.slotIncs := rfl
@[simp] theorem State.setCore_asidTable (x : State) (c : CoreSt) : (x.setCore c).asidTable = x.asidTable := rfl
@[simp] theorem State.setCore_tlb (x : State) (c : CoreSt) : (x.setCore c).tlb = x.tlb := rfl
@[simp] theorem State.setCore_walks (x : State) (c : CoreSt) : (x.setCore c).walks = x.walks := rfl
@[simp] theorem State.setCore_icache (x : State) (c : CoreSt) : (x.setCore c).icache = x.icache := rfl
@[simp] theorem State.setCore_loops (x : State) (c : CoreSt) : (x.setCore c).loops = x.loops := rfl
@[simp] theorem State.setCore_l1 (x : State) (c : CoreSt) : (x.setCore c).l1 = x.l1 := rfl
@[simp] theorem State.setCore_l2 (x : State) (c : CoreSt) : (x.setCore c).l2 = x.l2 := rfl
@[simp] theorem State.setCore_regions (x : State) (c : CoreSt) : (x.setCore c).regions = x.regions := rfl
@[simp] theorem State.setCore_hubLines (x : State) (c : CoreSt) : (x.setCore c).hubLines = x.hubLines := rfl
@[simp] theorem State.setCore_pchans (x : State) (c : CoreSt) : (x.setCore c).pchans = x.pchans := rfl
@[simp] theorem State.setCore_dram (x : State) (c : CoreSt) : (x.setCore c).dram = x.dram := rfl
@[simp] theorem State.setCore_monitors (x : State) (c : CoreSt) : (x.setCore c).monitors = x.monitors := rfl
@[simp] theorem State.setCore_idx (x : State) (c : CoreSt) : (x.setCore c).idx = x.idx := rfl
@[simp] theorem State.setCore_calls (x : State) (c : CoreSt) : (x.setCore c).calls = x.calls := rfl
@[simp] theorem State.setCore_objs (x : State) (c : CoreSt) : (x.setCore c).objs = x.objs := rfl
@[simp] theorem State.setCore_objIncs (x : State) (c : CoreSt) : (x.setCore c).objIncs = x.objIncs := rfl
@[simp] theorem State.setCore_gangs (x : State) (c : CoreSt) : (x.setCore c).gangs = x.gangs := rfl
@[simp] theorem State.setCore_queues (x : State) (c : CoreSt) : (x.setCore c).queues = x.queues := rfl
@[simp] theorem State.setCore_ctlWrites (x : State) (c : CoreSt) : (x.setCore c).ctlWrites = x.ctlWrites := rfl
@[simp] theorem State.setCore_recs (x : State) (c : CoreSt) : (x.setCore c).recs = x.recs := rfl
@[simp] theorem State.setCore_reserved (x : State) (c : CoreSt) : (x.setCore c).reserved = x.reserved := rfl
@[simp] theorem State.setCore_heat (x : State) (c : CoreSt) : (x.setCore c).heat = x.heat := rfl
@[simp] theorem State.setCore_cols (x : State) (c : CoreSt) : (x.setCore c).cols = x.cols := rfl
@[simp] theorem State.setCore_slices (x : State) (c : CoreSt) : (x.setCore c).slices = x.slices := rfl
@[simp] theorem State.setCore_ecnt (x : State) (c : CoreSt) : (x.setCore c).ecnt = x.ecnt := rfl
@[simp] theorem State.setCore_swaps (x : State) (c : CoreSt) : (x.setCore c).swaps = x.swaps := rfl
@[simp] theorem State.setCore_repaired (x : State) (c : CoreSt) : (x.setCore c).repaired = x.repaired := rfl
@[simp] theorem State.setCore_errors (x : State) (c : CoreSt) : (x.setCore c).errors = x.errors := rfl
@[simp] theorem State.setCore_memErrors (x : State) (c : CoreSt) : (x.setCore c).memErrors = x.memErrors := rfl
@[simp] theorem State.setCore_banks (x : State) (c : CoreSt) : (x.setCore c).banks = x.banks := rfl
@[simp] theorem State.setCore_prot (x : State) (c : CoreSt) : (x.setCore c).prot = x.prot := rfl
@[simp] theorem State.setCore_tree (x : State) (c : CoreSt) : (x.setCore c).tree = x.tree := rfl
@[simp] theorem State.setCore_sweeps (x : State) (c : CoreSt) : (x.setCore c).sweeps = x.sweeps := rfl
@[simp] theorem State.setCore_keys (x : State) (c : CoreSt) : (x.setCore c).keys = x.keys := rfl
@[simp] theorem State.setCore_lost (x : State) (c : CoreSt) : (x.setCore c).lost = x.lost := rfl
@[simp] theorem State.setCore_cleared (x : State) (c : CoreSt) : (x.setCore c).cleared = x.cleared := rfl
@[simp] theorem State.setCore_taken (x : State) (c : CoreSt) : (x.setCore c).taken = x.taken := rfl
@[simp] theorem State.setCore_dead (x : State) (c : CoreSt) : (x.setCore c).dead = x.dead := rfl
@[simp] theorem State.setCore_deadLinks (x : State) (c : CoreSt) : (x.setCore c).deadLinks = x.deadLinks := rfl
@[simp] theorem State.setCore_retraining (x : State) (c : CoreSt) : (x.setCore c).retraining = x.retraining := rfl
@[simp] theorem State.setCore_peers (x : State) (c : CoreSt) : (x.setCore c).peers = x.peers := rfl
@[simp] theorem State.setCore_staged (x : State) (c : CoreSt) : (x.setCore c).staged = x.staged := rfl
@[simp] theorem State.setCore_images (x : State) (c : CoreSt) : (x.setCore c).images = x.images := rfl
@[simp] theorem State.setCore_firmware (x : State) (c : CoreSt) : (x.setCore c).firmware = x.firmware := rfl
@[simp] theorem State.setCore_snapshot (x : State) (c : CoreSt) : (x.setCore c).snapshot = x.snapshot := rfl
@[simp] theorem State.setCore_replies (x : State) (c : CoreSt) : (x.setCore c).replies = x.replies := rfl
@[simp] theorem State.setCore_hostOut (x : State) (c : CoreSt) : (x.setCore c).hostOut = x.hostOut := rfl
@[simp] theorem State.setCore_remoteOut (x : State) (c : CoreSt) : (x.setCore c).remoteOut = x.remoteOut := rfl
@[simp] theorem State.setCore_sent (x : State) (c : CoreSt) : (x.setCore c).sent = x.sent := rfl

/-! Fields of a gang after a change of one warp. -/

@[simp] theorem Gang.mapWarp_asid (x : Gang) (w : Nat) (f : Warp → Warp) : (x.mapWarp w f).asid = x.asid := rfl
@[simp] theorem Gang.mapWarp_region (x : Gang) (w : Nat) (f : Warp → Warp) : (x.mapWarp w f).region = x.region := rfl
@[simp] theorem Gang.mapWarp_regid (x : Gang) (w : Nat) (f : Warp → Warp) : (x.mapWarp w f).regid = x.regid := rfl
@[simp] theorem Gang.mapWarp_prio (x : Gang) (w : Nat) (f : Warp → Warp) : (x.mapWarp w f).prio = x.prio := rfl
@[simp] theorem Gang.mapWarp_queue (x : Gang) (w : Nat) (f : Warp → Warp) : (x.mapWarp w f).queue = x.queue := rfl
@[simp] theorem Gang.mapWarp_recIdx (x : Gang) (w : Nat) (f : Warp → Warp) : (x.mapWarp w f).recIdx = x.recIdx := rfl
@[simp] theorem Gang.mapWarp_gangid (x : Gang) (w : Nat) (f : Warp → Warp) : (x.mapWarp w f).gangid = x.gangid := rfl
@[simp] theorem Gang.mapWarp_launch (x : Gang) (w : Nat) (f : Warp → Warp) : (x.mapWarp w f).launch = x.launch := rfl
@[simp] theorem Gang.mapWarp_headAt (x : Gang) (w : Nat) (f : Warp → Warp) : (x.mapWarp w f).headAt = x.headAt := rfl
@[simp] theorem Gang.mapWarp_opened (x : Gang) (w : Nat) (f : Warp → Warp) : (x.mapWarp w f).opened = x.opened := rfl
@[simp] theorem Gang.mapWarp_phase (x : Gang) (w : Nat) (f : Warp → Warp) : (x.mapWarp w f).phase = x.phase := rfl
@[simp] theorem Gang.mapWarp_place (x : Gang) (w : Nat) (f : Warp → Warp) : (x.mapWarp w f).place = x.place := rfl
@[simp] theorem Gang.mapWarp_drainAt (x : Gang) (w : Nat) (f : Warp → Warp) : (x.mapWarp w f).drainAt = x.drainAt := rfl
@[simp] theorem Gang.mapWarp_wgs (x : Gang) (w : Nat) (f : Warp → Warp) : (x.mapWarp w f).wgs = x.wgs := rfl
@[simp] theorem Gang.mapWarp_cmem (x : Gang) (w : Nat) (f : Warp → Warp) : (x.mapWarp w f).cmem = x.cmem := rfl
@[simp] theorem Gang.mapWarp_firn (x : Gang) (w : Nat) (f : Warp → Warp) : (x.mapWarp w f).firn = x.firn := rfl
@[simp] theorem Gang.mapWarp_tiles (x : Gang) (w : Nat) (f : Warp → Warp) : (x.mapWarp w f).tiles = x.tiles := rfl
@[simp] theorem Gang.mapWarp_ops (x : Gang) (w : Nat) (f : Warp → Warp) : (x.mapWarp w f).ops = x.ops := rfl
@[simp] theorem Gang.mapWarp_accs (x : Gang) (w : Nat) (f : Warp → Warp) : (x.mapWarp w f).accs = x.accs := rfl
@[simp] theorem Gang.mapWarp_producer (x : Gang) (w : Nat) (f : Warp → Warp) : (x.mapWarp w f).producer = x.producer := rfl
@[simp] theorem Gang.mapWarp_queues (x : Gang) (w : Nat) (f : Warp → Warp) : (x.mapWarp w f).queues = x.queues := rfl
@[simp] theorem Gang.mapWarp_haltClass (x : Gang) (w : Nat) (f : Warp → Warp) : (x.mapWarp w f).haltClass = x.haltClass := rfl
@[simp] theorem Gang.mapWarp_haltCode (x : Gang) (w : Nat) (f : Warp → Warp) : (x.mapWarp w f).haltCode = x.haltCode := rfl
@[simp] theorem Gang.mapWarp_haltPc (x : Gang) (w : Nat) (f : Warp → Warp) : (x.mapWarp w f).haltPc = x.haltPc := rfl

/-! Fields of a warp after a change of its lanes or new results. -/

@[simp] theorem Warp.mapLanes_wg (x : Warp) (ls : List Nat) (f : Nat → Lane → Lane) : (x.mapLanes ls f).wg = x.wg := rfl
@[simp] theorem Warp.mapLanes_wid (x : Warp) (ls : List Nat) (f : Nat → Lane → Lane) : (x.mapLanes ls f).wid = x.wid := rfl
@[simp] theorem Warp.mapLanes_x (x : Warp) (ls : List Nat) (f : Nat → Lane → Lane) : (x.mapLanes ls f).x = x.x := rfl
@[simp] theorem Warp.mapLanes_sregs (x : Warp) (ls : List Nat) (f : Nat → Lane → Lane) : (x.mapLanes ls f).sregs = x.sregs := rfl
@[simp] theorem Warp.mapLanes_ms (x : Warp) (ls : List Nat) (f : Nat → Lane → Lane) : (x.mapLanes ls f).ms = x.ms := rfl
@[simp] theorem Warp.mapLanes_cych (x : Warp) (ls : List Nat) (f : Nat → Lane → Lane) : (x.mapLanes ls f).cych = x.cych := rfl
@[simp] theorem Warp.mapLanes_sbchk (x : Warp) (ls : List Nat) (f : Nat → Lane → Lane) : (x.mapLanes ls f).sbchk = x.sbchk := rfl
@[simp] theorem Warp.mapLanes_serial (x : Warp) (ls : List Nat) (f : Nat → Lane → Lane) : (x.mapLanes ls f).serial = x.serial := rfl
@[simp] theorem Warp.mapLanes_handler (x : Warp) (ls : List Nat) (f : Nat → Lane → Lane) : (x.mapLanes ls f).handler = x.handler := rfl
@[simp] theorem Warp.mapLanes_slim (x : Warp) (ls : List Nat) (f : Nat → Lane → Lane) : (x.mapLanes ls f).slim = x.slim := rfl
@[simp] theorem Warp.mapLanes_gmiss (x : Warp) (ls : List Nat) (f : Nat → Lane → Lane) : (x.mapLanes ls f).gmiss = x.gmiss := rfl
@[simp] theorem Warp.mapLanes_trapc (x : Warp) (ls : List Nat) (f : Nat → Lane → Lane) : (x.mapLanes ls f).trapc = x.trapc := rfl
@[simp] theorem Warp.mapLanes_trappc (x : Warp) (ls : List Nat) (f : Nat → Lane → Lane) : (x.mapLanes ls f).trappc = x.trappc := rfl
@[simp] theorem Warp.mapLanes_trappcWritten (x : Warp) (ls : List Nat) (f : Nat → Lane → Lane) : (x.mapLanes ls f).trappcWritten = x.trappcWritten := rfl
@[simp] theorem Warp.mapLanes_pend (x : Warp) (ls : List Nat) (f : Nat → Lane → Lane) : (x.mapLanes ls f).pend = x.pend := rfl
@[simp] theorem Warp.mapLanes_issued (x : Warp) (ls : List Nat) (f : Nat → Lane → Lane) : (x.mapLanes ls f).issued = x.issued := rfl
@[simp] theorem Warp.mapLanes_rejoinTab (x : Warp) (ls : List Nat) (f : Nat → Lane → Lane) : (x.mapLanes ls f).rejoinTab = x.rejoinTab := rfl
@[simp] theorem Warp.mapLanes_rejoinOut (x : Warp) (ls : List Nat) (f : Nat → Lane → Lane) : (x.mapLanes ls f).rejoinOut = x.rejoinOut := rfl
@[simp] theorem Warp.mapLanes_cause (x : Warp) (ls : List Nat) (f : Nat → Lane → Lane) : (x.mapLanes ls f).cause = x.cause := rfl
@[simp] theorem Warp.mapLanes_candidate (x : Warp) (ls : List Nat) (f : Nat → Lane → Lane) : (x.mapLanes ls f).candidate = x.candidate := rfl
@[simp] theorem Warp.mapLanes_raised (x : Warp) (ls : List Nat) (f : Nat → Lane → Lane) : (x.mapLanes ls f).raised = x.raised := rfl
@[simp] theorem Warp.mapLanes_lastIssue (x : Warp) (ls : List Nat) (f : Nat → Lane → Lane) : (x.mapLanes ls f).lastIssue = x.lastIssue := rfl
@[simp] theorem Warp.mapLanes_warpSlot (x : Warp) (ls : List Nat) (f : Nat → Lane → Lane) : (x.mapLanes ls f).warpSlot = x.warpSlot := rfl
@[simp] theorem Warp.mapLanes_retired (x : Warp) (ls : List Nat) (f : Nat → Lane → Lane) : (x.mapLanes ls f).retired = x.retired := rfl

@[simp] theorem Warp.mapAll_wg (x : Warp) (f : Nat → Lane → Lane) : (x.mapAll f).wg = x.wg := rfl
@[simp] theorem Warp.mapAll_wid (x : Warp) (f : Nat → Lane → Lane) : (x.mapAll f).wid = x.wid := rfl
@[simp] theorem Warp.mapAll_x (x : Warp) (f : Nat → Lane → Lane) : (x.mapAll f).x = x.x := rfl
@[simp] theorem Warp.mapAll_sregs (x : Warp) (f : Nat → Lane → Lane) : (x.mapAll f).sregs = x.sregs := rfl
@[simp] theorem Warp.mapAll_ms (x : Warp) (f : Nat → Lane → Lane) : (x.mapAll f).ms = x.ms := rfl
@[simp] theorem Warp.mapAll_cych (x : Warp) (f : Nat → Lane → Lane) : (x.mapAll f).cych = x.cych := rfl
@[simp] theorem Warp.mapAll_sbchk (x : Warp) (f : Nat → Lane → Lane) : (x.mapAll f).sbchk = x.sbchk := rfl
@[simp] theorem Warp.mapAll_serial (x : Warp) (f : Nat → Lane → Lane) : (x.mapAll f).serial = x.serial := rfl
@[simp] theorem Warp.mapAll_handler (x : Warp) (f : Nat → Lane → Lane) : (x.mapAll f).handler = x.handler := rfl
@[simp] theorem Warp.mapAll_slim (x : Warp) (f : Nat → Lane → Lane) : (x.mapAll f).slim = x.slim := rfl
@[simp] theorem Warp.mapAll_gmiss (x : Warp) (f : Nat → Lane → Lane) : (x.mapAll f).gmiss = x.gmiss := rfl
@[simp] theorem Warp.mapAll_trapc (x : Warp) (f : Nat → Lane → Lane) : (x.mapAll f).trapc = x.trapc := rfl
@[simp] theorem Warp.mapAll_trappc (x : Warp) (f : Nat → Lane → Lane) : (x.mapAll f).trappc = x.trappc := rfl
@[simp] theorem Warp.mapAll_trappcWritten (x : Warp) (f : Nat → Lane → Lane) : (x.mapAll f).trappcWritten = x.trappcWritten := rfl
@[simp] theorem Warp.mapAll_pend (x : Warp) (f : Nat → Lane → Lane) : (x.mapAll f).pend = x.pend := rfl
@[simp] theorem Warp.mapAll_issued (x : Warp) (f : Nat → Lane → Lane) : (x.mapAll f).issued = x.issued := rfl
@[simp] theorem Warp.mapAll_rejoinTab (x : Warp) (f : Nat → Lane → Lane) : (x.mapAll f).rejoinTab = x.rejoinTab := rfl
@[simp] theorem Warp.mapAll_rejoinOut (x : Warp) (f : Nat → Lane → Lane) : (x.mapAll f).rejoinOut = x.rejoinOut := rfl
@[simp] theorem Warp.mapAll_cause (x : Warp) (f : Nat → Lane → Lane) : (x.mapAll f).cause = x.cause := rfl
@[simp] theorem Warp.mapAll_candidate (x : Warp) (f : Nat → Lane → Lane) : (x.mapAll f).candidate = x.candidate := rfl
@[simp] theorem Warp.mapAll_raised (x : Warp) (f : Nat → Lane → Lane) : (x.mapAll f).raised = x.raised := rfl
@[simp] theorem Warp.mapAll_lastIssue (x : Warp) (f : Nat → Lane → Lane) : (x.mapAll f).lastIssue = x.lastIssue := rfl
@[simp] theorem Warp.mapAll_warpSlot (x : Warp) (f : Nat → Lane → Lane) : (x.mapAll f).warpSlot = x.warpSlot := rfl
@[simp] theorem Warp.mapAll_retired (x : Warp) (f : Nat → Lane → Lane) : (x.mapAll f).retired = x.retired := rfl

@[simp] theorem Warp.post_wg (x : Warp) (now lat : Nat) (os : List Nat) (rs : List (Tgt × DWord)) : (x.post now lat os rs).wg = x.wg := rfl
@[simp] theorem Warp.post_wid (x : Warp) (now lat : Nat) (os : List Nat) (rs : List (Tgt × DWord)) : (x.post now lat os rs).wid = x.wid := rfl
@[simp] theorem Warp.post_x (x : Warp) (now lat : Nat) (os : List Nat) (rs : List (Tgt × DWord)) : (x.post now lat os rs).x = x.x := rfl
@[simp] theorem Warp.post_lanes (x : Warp) (now lat : Nat) (os : List Nat) (rs : List (Tgt × DWord)) : (x.post now lat os rs).lanes = x.lanes := rfl
@[simp] theorem Warp.post_sregs (x : Warp) (now lat : Nat) (os : List Nat) (rs : List (Tgt × DWord)) : (x.post now lat os rs).sregs = x.sregs := rfl
@[simp] theorem Warp.post_ms (x : Warp) (now lat : Nat) (os : List Nat) (rs : List (Tgt × DWord)) : (x.post now lat os rs).ms = x.ms := rfl
@[simp] theorem Warp.post_cych (x : Warp) (now lat : Nat) (os : List Nat) (rs : List (Tgt × DWord)) : (x.post now lat os rs).cych = x.cych := rfl
@[simp] theorem Warp.post_sbchk (x : Warp) (now lat : Nat) (os : List Nat) (rs : List (Tgt × DWord)) : (x.post now lat os rs).sbchk = x.sbchk := rfl
@[simp] theorem Warp.post_serial (x : Warp) (now lat : Nat) (os : List Nat) (rs : List (Tgt × DWord)) : (x.post now lat os rs).serial = x.serial := rfl
@[simp] theorem Warp.post_handler (x : Warp) (now lat : Nat) (os : List Nat) (rs : List (Tgt × DWord)) : (x.post now lat os rs).handler = x.handler := rfl
@[simp] theorem Warp.post_slim (x : Warp) (now lat : Nat) (os : List Nat) (rs : List (Tgt × DWord)) : (x.post now lat os rs).slim = x.slim := rfl
@[simp] theorem Warp.post_gmiss (x : Warp) (now lat : Nat) (os : List Nat) (rs : List (Tgt × DWord)) : (x.post now lat os rs).gmiss = x.gmiss := rfl
@[simp] theorem Warp.post_trapc (x : Warp) (now lat : Nat) (os : List Nat) (rs : List (Tgt × DWord)) : (x.post now lat os rs).trapc = x.trapc := rfl
@[simp] theorem Warp.post_trappc (x : Warp) (now lat : Nat) (os : List Nat) (rs : List (Tgt × DWord)) : (x.post now lat os rs).trappc = x.trappc := rfl
@[simp] theorem Warp.post_trappcWritten (x : Warp) (now lat : Nat) (os : List Nat) (rs : List (Tgt × DWord)) : (x.post now lat os rs).trappcWritten = x.trappcWritten := rfl
@[simp] theorem Warp.post_issued (x : Warp) (now lat : Nat) (os : List Nat) (rs : List (Tgt × DWord)) : (x.post now lat os rs).issued = x.issued := rfl
@[simp] theorem Warp.post_rejoinTab (x : Warp) (now lat : Nat) (os : List Nat) (rs : List (Tgt × DWord)) : (x.post now lat os rs).rejoinTab = x.rejoinTab := rfl
@[simp] theorem Warp.post_rejoinOut (x : Warp) (now lat : Nat) (os : List Nat) (rs : List (Tgt × DWord)) : (x.post now lat os rs).rejoinOut = x.rejoinOut := rfl
@[simp] theorem Warp.post_cause (x : Warp) (now lat : Nat) (os : List Nat) (rs : List (Tgt × DWord)) : (x.post now lat os rs).cause = x.cause := rfl
@[simp] theorem Warp.post_candidate (x : Warp) (now lat : Nat) (os : List Nat) (rs : List (Tgt × DWord)) : (x.post now lat os rs).candidate = x.candidate := rfl
@[simp] theorem Warp.post_raised (x : Warp) (now lat : Nat) (os : List Nat) (rs : List (Tgt × DWord)) : (x.post now lat os rs).raised = x.raised := rfl
@[simp] theorem Warp.post_lastIssue (x : Warp) (now lat : Nat) (os : List Nat) (rs : List (Tgt × DWord)) : (x.post now lat os rs).lastIssue = x.lastIssue := rfl
@[simp] theorem Warp.post_warpSlot (x : Warp) (now lat : Nat) (os : List Nat) (rs : List (Tgt × DWord)) : (x.post now lat os rs).warpSlot = x.warpSlot := rfl
@[simp] theorem Warp.post_retired (x : Warp) (now lat : Nat) (os : List Nat) (rs : List (Tgt × DWord)) : (x.post now lat os rs).retired = x.retired := rfl

/-! Fields of a lane after a change of its fibre. -/

@[simp] theorem Lane.mapFib_slot (x : Lane) (f : Fibre → Fibre) : (x.mapFib f).slot = x.slot := rfl
@[simp] theorem Lane.mapFib_regs (x : Lane) (f : Fibre → Fibre) : (x.mapFib f).regs = x.regs := rfl
@[simp] theorem Lane.mapFib_bank (x : Lane) (f : Fibre → Fibre) : (x.mapFib f).bank = x.bank := rfl
@[simp] theorem Lane.mapFib_latc (x : Lane) (f : Fibre → Fibre) : (x.mapFib f).latc = x.latc := rfl
@[simp] theorem Lane.mapFib_sptr (x : Lane) (f : Fibre → Fibre) : (x.mapFib f).sptr = x.sptr := rfl
@[simp] theorem Lane.mapFib_sptrSeen (x : Lane) (f : Fibre → Fibre) : (x.mapFib f).sptrSeen = x.sptrSeen := rfl
@[simp] theorem Lane.mapFib_trapaux (x : Lane) (f : Fibre → Fibre) : (x.mapFib f).trapaux = x.trapaux := rfl
@[simp] theorem Lane.mapFib_faddr (x : Lane) (f : Fibre → Fibre) : (x.mapFib f).faddr = x.faddr := rfl
@[simp] theorem Lane.mapFib_stack (x : Lane) (f : Fibre → Fibre) : (x.mapFib f).stack = x.stack := rfl

@[simp] theorem Lane.mapFib_fib (x : Lane) (f : Fibre → Fibre) : (x.mapFib f).fib = f x.fib := rfl

/-! Gangs, warps and lanes after a change. -/

@[simp] theorem State.mapGang_length (s : State) (g : Nat) (f : Gang → Gang) :
    (s.mapGang g f).gangs.length = s.gangs.length := by simp [State.mapGang]

theorem State.gang_mapGang_ne (s : State) (f : Gang → Gang) {g h : Nat} (n : h ≠ g) : (s.mapGang g f).gang h = s.gang h := by
  simp [State.mapGang, State.gang, Ne.symm n]

theorem State.gang_mapGang (s : State) (f : Gang → Gang) {g : Nat} (h : g < s.gangs.length) :
    (s.mapGang g f).gang g = f (s.gang g) := by
  simp [State.mapGang, State.gang, h]

theorem State.gang_mapGang_absent (s : State) (f : Gang → Gang) {g : Nat} (h : ¬ g < s.gangs.length) :
    (s.mapGang g f).gang g = s.gang g := by
  simp [State.mapGang, State.gang, Nat.le_of_not_lt h]

theorem State.proj_mapGang {α : Type} (p : Gang → α) (s : State) (f : Gang → Gang) (g h : Nat) (e : ∀ G, p (f G) = p G) :
    p ((s.mapGang g f).gang h) = p (s.gang h) := by
  by_cases n : h = g
  · subst n
    by_cases b : h < s.gangs.length
    · rw [State.gang_mapGang s f b, e]
    · rw [State.gang_mapGang_absent s f b]
  · rw [State.gang_mapGang_ne s f n]

theorem Gang.warp_mapWarp_ne (G : Gang) (f : Warp → Warp) {w v : Nat} (n : v ≠ w) : (G.mapWarp w f).warp v = G.warp v := by
  simp [Gang.mapWarp, Gang.warp, Ne.symm n]

theorem Gang.warp_mapWarp (G : Gang) (f : Warp → Warp) {w : Nat} (h : w < G.warps.length) :
    (G.mapWarp w f).warp w = f (G.warp w) := by
  simp [Gang.mapWarp, Gang.warp, h]

theorem Gang.warp_mapWarp_absent (G : Gang) (f : Warp → Warp) {w : Nat} (h : ¬ w < G.warps.length) :
    (G.mapWarp w f).warp w = G.warp w := by
  simp [Gang.mapWarp, Gang.warp, Nat.le_of_not_lt h]

theorem Gang.proj_mapWarp {α : Type} (p : Warp → α) (G : Gang) (f : Warp → Warp) (w v : Nat) (e : ∀ W, p (f W) = p W) :
    p ((G.mapWarp w f).warp v) = p (G.warp v) := by
  by_cases n : v = w
  · subst n
    by_cases b : v < G.warps.length
    · rw [Gang.warp_mapWarp G f b, e]
    · rw [Gang.warp_mapWarp_absent G f b]
  · rw [Gang.warp_mapWarp_ne G f n]

@[simp] theorem Gang.mapWarp_length (G : Gang) (w : Nat) (f : Warp → Warp) : (G.mapWarp w f).warps.length = G.warps.length := by
  simp [Gang.mapWarp]

theorem State.warp_mapWarp_ne (s : State) (f : Warp → Warp) {g w h v : Nat} (n : h ≠ g ∨ v ≠ w) :
    (s.mapWarp g w f).warp h v = s.warp h v := by
  by_cases m : h = g
  · subst m
    have n : v ≠ w := by simpa using n
    exact State.proj_mapGang (fun G => G.warp v) s _ h h fun G => G.warp_mapWarp_ne f n
  · exact congrArg (fun G => Gang.warp G v) (s.gang_mapGang_ne _ m)

theorem State.warp_mapWarp (s : State) (f : Warp → Warp) {g w : Nat} (h : g < s.gangs.length)
    (k : w < (s.gang g).warps.length) : (s.mapWarp g w f).warp g w = f (s.warp g w) := by
  rw [State.warp, State.mapWarp, s.gang_mapGang _ h, Gang.warp_mapWarp _ _ k]; rfl

/-- A reading of a warp that a change of warps preserves is the same after it, wherever it is taken. -/
theorem State.proj_mapWarp {α : Type} (p : Warp → α) (s : State) (f : Warp → Warp) (g w h v : Nat)
    (e : ∀ W, p (f W) = p W) : p ((s.mapWarp g w f).warp h v) = p (s.warp h v) :=
  State.proj_mapGang (fun G => p (G.warp v)) s _ g h fun G => G.proj_mapWarp p f w v e

@[simp] theorem Warp.mapAll_length (W : Warp) (f : Nat → Lane → Lane) : (W.mapAll f).lanes.length = W.lanes.length := by
  simp [Warp.mapAll]

@[simp] theorem Warp.mapLanes_length (W : Warp) (ls : List Nat) (f : Nat → Lane → Lane) :
    (W.mapLanes ls f).lanes.length = W.lanes.length := by simp [Warp.mapLanes]

theorem Warp.lane_mapAll (W : Warp) (f : Nat → Lane → Lane) {l : Nat} (h : l < W.lanes.length) :
    (W.mapAll f).lane l = f l (W.lane l) := by
  simp [Warp.mapAll, Warp.lane, h]

theorem Warp.lane_mapLanes (W : Warp) (ls : List Nat) (f : Nat → Lane → Lane) {l : Nat} (h : l < W.lanes.length) :
    (W.mapLanes ls f).lane l = if ls.contains l then f l (W.lane l) else W.lane l := by
  simp [Warp.mapLanes, Warp.lane, h]

/-- A reading of a lane that a change of lanes preserves is the same after it. -/
theorem Warp.proj_mapAll {α : Type} (p : Lane → α) (W : Warp) (f : Nat → Lane → Lane) (l : Nat)
    (e : ∀ k L, p (f k L) = p L) : p ((W.mapAll f).lane l) = p (W.lane l) := by
  by_cases h : l < W.lanes.length
  · rw [W.lane_mapAll f h, e]
  · simp [Warp.mapAll, Warp.lane, Nat.le_of_not_lt h]

theorem Warp.proj_mapLanes {α : Type} (p : Lane → α) (W : Warp) (ls : List Nat) (f : Nat → Lane → Lane) (l : Nat)
    (e : ∀ k L, p (f k L) = p L) : p ((W.mapLanes ls f).lane l) = p (W.lane l) := by
  refine W.proj_mapAll p (fun k L => if ls.contains k then f k L else L) l fun k L => ?_
  split
  · exact e k L
  · rfl

end Sys2Proof.Machine
end

