-- ==== Sys2Proof/Laws/Issue.lean ====
section
/-! SUPPORT. What the shared operation `slot` answers: the effect, a fault, a wait, or a bare move; and what moving the
fibres of an issue leaves as it was. -/

namespace Sys2Proof.Machine

/-! The fibres' move changes of each lane only the slot and the fibre's place, repeats and waits. -/

/-- What a lane keeps when its warp's fibres move on. -/
theorem Warp.proj_advance {α : Type} (p : Lane → α) (W : Warp) (i : Instr) (c : Cur) (now l : Nat)
    (e : ∀ L f, f.w = L.fib.w → f.flags = L.fib.flags → f.saved = L.fib.saved → f.inH = L.fib.inH →
      p { L with fib := f } = p L)
    (e' : ∀ L, p { L with slot := .live } = p L) :
    p ((W.advance i c now).lane l) = p (W.lane l) := by
  refine Warp.proj_mapAll p W _ l fun k L => ?_
  split
  · refine e L _ ?_ ?_ ?_ ?_ <;>
    · unfold Fibre.advance
      split
      · split <;> rfl
      · rfl
  · split <;> split <;> first | exact e' L | exact e L _ rfl rfl rfl rfl

@[simp] theorem Warp.advance_regs (W : Warp) (i : Instr) (c : Cur) (now l : Nat) :
    ((W.advance i c now).lane l).regs = (W.lane l).regs := W.proj_advance (·.regs) i c now l (fun _ _ _ _ _ _ => rfl) fun _ => rfl
@[simp] theorem Warp.advance_bank (W : Warp) (i : Instr) (c : Cur) (now l : Nat) :
    ((W.advance i c now).lane l).bank = (W.lane l).bank := W.proj_advance (·.bank) i c now l (fun _ _ _ _ _ _ => rfl) fun _ => rfl
@[simp] theorem Warp.advance_latc (W : Warp) (i : Instr) (c : Cur) (now l : Nat) :
    ((W.advance i c now).lane l).latc = (W.lane l).latc := W.proj_advance (·.latc) i c now l (fun _ _ _ _ _ _ => rfl) fun _ => rfl
@[simp] theorem Warp.advance_sptr (W : Warp) (i : Instr) (c : Cur) (now l : Nat) :
    ((W.advance i c now).lane l).sptr = (W.lane l).sptr := W.proj_advance (·.sptr) i c now l (fun _ _ _ _ _ _ => rfl) fun _ => rfl
@[simp] theorem Warp.advance_sptrSeen (W : Warp) (i : Instr) (c : Cur) (now l : Nat) :
    ((W.advance i c now).lane l).sptrSeen = (W.lane l).sptrSeen :=
  W.proj_advance (·.sptrSeen) i c now l (fun _ _ _ _ _ _ => rfl) fun _ => rfl
@[simp] theorem Warp.advance_trapaux (W : Warp) (i : Instr) (c : Cur) (now l : Nat) :
    ((W.advance i c now).lane l).trapaux = (W.lane l).trapaux :=
  W.proj_advance (·.trapaux) i c now l (fun _ _ _ _ _ _ => rfl) fun _ => rfl
@[simp] theorem Warp.advance_faddr (W : Warp) (i : Instr) (c : Cur) (now l : Nat) :
    ((W.advance i c now).lane l).faddr = (W.lane l).faddr :=
  W.proj_advance (·.faddr) i c now l (fun _ _ _ _ _ _ => rfl) fun _ => rfl
@[simp] theorem Warp.advance_stack (W : Warp) (i : Instr) (c : Cur) (now l : Nat) :
    ((W.advance i c now).lane l).stack = (W.lane l).stack :=
  W.proj_advance (·.stack) i c now l (fun _ _ _ _ _ _ => rfl) fun _ => rfl
@[simp] theorem Warp.advance_w (W : Warp) (i : Instr) (c : Cur) (now l : Nat) :
    ((W.advance i c now).lane l).fib.w = (W.lane l).fib.w :=
  W.proj_advance (·.fib.w) i c now l (fun _ _ h _ _ _ => h) fun _ => rfl
@[simp] theorem Warp.advance_flags (W : Warp) (i : Instr) (c : Cur) (now l : Nat) :
    ((W.advance i c now).lane l).fib.flags = (W.lane l).fib.flags :=
  W.proj_advance (·.fib.flags) i c now l (fun _ _ _ h _ _ => h) fun _ => rfl
@[simp] theorem Warp.advance_saved (W : Warp) (i : Instr) (c : Cur) (now l : Nat) :
    ((W.advance i c now).lane l).fib.saved = (W.lane l).fib.saved :=
  W.proj_advance (·.fib.saved) i c now l (fun _ _ _ _ h _ => h) fun _ => rfl

@[simp] theorem Warp.advance_loc (W : Warp) (i : Instr) (c : Cur) (now l n : Nat) :
    (W.advance i c now).loc l n = W.loc l n := by
  simp only [Warp.loc, Warp.advance_w]; rfl

@[simp] theorem Warp.advance_get (W : Warp) (i : Instr) (c : Cur) (now l n : Nat) :
    (W.advance i c now).get l n = W.get l n := by
  simp only [Warp.get, Warp.advance_loc, Warp.advance_regs, Warp.advance_bank]

/-- The warp after an issue's move agrees with the warp before it wherever a reading keeps to what the move keeps. -/
theorem State.proj_advance {α : Type} (p : Warp → α) (s : State) (i : Instr) (c : Cur) (g w : Nat)
    (e : ∀ W now, p (W.advance i c now) = p W) : p ((s.advance i c).warp g w) = p (s.warp g w) :=
  State.proj_mapWarp p s _ c.gang c.warp g w fun W => e W _

@[simp] theorem State.advance_get (s : State) (i : Instr) (c : Cur) (g w l n : Nat) :
    ((s.advance i c).warp g w).get l n = (s.warp g w).get l n :=
  s.proj_advance (·.get l n) i c g w fun W now => W.advance_get i c now l n
@[simp] theorem State.advance_put (s : State) (i : Instr) (c : Cur) (g w l n : Nat) (v : Word) :
    ((s.advance i c).warp g w).put l n v = (s.warp g w).put l n v :=
  s.proj_advance (·.put l n v) i c g w fun W now => by simp [Warp.put]
@[simp] theorem State.advance_loc (s : State) (i : Instr) (c : Cur) (g w l n : Nat) :
    ((s.advance i c).warp g w).loc l n = (s.warp g w).loc l n :=
  s.proj_advance (·.loc l n) i c g w fun W now => W.advance_loc i c now l n
@[simp] theorem State.advance_s (s : State) (i : Instr) (c : Cur) (g w n : Nat) :
    ((s.advance i c).warp g w).s n = (s.warp g w).s n :=
  s.proj_advance (·.s n) i c g w fun _ _ => rfl
@[simp] theorem State.advance_flags (s : State) (i : Instr) (c : Cur) (g w l : Nat) :
    (((s.advance i c).warp g w).lane l).fib.flags = ((s.warp g w).lane l).fib.flags :=
  s.proj_advance (fun W => (W.lane l).fib.flags) i c g w fun W now => W.advance_flags i c now l
@[simp] theorem State.advance_w (s : State) (i : Instr) (c : Cur) (g w l : Nat) :
    (((s.advance i c).warp g w).lane l).fib.w = ((s.warp g w).lane l).fib.w :=
  s.proj_advance (fun W => (W.lane l).fib.w) i c g w fun W now => W.advance_w i c now l
@[simp] theorem State.advance_stack (s : State) (i : Instr) (c : Cur) (g w l : Nat) :
    (((s.advance i c).warp g w).lane l).stack = ((s.warp g w).lane l).stack :=
  s.proj_advance (fun W => (W.lane l).stack) i c g w fun W now => W.advance_stack i c now l
@[simp] theorem State.advance_sptr (s : State) (i : Instr) (c : Cur) (g w l : Nat) :
    (((s.advance i c).warp g w).lane l).sptr = ((s.warp g w).lane l).sptr :=
  s.proj_advance (fun W => (W.lane l).sptr) i c g w fun W now => W.advance_sptr i c now l

/-- Whatever a reading of a gang takes from beyond its lanes is as before. -/
theorem State.proj_gang_advance {α : Type} (p : Gang → α) (s : State) (i : Instr) (c : Cur) (g : Nat)
    (e : ∀ G now, p (Gang.mapWarp G c.warp fun W => W.advance i c now) = p G) :
    p ((s.advance i c).gang g) = p (s.gang g) :=
  State.proj_mapGang p s _ c.gang g fun G => e G _

@[simp] theorem State.advance_coreOf (s : State) (i : Instr) (c : Cur) (g w : Nat) :
    (s.advance i c).coreOf g w = s.coreOf g w := by
  unfold State.coreOf Gang.coreOf
  rw [s.proj_gang_advance (fun G => G.place.id) i c g fun _ _ => rfl, s.proj_advance (·.wg) i c g w fun _ _ => rfl]

@[simp] theorem State.advance_now (s : State) (i : Instr) (c : Cur) (g w : Nat) : (s.advance i c).now g w = s.now g w := by
  simp only [State.now, State.advance_coreOf]; rfl

/-! Every other reading of the machine, its gangs and their warps is as before. -/

@[simp] theorem State.advance_tick (s : State) (i : Instr) (c : Cur) : (s.advance i c).tick = s.tick := rfl
@[simp] theorem State.advance_mover (s : State) (i : Instr) (c : Cur) : (s.advance i c).mover = s.mover := rfl
@[simp] theorem State.advance_cur (s : State) (i : Instr) (c : Cur) : (s.advance i c).cur = s.cur := rfl
@[simp] theorem State.advance_nextId (s : State) (i : Instr) (c : Cur) : (s.advance i c).nextId = s.nextId := rfl
@[simp] theorem State.advance_mem (s : State) (i : Instr) (c : Cur) : (s.advance i c).mem = s.mem := rfl
@[simp] theorem State.advance_stale (s : State) (i : Instr) (c : Cur) : (s.advance i c).stale = s.stale := rfl
@[simp] theorem State.advance_tables (s : State) (i : Instr) (c : Cur) : (s.advance i c).tables = s.tables := rfl
@[simp] theorem State.advance_slotIncs (s : State) (i : Instr) (c : Cur) : (s.advance i c).slotIncs = s.slotIncs := rfl
@[simp] theorem State.advance_asidTable (s : State) (i : Instr) (c : Cur) : (s.advance i c).asidTable = s.asidTable := rfl
@[simp] theorem State.advance_tlb (s : State) (i : Instr) (c : Cur) : (s.advance i c).tlb = s.tlb := rfl
@[simp] theorem State.advance_walks (s : State) (i : Instr) (c : Cur) : (s.advance i c).walks = s.walks := rfl
@[simp] theorem State.advance_icache (s : State) (i : Instr) (c : Cur) : (s.advance i c).icache = s.icache := rfl
@[simp] theorem State.advance_loops (s : State) (i : Instr) (c : Cur) : (s.advance i c).loops = s.loops := rfl
@[simp] theorem State.advance_cores (s : State) (i : Instr) (c : Cur) : (s.advance i c).cores = s.cores := rfl
@[simp] theorem State.advance_l1 (s : State) (i : Instr) (c : Cur) : (s.advance i c).l1 = s.l1 := rfl
@[simp] theorem State.advance_l2 (s : State) (i : Instr) (c : Cur) : (s.advance i c).l2 = s.l2 := rfl
@[simp] theorem State.advance_regions (s : State) (i : Instr) (c : Cur) : (s.advance i c).regions = s.regions := rfl
@[simp] theorem State.advance_hubLines (s : State) (i : Instr) (c : Cur) : (s.advance i c).hubLines = s.hubLines := rfl
@[simp] theorem State.advance_pchans (s : State) (i : Instr) (c : Cur) : (s.advance i c).pchans = s.pchans := rfl
@[simp] theorem State.advance_dram (s : State) (i : Instr) (c : Cur) : (s.advance i c).dram = s.dram := rfl
@[simp] theorem State.advance_monitors (s : State) (i : Instr) (c : Cur) : (s.advance i c).monitors = s.monitors := rfl
@[simp] theorem State.advance_idx (s : State) (i : Instr) (c : Cur) : (s.advance i c).idx = s.idx := rfl
@[simp] theorem State.advance_calls (s : State) (i : Instr) (c : Cur) : (s.advance i c).calls = s.calls := rfl
@[simp] theorem State.advance_objs (s : State) (i : Instr) (c : Cur) : (s.advance i c).objs = s.objs := rfl
@[simp] theorem State.advance_objIncs (s : State) (i : Instr) (c : Cur) : (s.advance i c).objIncs = s.objIncs := rfl
@[simp] theorem State.advance_queues (s : State) (i : Instr) (c : Cur) : (s.advance i c).queues = s.queues := rfl
@[simp] theorem State.advance_ctlWrites (s : State) (i : Instr) (c : Cur) : (s.advance i c).ctlWrites = s.ctlWrites := rfl
@[simp] theorem State.advance_recs (s : State) (i : Instr) (c : Cur) : (s.advance i c).recs = s.recs := rfl
@[simp] theorem State.advance_reserved (s : State) (i : Instr) (c : Cur) : (s.advance i c).reserved = s.reserved := rfl
@[simp] theorem State.advance_heat (s : State) (i : Instr) (c : Cur) : (s.advance i c).heat = s.heat := rfl
@[simp] theorem State.advance_cols (s : State) (i : Instr) (c : Cur) : (s.advance i c).cols = s.cols := rfl
@[simp] theorem State.advance_slices (s : State) (i : Instr) (c : Cur) : (s.advance i c).slices = s.slices := rfl
@[simp] theorem State.advance_ecnt (s : State) (i : Instr) (c : Cur) : (s.advance i c).ecnt = s.ecnt := rfl
@[simp] theorem State.advance_swaps (s : State) (i : Instr) (c : Cur) : (s.advance i c).swaps = s.swaps := rfl
@[simp] theorem State.advance_repaired (s : State) (i : Instr) (c : Cur) : (s.advance i c).repaired = s.repaired := rfl
@[simp] theorem State.advance_errors (s : State) (i : Instr) (c : Cur) : (s.advance i c).errors = s.errors := rfl
@[simp] theorem State.advance_memErrors (s : State) (i : Instr) (c : Cur) : (s.advance i c).memErrors = s.memErrors := rfl
@[simp] theorem State.advance_banks (s : State) (i : Instr) (c : Cur) : (s.advance i c).banks = s.banks := rfl
@[simp] theorem State.advance_prot (s : State) (i : Instr) (c : Cur) : (s.advance i c).prot = s.prot := rfl
@[simp] theorem State.advance_tree (s : State) (i : Instr) (c : Cur) : (s.advance i c).tree = s.tree := rfl
@[simp] theorem State.advance_sweeps (s : State) (i : Instr) (c : Cur) : (s.advance i c).sweeps = s.sweeps := rfl
@[simp] theorem State.advance_keys (s : State) (i : Instr) (c : Cur) : (s.advance i c).keys = s.keys := rfl
@[simp] theorem State.advance_lost (s : State) (i : Instr) (c : Cur) : (s.advance i c).lost = s.lost := rfl
@[simp] theorem State.advance_cleared (s : State) (i : Instr) (c : Cur) : (s.advance i c).cleared = s.cleared := rfl
@[simp] theorem State.advance_taken (s : State) (i : Instr) (c : Cur) : (s.advance i c).taken = s.taken := rfl
@[simp] theorem State.advance_dead (s : State) (i : Instr) (c : Cur) : (s.advance i c).dead = s.dead := rfl
@[simp] theorem State.advance_deadLinks (s : State) (i : Instr) (c : Cur) : (s.advance i c).deadLinks = s.deadLinks := rfl
@[simp] theorem State.advance_retraining (s : State) (i : Instr) (c : Cur) : (s.advance i c).retraining = s.retraining := rfl
@[simp] theorem State.advance_peers (s : State) (i : Instr) (c : Cur) : (s.advance i c).peers = s.peers := rfl
@[simp] theorem State.advance_staged (s : State) (i : Instr) (c : Cur) : (s.advance i c).staged = s.staged := rfl
@[simp] theorem State.advance_images (s : State) (i : Instr) (c : Cur) : (s.advance i c).images = s.images := rfl
@[simp] theorem State.advance_firmware (s : State) (i : Instr) (c : Cur) : (s.advance i c).firmware = s.firmware := rfl
@[simp] theorem State.advance_snapshot (s : State) (i : Instr) (c : Cur) : (s.advance i c).snapshot = s.snapshot := rfl
@[simp] theorem State.advance_replies (s : State) (i : Instr) (c : Cur) : (s.advance i c).replies = s.replies := rfl
@[simp] theorem State.advance_hostOut (s : State) (i : Instr) (c : Cur) : (s.advance i c).hostOut = s.hostOut := rfl
@[simp] theorem State.advance_remoteOut (s : State) (i : Instr) (c : Cur) : (s.advance i c).remoteOut = s.remoteOut := rfl
@[simp] theorem State.advance_sent (s : State) (i : Instr) (c : Cur) : (s.advance i c).sent = s.sent := rfl

@[simp] theorem State.advance_gang_asid (s : State) (i : Instr) (c : Cur) (g : Nat) :
    ((s.advance i c).gang g).asid = (s.gang g).asid := s.proj_gang_advance (·.asid) i c g fun _ _ => rfl
@[simp] theorem State.advance_gang_region (s : State) (i : Instr) (c : Cur) (g : Nat) :
    ((s.advance i c).gang g).region = (s.gang g).region := s.proj_gang_advance (·.region) i c g fun _ _ => rfl
@[simp] theorem State.advance_gang_regid (s : State) (i : Instr) (c : Cur) (g : Nat) :
    ((s.advance i c).gang g).regid = (s.gang g).regid := s.proj_gang_advance (·.regid) i c g fun _ _ => rfl
@[simp] theorem State.advance_gang_prio (s : State) (i : Instr) (c : Cur) (g : Nat) :
    ((s.advance i c).gang g).prio = (s.gang g).prio := s.proj_gang_advance (·.prio) i c g fun _ _ => rfl
@[simp] theorem State.advance_gang_queue (s : State) (i : Instr) (c : Cur) (g : Nat) :
    ((s.advance i c).gang g).queue = (s.gang g).queue := s.proj_gang_advance (·.queue) i c g fun _ _ => rfl
@[simp] theorem State.advance_gang_recIdx (s : State) (i : Instr) (c : Cur) (g : Nat) :
    ((s.advance i c).gang g).recIdx = (s.gang g).recIdx := s.proj_gang_advance (·.recIdx) i c g fun _ _ => rfl
@[simp] theorem State.advance_gang_gangid (s : State) (i : Instr) (c : Cur) (g : Nat) :
    ((s.advance i c).gang g).gangid = (s.gang g).gangid := s.proj_gang_advance (·.gangid) i c g fun _ _ => rfl
@[simp] theorem State.advance_gang_launch (s : State) (i : Instr) (c : Cur) (g : Nat) :
    ((s.advance i c).gang g).launch = (s.gang g).launch := s.proj_gang_advance (·.launch) i c g fun _ _ => rfl
@[simp] theorem State.advance_gang_headAt (s : State) (i : Instr) (c : Cur) (g : Nat) :
    ((s.advance i c).gang g).headAt = (s.gang g).headAt := s.proj_gang_advance (·.headAt) i c g fun _ _ => rfl
@[simp] theorem State.advance_gang_opened (s : State) (i : Instr) (c : Cur) (g : Nat) :
    ((s.advance i c).gang g).opened = (s.gang g).opened := s.proj_gang_advance (·.opened) i c g fun _ _ => rfl
@[simp] theorem State.advance_gang_phase (s : State) (i : Instr) (c : Cur) (g : Nat) :
    ((s.advance i c).gang g).phase = (s.gang g).phase := s.proj_gang_advance (·.phase) i c g fun _ _ => rfl
@[simp] theorem State.advance_gang_place (s : State) (i : Instr) (c : Cur) (g : Nat) :
    ((s.advance i c).gang g).place = (s.gang g).place := s.proj_gang_advance (·.place) i c g fun _ _ => rfl
@[simp] theorem State.advance_gang_drainAt (s : State) (i : Instr) (c : Cur) (g : Nat) :
    ((s.advance i c).gang g).drainAt = (s.gang g).drainAt := s.proj_gang_advance (·.drainAt) i c g fun _ _ => rfl
@[simp] theorem State.advance_gang_wgs (s : State) (i : Instr) (c : Cur) (g : Nat) :
    ((s.advance i c).gang g).wgs = (s.gang g).wgs := s.proj_gang_advance (·.wgs) i c g fun _ _ => rfl
@[simp] theorem State.advance_gang_cmem (s : State) (i : Instr) (c : Cur) (g : Nat) :
    ((s.advance i c).gang g).cmem = (s.gang g).cmem := s.proj_gang_advance (·.cmem) i c g fun _ _ => rfl
@[simp] theorem State.advance_gang_firn (s : State) (i : Instr) (c : Cur) (g : Nat) :
    ((s.advance i c).gang g).firn = (s.gang g).firn := s.proj_gang_advance (·.firn) i c g fun _ _ => rfl
@[simp] theorem State.advance_gang_tiles (s : State) (i : Instr) (c : Cur) (g : Nat) :
    ((s.advance i c).gang g).tiles = (s.gang g).tiles := s.proj_gang_advance (·.tiles) i c g fun _ _ => rfl
@[simp] theorem State.advance_gang_ops (s : State) (i : Instr) (c : Cur) (g : Nat) :
    ((s.advance i c).gang g).ops = (s.gang g).ops := s.proj_gang_advance (·.ops) i c g fun _ _ => rfl
@[simp] theorem State.advance_gang_accs (s : State) (i : Instr) (c : Cur) (g : Nat) :
    ((s.advance i c).gang g).accs = (s.gang g).accs := s.proj_gang_advance (·.accs) i c g fun _ _ => rfl
@[simp] theorem State.advance_gang_producer (s : State) (i : Instr) (c : Cur) (g : Nat) :
    ((s.advance i c).gang g).producer = (s.gang g).producer := s.proj_gang_advance (·.producer) i c g fun _ _ => rfl
@[simp] theorem State.advance_gang_queues (s : State) (i : Instr) (c : Cur) (g : Nat) :
    ((s.advance i c).gang g).queues = (s.gang g).queues := s.proj_gang_advance (·.queues) i c g fun _ _ => rfl
@[simp] theorem State.advance_gang_haltClass (s : State) (i : Instr) (c : Cur) (g : Nat) :
    ((s.advance i c).gang g).haltClass = (s.gang g).haltClass := s.proj_gang_advance (·.haltClass) i c g fun _ _ => rfl
@[simp] theorem State.advance_gang_haltCode (s : State) (i : Instr) (c : Cur) (g : Nat) :
    ((s.advance i c).gang g).haltCode = (s.gang g).haltCode := s.proj_gang_advance (·.haltCode) i c g fun _ _ => rfl
@[simp] theorem State.advance_gang_haltPc (s : State) (i : Instr) (c : Cur) (g : Nat) :
    ((s.advance i c).gang g).haltPc = (s.gang g).haltPc := s.proj_gang_advance (·.haltPc) i c g fun _ _ => rfl

@[simp] theorem State.advance_warp_wg (s : State) (i : Instr) (c : Cur) (g w : Nat) :
    ((s.advance i c).warp g w).wg = (s.warp g w).wg := s.proj_advance (·.wg) i c g w fun _ _ => rfl
@[simp] theorem State.advance_warp_wid (s : State) (i : Instr) (c : Cur) (g w : Nat) :
    ((s.advance i c).warp g w).wid = (s.warp g w).wid := s.proj_advance (·.wid) i c g w fun _ _ => rfl
@[simp] theorem State.advance_warp_x (s : State) (i : Instr) (c : Cur) (g w : Nat) :
    ((s.advance i c).warp g w).x = (s.warp g w).x := s.proj_advance (·.x) i c g w fun _ _ => rfl
@[simp] theorem State.advance_warp_sregs (s : State) (i : Instr) (c : Cur) (g w : Nat) :
    ((s.advance i c).warp g w).sregs = (s.warp g w).sregs := s.proj_advance (·.sregs) i c g w fun _ _ => rfl
@[simp] theorem State.advance_warp_ms (s : State) (i : Instr) (c : Cur) (g w : Nat) :
    ((s.advance i c).warp g w).ms = (s.warp g w).ms := s.proj_advance (·.ms) i c g w fun _ _ => rfl
@[simp] theorem State.advance_warp_cych (s : State) (i : Instr) (c : Cur) (g w : Nat) :
    ((s.advance i c).warp g w).cych = (s.warp g w).cych := s.proj_advance (·.cych) i c g w fun _ _ => rfl
@[simp] theorem State.advance_warp_sbchk (s : State) (i : Instr) (c : Cur) (g w : Nat) :
    ((s.advance i c).warp g w).sbchk = (s.warp g w).sbchk := s.proj_advance (·.sbchk) i c g w fun _ _ => rfl
@[simp] theorem State.advance_warp_serial (s : State) (i : Instr) (c : Cur) (g w : Nat) :
    ((s.advance i c).warp g w).serial = (s.warp g w).serial := s.proj_advance (·.serial) i c g w fun _ _ => rfl
@[simp] theorem State.advance_warp_handler (s : State) (i : Instr) (c : Cur) (g w : Nat) :
    ((s.advance i c).warp g w).handler = (s.warp g w).handler := s.proj_advance (·.handler) i c g w fun _ _ => rfl
@[simp] theorem State.advance_warp_slim (s : State) (i : Instr) (c : Cur) (g w : Nat) :
    ((s.advance i c).warp g w).slim = (s.warp g w).slim := s.proj_advance (·.slim) i c g w fun _ _ => rfl
@[simp] theorem State.advance_warp_gmiss (s : State) (i : Instr) (c : Cur) (g w : Nat) :
    ((s.advance i c).warp g w).gmiss = (s.warp g w).gmiss := s.proj_advance (·.gmiss) i c g w fun _ _ => rfl
@[simp] theorem State.advance_warp_trapc (s : State) (i : Instr) (c : Cur) (g w : Nat) :
    ((s.advance i c).warp g w).trapc = (s.warp g w).trapc := s.proj_advance (·.trapc) i c g w fun _ _ => rfl
@[simp] theorem State.advance_warp_trappc (s : State) (i : Instr) (c : Cur) (g w : Nat) :
    ((s.advance i c).warp g w).trappc = (s.warp g w).trappc := s.proj_advance (·.trappc) i c g w fun _ _ => rfl
@[simp] theorem State.advance_warp_trappcWritten (s : State) (i : Instr) (c : Cur) (g w : Nat) :
    ((s.advance i c).warp g w).trappcWritten = (s.warp g w).trappcWritten := s.proj_advance (·.trappcWritten) i c g w fun _ _ => rfl
@[simp] theorem State.advance_warp_pend (s : State) (i : Instr) (c : Cur) (g w : Nat) :
    ((s.advance i c).warp g w).pend = (s.warp g w).pend := s.proj_advance (·.pend) i c g w fun _ _ => rfl
@[simp] theorem State.advance_warp_issued (s : State) (i : Instr) (c : Cur) (g w : Nat) :
    ((s.advance i c).warp g w).issued = (s.warp g w).issued := s.proj_advance (·.issued) i c g w fun _ _ => rfl
@[simp] theorem State.advance_warp_rejoinTab (s : State) (i : Instr) (c : Cur) (g w : Nat) :
    ((s.advance i c).warp g w).rejoinTab = (s.warp g w).rejoinTab := s.proj_advance (·.rejoinTab) i c g w fun _ _ => rfl
@[simp] theorem State.advance_warp_rejoinOut (s : State) (i : Instr) (c : Cur) (g w : Nat) :
    ((s.advance i c).warp g w).rejoinOut = (s.warp g w).rejoinOut := s.proj_advance (·.rejoinOut) i c g w fun _ _ => rfl
@[simp] theorem State.advance_warp_cause (s : State) (i : Instr) (c : Cur) (g w : Nat) :
    ((s.advance i c).warp g w).cause = (s.warp g w).cause := s.proj_advance (·.cause) i c g w fun _ _ => rfl
@[simp] theorem State.advance_warp_candidate (s : State) (i : Instr) (c : Cur) (g w : Nat) :
    ((s.advance i c).warp g w).candidate = (s.warp g w).candidate := s.proj_advance (·.candidate) i c g w fun _ _ => rfl
@[simp] theorem State.advance_warp_raised (s : State) (i : Instr) (c : Cur) (g w : Nat) :
    ((s.advance i c).warp g w).raised = (s.warp g w).raised := s.proj_advance (·.raised) i c g w fun _ _ => rfl
@[simp] theorem State.advance_warp_lastIssue (s : State) (i : Instr) (c : Cur) (g w : Nat) :
    ((s.advance i c).warp g w).lastIssue = (s.warp g w).lastIssue := s.proj_advance (·.lastIssue) i c g w fun _ _ => rfl
@[simp] theorem State.advance_warp_warpSlot (s : State) (i : Instr) (c : Cur) (g w : Nat) :
    ((s.advance i c).warp g w).warpSlot = (s.warp g w).warpSlot := s.proj_advance (·.warpSlot) i c g w fun _ _ => rfl
@[simp] theorem State.advance_warp_retired (s : State) (i : Instr) (c : Cur) (g w : Nat) :
    ((s.advance i c).warp g w).retired = (s.warp g w).retired := s.proj_advance (·.retired) i c g w fun _ _ => rfl

@[simp] theorem State.advance_coreSt (s : State) (i : Instr) (c : Cur) (core : Nat) :
    (s.advance i c).coreSt core = s.coreSt core := rfl
@[simp] theorem State.gang_warp (s : State) (g w : Nat) : (s.gang g).warp w = s.warp g w := rfl
@[simp] theorem State.advance_newWork (s : State) (i j : Instr) (c : Cur) (as : List Arg) (us : List DWord) :
    (s.advance i c).newWork c j as us = s.newWork c j as us := by simp [State.newWork]
@[simp] theorem State.advance_args (s : State) (i : Instr) (c : Cur) (g w : Nat) (ls : List Nat) (d a b e : Nat → QWord) :
    ((s.advance i c).warp g w).args ls d a b e = (s.warp g w).args ls d a b e := by simp [Warp.args]
@[simp] theorem State.advance_get64 (s : State) (i : Instr) (c : Cur) (g w l n : Nat) :
    ((s.advance i c).warp g w).get64 l n = (s.warp g w).get64 l n := by simp [Warp.get64]
@[simp] theorem State.advance_put64 (s : State) (i : Instr) (c : Cur) (g w l n : Nat) (v : DWord) :
    ((s.advance i c).warp g w).put64 l n v = (s.warp g w).put64 l n v := by simp [Warp.put64]

/-! What `slot` answers. -/

/-- The effect: no fault before it, ISSUE not empty, no wait, and every register in the window. -/
theorem slot_next {i : Instr} {c : Cur} {s t : State} {pre : Cur → State → Option Flt}
    {body : Cur → State → Except Flt State} (h : Issues i c s) (hp : pre c s = none)
    (hb : body c (s.advance i c) = .ok t) : slot i s pre body = .next t := by
  unfold slot
  simp [h.cur, h.early, h.lanes, h.ready, hp, h.window, hb]

/-- A check of the entry before the window fails. -/
theorem slot_pre {i : Instr} {c : Cur} {s : State} {pre : Cur → State → Option Flt}
    {body : Cur → State → Except Flt State} {f : Flt} (h : Issues i c s) (hp : pre c s = some f) :
    slot i s pre body = .next (s.faulted c f) := by
  unfold slot
  simp [h.cur, h.early, h.lanes, h.ready, hp]

/-- A check of the entry after the window fails. -/
theorem slot_fault {i : Instr} {c : Cur} {s : State} {pre : Cur → State → Option Flt}
    {body : Cur → State → Except Flt State} {f : Flt} (h : Issues i c s) (hp : pre c s = none)
    (hb : body c (s.advance i c) = .error f) : slot i s pre body = .next (s.faulted c f) := by
  unfold slot
  simp [h.cur, h.early, h.lanes, h.ready, hp, h.window, hb]

/-- Everything that `slot` can answer while an issue is under way. -/
theorem slot_cases {i : Instr} {c : Cur} {s t : State} {pre : Cur → State → Option Flt}
    {body : Cur → State → Except Flt State} (hc : s.cur = some c) (h : slot i s pre body = .next t) :
    (∃ f, t = s.faulted c f) ∨ t = s.advance i c ∨ t = s ∨ body c (s.advance i c) = .ok t := by
  unfold slot at h
  simp only [hc] at h
  split at h
  · exact .inl ⟨_, (Host.Outcome.next.inj h).symm⟩
  split at h
  · exact .inr (.inl (Host.Outcome.next.inj h).symm)
  split at h
  · exact .inr (.inr (.inl (Host.Outcome.next.inj h).symm))
  split at h
  · exact .inl ⟨_, (Host.Outcome.next.inj h).symm⟩
  split at h
  · exact .inl ⟨_, (Host.Outcome.next.inj h).symm⟩
  split at h
  · exact .inl ⟨_, (Host.Outcome.next.inj h).symm⟩
  · next u e => exact .inr (.inr (.inr (e.trans (congrArg _ (Host.Outcome.next.inj h)))))

theorem lanewise_next {i : Instr} {c : Cur} {s : State} {f : Warp → Nat → List (Tgt × DWord)} (h : Issues i c s) :
    lanewise i s f = .next (s.after i c (latency i)
      (c.issue.flatMap (f ((s.advance i c).warp c.gang c.warp)))) := by
  refine slot_next h rfl ?_
  simp [State.post, State.after, List.flatMap]

theorem uniform_next {i : Instr} {c : Cur} {s : State} {f : Warp → List Nat → List (Tgt × DWord)} (h : Issues i c s) :
    uniform i s f = .next (s.after i c (latency i) (f ((s.advance i c).warp c.gang c.warp) c.issue)) := by
  refine slot_next h rfl ?_
  simp [State.post, State.after]

end Sys2Proof.Machine
end

