-- ==== Sys2Proof/Laws/Memory.lean ====
section
/-! SUPPORT. Laws of memory: what a read gives after a write, and that every memory operation keeps the canonical form. -/

namespace Sys2Proof.Machine

@[simp] theorem Memory.get_nil (a : Nat) : Memory.get [] a = unlisted := (rfl)

@[simp] theorem Memory.wf_nil : Memory.wf [] = true := (rfl)

theorem Memory.wf_cons (k : Nat) (v : Byte) (r : List Host.Cell) :
    Memory.wf ((k, v) :: r) = true ↔ v ≠ unlisted ∧ (∀ c ∈ r.head?, k < c.1) ∧ Memory.wf r = true := by
  rcases r with _ | ⟨⟨l, w⟩, r⟩
  · simp [Memory.wf]
  · simp [Memory.wf, and_assoc]

/-- In canonical memory every later entry lies above the first. -/
theorem Memory.wf_above {k : Nat} {v : Byte} {r : List Host.Cell} (h : Memory.wf ((k, v) :: r) = true) :
    ∀ c ∈ r, k < c.1 := by
  induction r generalizing k v with
  | nil => simp
  | cons x r ih =>
    obtain ⟨l, w⟩ := x
    obtain ⟨_, hl, hw⟩ := (Memory.wf_cons k v _).mp h
    have hkl : k < l := hl (l, w) (by simp)
    intro c hc
    rcases List.mem_cons.mp hc with rfl | hc
    · exact hkl
    · exact hkl.trans (ih hw c hc)

/-- A byte below every listed address reads as an unlisted one. -/
theorem Memory.get_below {r : List Host.Cell} {a : Nat} (h : ∀ c ∈ r, a < c.1) : Memory.get r a = unlisted := by
  induction r with
  | nil => rfl
  | cons x r ih =>
    have hx : a < x.1 := h x (by simp)
    simp only [Memory.get, if_neg (Nat.ne_of_gt hx)]
    exact ih fun c hc => h c (List.mem_cons_of_mem _ hc)

/-- A read of another byte is unchanged by a write, in any memory. -/
theorem Memory.get_put_ne (m : List Host.Cell) {a b : Nat} (v : Byte) (h : b ≠ a) :
    Memory.get (Memory.put m a v) b = Memory.get m b := by
  induction m with
  | nil => by_cases hv : v = unlisted <;> simp [Memory.put, Memory.get, hv, h.symm]
  | cons x m ih =>
    obtain ⟨k, w⟩ := x
    simp only [Memory.put]
    split
    · simp only [Memory.get, ih]
    · split
      · subst k
        split <;> simp [Memory.get, h.symm]
      · split <;> simp [Memory.get, h.symm]

/-- A read of the byte written gives the byte, in canonical memory. -/
theorem Memory.get_put_same {m : List Host.Cell} (a : Nat) (v : Byte) (h : Memory.wf m = true) :
    Memory.get (Memory.put m a v) a = v := by
  induction m with
  | nil => by_cases hv : v = unlisted <;> simp [Memory.put, Memory.get, hv]
  | cons x m ih =>
    obtain ⟨k, w⟩ := x
    have hab := Memory.wf_above h
    obtain ⟨_, _, hw⟩ := (Memory.wf_cons k w m).mp h
    simp only [Memory.put]
    split
    · rename_i hk
      simp only [Memory.get, if_neg (Nat.ne_of_lt hk)]
      exact ih hw
    · split
      · subst k
        split
        · rename_i hv
          rw [Memory.get_below hab, hv]
        · simp [Memory.get]
      · rename_i h1 h2
        split
        · rename_i hv
          have : a < k := by omega
          rw [hv]
          exact Memory.get_below fun c hc => by
            rcases List.mem_cons.mp hc with rfl | hc
            · exact this
            · exact this.trans (hab c hc)
        · simp [Memory.get]

/-- The first address of a memory after a write is the byte's or the first address before. -/
theorem Memory.put_above {m : List Host.Cell} {k a : Nat} (v : Byte) (h : ∀ c ∈ m, k < c.1) (ha : k < a) :
    ∀ c ∈ Memory.put m a v, k < c.1 := by
  induction m with
  | nil => by_cases hv : v = unlisted <;> simp [Memory.put, hv, ha]
  | cons x m ih =>
    obtain ⟨l, w⟩ := x
    have hl : k < l := h (l, w) (by simp)
    have hm : ∀ c ∈ m, k < c.1 := fun c hc => h c (List.mem_cons_of_mem _ hc)
    simp only [Memory.put]
    split
    · intro c hc
      rcases List.mem_cons.mp hc with rfl | hc
      · exact hl
      · exact ih hm c hc
    · have hx : ∀ c ∈ ((l, w) :: m : List Host.Cell), k < c.1 := h
      split <;> split <;> intro c hc
      · exact hm c hc
      · rcases List.mem_cons.mp hc with rfl | hc
        · exact ha
        · exact hm c hc
      · exact hx c hc
      · rcases List.mem_cons.mp hc with rfl | hc
        · exact ha
        · exact hx c hc

theorem Memory.wf_of_above {k : Nat} {v : Byte} {r : List Host.Cell} (hv : v ≠ unlisted) (hr : ∀ c ∈ r, k < c.1)
    (hw : Memory.wf r = true) : Memory.wf ((k, v) :: r) = true :=
  (Memory.wf_cons k v r).mpr ⟨hv, fun c hc => hr c (List.mem_of_mem_head? hc), hw⟩

/-- A write keeps the canonical form. -/
theorem Memory.put_wf {m : List Host.Cell} (a : Nat) (v : Byte) (h : Memory.wf m = true) :
    Memory.wf (Memory.put m a v) = true := by
  induction m with
  | nil => by_cases hv : v = unlisted <;> simp [Memory.put, Memory.wf, hv]
  | cons x m ih =>
    obtain ⟨k, w⟩ := x
    have hab := Memory.wf_above h
    obtain ⟨hkv, _, hw⟩ := (Memory.wf_cons k w m).mp h
    simp only [Memory.put]
    split
    · rename_i hk
      exact Memory.wf_of_above hkv (Memory.put_above v hab hk) (ih hw)
    · split
      · subst k
        split
        · exact hw
        · exact Memory.wf_of_above ‹_› hab hw
      · split
        · exact h
        · refine Memory.wf_of_above ‹_› ?_ h
          intro c hc
          rcases List.mem_cons.mp hc with rfl | hc
          · show a < k
            omega
          · have := hab c hc
            omega

/-- A write of a run of bytes keeps the canonical form. -/
theorem Memory.putBytes_wf {m : List Host.Cell} (a : Nat) (bs : List Byte) (h : Memory.wf m = true) :
    Memory.wf (Memory.putBytes m a bs) = true := by
  induction bs generalizing m a with
  | nil => exact h
  | cons b bs ih => exact ih (a + 1) (Memory.put_wf a b h)

/-- A byte outside the run written is unchanged, in any memory. -/
theorem Memory.get_putBytes_out (m : List Host.Cell) {a b : Nat} (bs : List Byte) (h : b < a ∨ a + bs.length ≤ b) :
    Memory.get (Memory.putBytes m a bs) b = Memory.get m b := by
  induction bs generalizing m a with
  | nil => rfl
  | cons x bs ih =>
    simp only [List.length_cons] at h
    rw [Memory.putBytes, ih _ (by omega), Memory.get_put_ne _ _ (by omega)]

/-- A byte of the run written reads as written, in canonical memory. -/
theorem Memory.get_putBytes_in {m : List Host.Cell} (a : Nat) (bs : List Byte) (k : Nat) (hk : k < bs.length)
    (h : Memory.wf m = true) : Memory.get (Memory.putBytes m a bs) (a + k) = bs[k] := by
  induction bs generalizing m a k with
  | nil => simp at hk
  | cons x bs ih =>
    rcases k with _ | k
    · rw [Memory.putBytes, Memory.get_putBytes_out _ _ (by omega)]
      exact Memory.get_put_same a x h
    · have := ih (a + 1) k (by simpa using hk) (Memory.put_wf a x h)
      rw [Memory.putBytes, show a + (k + 1) = a + 1 + k by omega, this]
      rfl

/-- A write of one byte through a path keeps the canonical form. -/
theorem State.writeCell_wf (s : State) (path : Path) (cell : Nat) (v : Byte) (h : Memory.wf s.mem = true) :
    Memory.wf (s.writeCell path cell v).mem = true := by
  unfold State.writeCell
  dsimp only
  split
  · exact h
  · exact Memory.put_wf cell v h

/-- A write of one byte leaves every other byte alone. -/
theorem State.writeCell_get_ne (s : State) (path : Path) (cell : Nat) (v : Byte) {a : Nat} (h : a ≠ cell) :
    Memory.get (s.writeCell path cell v).mem a = Memory.get s.mem a := by
  unfold State.writeCell
  dsimp only
  split
  · rfl
  · exact Memory.get_put_ne _ _ h

/-- A byte written outside the peer window reads as written, in canonical memory. -/
theorem State.writeCell_get (s : State) (path : Path) (cell : Nat) (v : Byte) (h : Memory.wf s.mem = true) (hp : inPeer cell = false) :
    Memory.get (s.writeCell path cell v).mem cell = v := by
  simp [State.writeCell, hp, Memory.get_put_same cell v h]

/-- What a write of a byte touches: memory, the stale bytes, the monitors, and what has gone out to the peer window (20 R337). -/
theorem State.writeCell_eq (s : State) (path : Path) (cell : Nat) (v : Byte) : ∃ m st ms out,
    s.writeCell path cell v = { s with mem := m, stale := st, monitors := ms, sent := out } := by
  unfold State.writeCell
  dsimp only
  split
  · exact ⟨s.mem, s.stale, _, _, rfl⟩
  · exact ⟨_, _, _, s.sent, rfl⟩

/-- Writes of bytes to cells keep the canonical form. -/
theorem State.writeCells_wf (s : State) (path : Path) (xs : List (Nat × Byte)) (h : Memory.wf s.mem = true) :
    Memory.wf (s.writeCells path xs).mem = true := by
  induction xs generalizing s with
  | nil => exact h
  | cons x xs ih => exact ih _ (s.writeCell_wf path x.1 x.2 h)

/-- A cell that is not written is unchanged. -/
theorem State.writeCells_get (s : State) (path : Path) (xs : List (Nat × Byte)) {a : Nat} (h : ∀ x ∈ xs, x.1 ≠ a) :
    Memory.get (s.writeCells path xs).mem a = Memory.get s.mem a := by
  induction xs generalizing s with
  | nil => rfl
  | cons x xs ih =>
    rw [State.writeCells, ih _ fun y hy => h y (List.mem_cons_of_mem _ hy)]
    exact s.writeCell_get_ne path x.1 x.2 (h x (by simp)).symm

/-- Writes of bytes touch what a write of one byte touches. -/
theorem State.writeCells_eq (s : State) (path : Path) (xs : List (Nat × Byte)) : ∃ m st ms out,
    s.writeCells path xs = { s with mem := m, stale := st, monitors := ms, sent := out } := by
  induction xs generalizing s with
  | nil => exact ⟨_, _, _, _, rfl⟩
  | cons x xs ih =>
    obtain ⟨m, st, ms, out, h⟩ := s.writeCell_eq path x.1 x.2
    obtain ⟨m', st', ms', out', h'⟩ := ih (s.writeCell path x.1 x.2)
    exact ⟨m', st', ms', out', by rw [State.writeCells, h', h]⟩

/-- A store to a share keeps its canonical form. -/
theorem storeAll_wf (m : List Host.Cell) (f : Nat) (xs : List (Nat × QWord)) (h : Memory.wf m = true) :
    Memory.wf (storeAll m f xs) = true := by
  induction xs generalizing m with
  | nil => exact h
  | cons x xs ih => exact ih _ (Memory.putBytes_wf _ _ h)

/-- The memory after reset is canonical. -/
theorem reset_mem_wf : Memory.wf State.reset.mem = true := (rfl)

end Sys2Proof.Machine
end

