-- ==== Sys2Proof/Laws/PerInstr.lean ====
section
/-! SUPPORT. Lemmas for every constructor of `Instr`, by family. Encoding: an instruction is at most two words (01 R26), and an event none. -/

namespace Sys2Proof.Laws.Encoding

/-- An encoding has at most the two words of a pair of slots (01 R26). -/
def Statement (i : Instr) : Prop := (encode i).length ≤ 2

theorem nop : Statement .nop := Nat.le_of_ble_eq_true rfl
theorem iadd (u : BitVec 1) (t : BitVec 3) (d : BitVec 7) (a : BitVec 7) (b : BitVec 7) : Statement (.iadd u t d a b) := Nat.le_of_ble_eq_true rfl
theorem isub (u : BitVec 1) (t : BitVec 3) (d : BitVec 7) (a : BitVec 7) (b : BitVec 7) : Statement (.isub u t d a b) := Nat.le_of_ble_eq_true rfl
theorem iaddc (u : BitVec 1) (t : BitVec 3) (d : BitVec 7) (a : BitVec 7) (b : BitVec 7) : Statement (.iaddc u t d a b) := Nat.le_of_ble_eq_true rfl
theorem imul (u : BitVec 1) (t : BitVec 3) (d : BitVec 7) (a : BitVec 7) (b : BitVec 7) : Statement (.imul u t d a b) := Nat.le_of_ble_eq_true rfl
theorem imulh (u : BitVec 1) (t : BitVec 3) (d : BitVec 7) (a : BitVec 7) (b : BitVec 7) : Statement (.imulh u t d a b) := Nat.le_of_ble_eq_true rfl
theorem imad (u : BitVec 1) (t : BitVec 3) (d : BitVec 7) (a : BitVec 7) (b : BitVec 7) : Statement (.imad u t d a b) := Nat.le_of_ble_eq_true rfl
theorem imin (u : BitVec 1) (t : BitVec 3) (d : BitVec 7) (a : BitVec 7) (b : BitVec 7) : Statement (.imin u t d a b) := Nat.le_of_ble_eq_true rfl
theorem imax (u : BitVec 1) (t : BitVec 3) (d : BitVec 7) (a : BitVec 7) (b : BitVec 7) : Statement (.imax u t d a b) := Nat.le_of_ble_eq_true rfl
theorem iabs (t : BitVec 3) (d : BitVec 7) (a : BitVec 7) : Statement (.iabs t d a) := Nat.le_of_ble_eq_true rfl
theorem icmp (u : BitVec 1) (t : BitVec 3) (f : BitVec 2) (a : BitVec 7) (b : BitVec 7) : Statement (.icmp u t f a b) := Nat.le_of_ble_eq_true rfl
theorem andR (u : BitVec 1) (t : BitVec 3) (d : BitVec 7) (a : BitVec 7) (b : BitVec 7) : Statement (.andR u t d a b) := Nat.le_of_ble_eq_true rfl
theorem orR (u : BitVec 1) (t : BitVec 3) (d : BitVec 7) (a : BitVec 7) (b : BitVec 7) : Statement (.orR u t d a b) := Nat.le_of_ble_eq_true rfl
theorem xorR (u : BitVec 1) (t : BitVec 3) (d : BitVec 7) (a : BitVec 7) (b : BitVec 7) : Statement (.xorR u t d a b) := Nat.le_of_ble_eq_true rfl
theorem andnR (u : BitVec 1) (t : BitVec 3) (d : BitVec 7) (a : BitVec 7) (b : BitVec 7) : Statement (.andnR u t d a b) := Nat.le_of_ble_eq_true rfl
theorem shl (u : BitVec 1) (t : BitVec 3) (d : BitVec 7) (a : BitVec 7) (b : BitVec 7) : Statement (.shl u t d a b) := Nat.le_of_ble_eq_true rfl
theorem shr (u : BitVec 1) (t : BitVec 3) (d : BitVec 7) (a : BitVec 7) (b : BitVec 7) : Statement (.shr u t d a b) := Nat.le_of_ble_eq_true rfl
theorem sar (u : BitVec 1) (t : BitVec 3) (d : BitVec 7) (a : BitVec 7) (b : BitVec 7) : Statement (.sar u t d a b) := Nat.le_of_ble_eq_true rfl
theorem rot (u : BitVec 1) (t : BitVec 3) (d : BitVec 7) (a : BitVec 7) (b : BitVec 7) : Statement (.rot u t d a b) := Nat.le_of_ble_eq_true rfl
theorem popc (t : BitVec 3) (d : BitVec 7) (a : BitVec 7) : Statement (.popc t d a) := Nat.le_of_ble_eq_true rfl
theorem clz (t : BitVec 3) (d : BitVec 7) (a : BitVec 7) : Statement (.clz t d a) := Nat.le_of_ble_eq_true rfl
theorem brev (t : BitVec 3) (d : BitVec 7) (a : BitVec 7) : Statement (.brev t d a) := Nat.le_of_ble_eq_true rfl
theorem bfx (u : BitVec 1) (t : BitVec 3) (d : BitVec 7) (a : BitVec 7) (b : BitVec 7) : Statement (.bfx u t d a b) := Nat.le_of_ble_eq_true rfl
theorem bfi (u : BitVec 1) (t : BitVec 3) (d : BitVec 7) (a : BitVec 7) (b : BitVec 7) : Statement (.bfi u t d a b) := Nat.le_of_ble_eq_true rfl
theorem iaddi (t : BitVec 3) (i : BitVec 8) (d : BitVec 7) (a : BitVec 7) : Statement (.iaddi t i d a) := Nat.le_of_ble_eq_true rfl
theorem andi (t : BitVec 3) (i : BitVec 8) (d : BitVec 7) (a : BitVec 7) : Statement (.andi t i d a) := Nat.le_of_ble_eq_true rfl
theorem ori (t : BitVec 3) (i : BitVec 8) (d : BitVec 7) (a : BitVec 7) : Statement (.ori t i d a) := Nat.le_of_ble_eq_true rfl
theorem xori (t : BitVec 3) (i : BitVec 8) (d : BitVec 7) (a : BitVec 7) : Statement (.xori t i d a) := Nat.le_of_ble_eq_true rfl
theorem shli (t : BitVec 3) (i : BitVec 8) (d : BitVec 7) (a : BitVec 7) : Statement (.shli t i d a) := Nat.le_of_ble_eq_true rfl
theorem shri (t : BitVec 3) (i : BitVec 8) (d : BitVec 7) (a : BitVec 7) : Statement (.shri t i d a) := Nat.le_of_ble_eq_true rfl
theorem sari (t : BitVec 3) (i : BitVec 8) (d : BitVec 7) (a : BitVec 7) : Statement (.sari t i d a) := Nat.le_of_ble_eq_true rfl
theorem icmpi (t : BitVec 3) (i : BitVec 8) (f : BitVec 2) (a : BitVec 7) : Statement (.icmpi t i f a) := Nat.le_of_ble_eq_true rfl
theorem movi (s : BitVec 1) (i : BitVec 8) (d : BitVec 7) : Statement (.movi s i d) := Nat.le_of_ble_eq_true rfl
theorem mov (x : BitVec 1) (y : BitVec 1) (d : BitVec 7) (a : BitVec 7) : Statement (.mov x y d a) := Nat.le_of_ble_eq_true rfl
theorem sel (u : BitVec 1) (f : BitVec 2) (d : BitVec 7) (a : BitVec 7) (b : BitVec 7) : Statement (.sel u f d a b) := Nat.le_of_ble_eq_true rfl
theorem srd (n : BitVec 8) (d : BitVec 7) : Statement (.srd n d) := Nat.le_of_ble_eq_true rfl
theorem srdCyc (d : BitVec 7) : Statement (.srdCyc d) := Nat.le_of_ble_eq_true rfl
theorem swr (n : BitVec 8) (a : BitVec 7) : Statement (.swr n a) := Nat.le_of_ble_eq_true rfl
theorem swrWstat (a : BitVec 7) : Statement (.swrWstat a) := Nat.le_of_ble_eq_true rfl
theorem swrSlim (a : BitVec 7) : Statement (.swrSlim a) := Nat.le_of_ble_eq_true rfl
theorem swrTrappc (a : BitVec 7) : Statement (.swrTrappc a) := Nat.le_of_ble_eq_true rfl
theorem v2s (m : BitVec 4) (d : BitVec 7) (a : BitVec 7) : Statement (.v2s m d a) := Nat.le_of_ble_eq_true rfl
theorem salu (m : BitVec 4) (d : BitVec 7) (a : BitVec 7) (b : BitVec 7) : Statement (.salu m d a b) := Nat.le_of_ble_eq_true rfl
theorem smovi (k : BitVec 3) (i : BitVec 8) (d : BitVec 7) : Statement (.smovi k i d) := Nat.le_of_ble_eq_true rfl
theorem regsWbase (i : BitVec 8) : Statement (.regsWbase i) := Nat.le_of_ble_eq_true rfl
theorem regsXacq (i : BitVec 8) : Statement (.regsXacq i) := Nat.le_of_ble_eq_true rfl
theorem regsXacqGrant (core : Nat) : Statement (.regsXacqGrant core) := Nat.le_of_ble_eq_true rfl
theorem regsXrel (i : BitVec 8) : Statement (.regsXrel i) := Nat.le_of_ble_eq_true rfl
theorem regsXqry (d : BitVec 7) : Statement (.regsXqry d) := Nat.le_of_ble_eq_true rfl
theorem cpl (g : BitVec 2) (d : BitVec 7) (a : BitVec 7) (b : BitVec 7) (o : BitVec 4) (c : BitVec 7) (x : BitVec 16) : Statement (.cpl g d a b o c x) := Nat.le_of_ble_eq_true rfl
theorem cplComplete (ctx : Nat) (op : Nat) : Statement (.cplComplete ctx op) := Nat.le_of_ble_eq_true rfl
theorem cpb (m : BitVec 4) (d : BitVec 7) (a : BitVec 7) (o : BitVec 4) (x : BitVec 16) : Statement (.cpb m d a o x) := Nat.le_of_ble_eq_true rfl
theorem cpbComplete (ctx : Nat) (op : Nat) : Statement (.cpbComplete ctx op) := Nat.le_of_ble_eq_true rfl
theorem waitc (c : BitVec 3) (n : BitVec 8) : Statement (.waitc c n) := Nat.le_of_ble_eq_true rfl
theorem qpop (q : BitVec 3) (w : BitVec 2) (d : BitVec 7) : Statement (.qpop q w d) := Nat.le_of_ble_eq_true rfl
theorem qpush (q : BitVec 3) (w : BitVec 2) (a : BitVec 7) : Statement (.qpush q w a) := Nat.le_of_ble_eq_true rfl
theorem spldLoad (a : BitVec 7) : Statement (.spldLoad a) := Nat.le_of_ble_eq_true rfl
theorem spldStop : Statement .spldStop := Nat.le_of_ble_eq_true rfl
theorem spldQry (d : BitVec 7) : Statement (.spldQry d) := Nat.le_of_ble_eq_true rfl
theorem streamOperation (ctx : Nat) : Statement (.streamOperation ctx) := Nat.le_of_ble_eq_true rfl
theorem dfence (a : BitVec 7) : Statement (.dfence a) := Nat.le_of_ble_eq_true rfl
theorem dfenceComplete (ctx : Nat) (op : Nat) : Statement (.dfenceComplete ctx op) := Nat.le_of_ble_eq_true rfl
theorem fadd (t : BitVec 2) (r : BitVec 2) (d : BitVec 7) (a : BitVec 7) (b : BitVec 7) : Statement (.fadd t r d a b) := Nat.le_of_ble_eq_true rfl
theorem fsub (t : BitVec 2) (r : BitVec 2) (d : BitVec 7) (a : BitVec 7) (b : BitVec 7) : Statement (.fsub t r d a b) := Nat.le_of_ble_eq_true rfl
theorem fmul (t : BitVec 2) (r : BitVec 2) (d : BitVec 7) (a : BitVec 7) (b : BitVec 7) : Statement (.fmul t r d a b) := Nat.le_of_ble_eq_true rfl
theorem ffma (t : BitVec 2) (r : BitVec 2) (d : BitVec 7) (a : BitVec 7) (b : BitVec 7) : Statement (.ffma t r d a b) := Nat.le_of_ble_eq_true rfl
theorem fmin (t : BitVec 2) (n : BitVec 2) (d : BitVec 7) (a : BitVec 7) (b : BitVec 7) : Statement (.fmin t n d a b) := Nat.le_of_ble_eq_true rfl
theorem fmax (t : BitVec 2) (n : BitVec 2) (d : BitVec 7) (a : BitVec 7) (b : BitVec 7) : Statement (.fmax t n d a b) := Nat.le_of_ble_eq_true rfl
theorem fcmp (t : BitVec 2) (f : BitVec 2) (a : BitVec 7) (b : BitVec 7) : Statement (.fcmp t f a b) := Nat.le_of_ble_eq_true rfl
theorem fmod (t : BitVec 2) (o : BitVec 2) (d : BitVec 7) (a : BitVec 7) (b : BitVec 7) : Statement (.fmod t o d a b) := Nat.le_of_ble_eq_true rfl
theorem frint (t : BitVec 2) (r : BitVec 2) (d : BitVec 7) (a : BitVec 7) : Statement (.frint t r d a) := Nat.le_of_ble_eq_true rfl
theorem f2i (t : BitVec 2) (r : BitVec 2) (d : BitVec 7) (a : BitVec 7) (k : BitVec 7) : Statement (.f2i t r d a k) := Nat.le_of_ble_eq_true rfl
theorem i2f (t : BitVec 2) (r : BitVec 2) (d : BitVec 7) (a : BitVec 7) (k : BitVec 7) : Statement (.i2f t r d a k) := Nat.le_of_ble_eq_true rfl
theorem fcvt (v : BitVec 4) (d : BitVec 7) (a : BitVec 7) (r : BitVec 1) (s : BitVec 1) (p : BitVec 5) : Statement (.fcvt v d a r s p) := Nat.le_of_ble_eq_true rfl
theorem sfu (t : BitVec 2) (m : BitVec 2) (d : BitVec 7) (a : BitVec 7) (f : BitVec 7) : Statement (.sfu t m d a f) := Nat.le_of_ble_eq_true rfl
theorem welf (t : BitVec 2) (r : BitVec 2) (d : BitVec 7) (a : BitVec 7) : Statement (.welf t r d a) := Nat.le_of_ble_eq_true rfl
theorem wmrg (t : BitVec 2) (r : BitVec 2) (d : BitVec 7) (a : BitVec 7) : Statement (.wmrg t r d a) := Nat.le_of_ble_eq_true rfl
theorem fence (l : BitVec 1) (o : BitVec 2) (s : BitVec 3) : Statement (.fence l o s) := Nat.le_of_ble_eq_true rfl
theorem shfl (m : BitVec 2) (d : BitVec 7) (a : BitVec 7) (b : BitVec 7) : Statement (.shfl m d a b) := Nat.le_of_ble_eq_true rfl
theorem shfli (m : BitVec 2) (g : BitVec 8) (d : BitVec 7) (a : BitVec 7) : Statement (.shfli m g d a) := Nat.le_of_ble_eq_true rfl
theorem shpush (c : BitVec 1) (n : BitVec 3) (d : BitVec 7) (a : BitVec 7) (b : BitVec 7) : Statement (.shpush c n d a b) := Nat.le_of_ble_eq_true rfl
theorem vote (f : BitVec 2) (k : BitVec 2) (d : BitVec 7) (a : BitVec 7) (b : BitVec 7) : Statement (.vote f k d a b) := Nat.le_of_ble_eq_true rfl
theorem lred (o : BitVec 2) (t : BitVec 2) (d : BitVec 7) (a : BitVec 7) (b : BitVec 7) : Statement (.lred o t d a b) := Nat.le_of_ble_eq_true rfl
theorem lscan (o : BitVec 2) (t : BitVec 2) (d : BitVec 7) (a : BitVec 7) (b : BitVec 7) : Statement (.lscan o t d a b) := Nat.le_of_ble_eq_true rfl
theorem amo (m : BitVec 4) (d : BitVec 7) (a : BitVec 7) (b : BitVec 7) (sc : BitVec 3) (ord : BitVec 2) (o : BitVec 4) (x : BitVec 16) : Statement (.amo m d a b sc ord o x) := Nat.le_of_ble_eq_true rfl
theorem cas (m : BitVec 4) (d : BitVec 7) (a : BitVec 7) (b : BitVec 7) (sc : BitVec 3) (ord : BitVec 2) (f : BitVec 2) (x : BitVec 16) : Statement (.cas m d a b sc ord f x) := Nat.le_of_ble_eq_true rfl
theorem mset (m : BitVec 3) (k : BitVec 3) (n : BitVec 3) (l : BitVec 2) : Statement (.mset m k n l) := Nat.le_of_ble_eq_true rfl
theorem mld (f : BitVec 4) (d : BitVec 7) (a : BitVec 7) (b : BitVec 7) : Statement (.mld f d a b) := Nat.le_of_ble_eq_true rfl
theorem mst (f : BitVec 4) (d : BitVec 7) (a : BitVec 7) (b : BitVec 7) : Statement (.mst f d a b) := Nat.le_of_ble_eq_true rfl
theorem mmov (d : BitVec 7) (a : BitVec 7) : Statement (.mmov d a) := Nat.le_of_ble_eq_true rfl
theorem midn (d : BitVec 7) : Statement (.midn d) := Nat.le_of_ble_eq_true rfl
theorem mtrn (d : BitVec 7) (a : BitVec 7) : Statement (.mtrn d a) := Nat.le_of_ble_eq_true rfl
theorem madd (m : BitVec 4) (d : BitVec 7) (a : BitVec 7) (b : BitVec 7) : Statement (.madd m d a b) := Nat.le_of_ble_eq_true rfl
theorem mmul (x : BitVec 1) (y : BitVec 1) (z : BitVec 1) (d : BitVec 7) (a : BitVec 7) (b : BitVec 7) : Statement (.mmul x y z d a b) := Nat.le_of_ble_eq_true rfl
theorem mchol (f : BitVec 2) (d : BitVec 7) (a : BitVec 7) (b : BitVec 7) : Statement (.mchol f d a b) := Nat.le_of_ble_eq_true rfl
theorem mlup (f : BitVec 2) (d : BitVec 7) (a : BitVec 7) (b : BitVec 7) : Statement (.mlup f d a b) := Nat.le_of_ble_eq_true rfl
theorem mtrs (p : BitVec 1) (t : BitVec 1) (u : BitVec 1) (y : BitVec 1) (d : BitVec 7) (a : BitVec 7) (b : BitVec 7) : Statement (.mtrs p t u y d a b) := Nat.le_of_ble_eq_true rfl
theorem msolv (m : BitVec 1) (f : BitVec 2) (d : BitVec 7) (a : BitVec 7) (b : BitVec 7) : Statement (.msolv m f d a b) := Nat.le_of_ble_eq_true rfl
theorem mred (m : BitVec 4) (d : BitVec 7) (a : BitVec 7) : Statement (.mred m d a) := Nat.le_of_ble_eq_true rfl
theorem smallMatrixComplete (ctx : Nat) (acc : Nat) : Statement (.smallMatrixComplete ctx acc) := Nat.le_of_ble_eq_true rfl
theorem xmma (m : BitVec 4) (a : BitVec 7) (b : BitVec 7) (o : BitVec 4) (c : BitVec 7) (x : BitVec 12) : Statement (.xmma m a b o c x) := Nat.le_of_ble_eq_true rfl
theorem xmmaComplete (ctx : Nat) (op : Nat) : Statement (.xmmaComplete ctx op) := Nat.le_of_ble_eq_true rfl
theorem xaccZero (a : BitVec 7) : Statement (.xaccZero a) := Nat.le_of_ble_eq_true rfl
theorem xaccRd (d : BitVec 7) (a : BitVec 7) (b : BitVec 7) : Statement (.xaccRd d a b) := Nat.le_of_ble_eq_true rfl
theorem xaccWr (d : BitVec 7) (a : BitVec 7) (b : BitVec 7) : Statement (.xaccWr d a b) := Nat.le_of_ble_eq_true rfl
theorem xaccTile (d : BitVec 7) (a : BitVec 7) : Statement (.xaccTile d a) := Nat.le_of_ble_eq_true rfl
theorem xaccTileComplete (ctx : Nat) (op : Nat) : Statement (.xaccTileComplete ctx op) := Nat.le_of_ble_eq_true rfl
theorem tgath (d : BitVec 7) (a : BitVec 7) (b : BitVec 7) (sc : BitVec 3) (ord : BitVec 2) (o : BitVec 4) (c : BitVec 7) (x : BitVec 10) : Statement (.tgath d a b sc ord o c x) := Nat.le_of_ble_eq_true rfl
theorem tgathComplete (ctx : Nat) (op : Nat) : Statement (.tgathComplete ctx op) := Nat.le_of_ble_eq_true rfl
theorem engineSideFault (ctx : Nat) (op : Nat) : Statement (.engineSideFault ctx op) := Nat.le_of_ble_eq_true rfl
theorem bra (s : BitVec 2) (o : BitVec 23) : Statement (.bra s o) := Nat.le_of_ble_eq_true rfl
theorem call (s : BitVec 2) (o : BitVec 23) : Statement (.call s o) := Nat.le_of_ble_eq_true rfl
theorem ret : Statement .ret := Nat.le_of_ble_eq_true rfl
theorem jmpr (a : BitVec 7) : Statement (.jmpr a) := Nat.le_of_ble_eq_true rfl
theorem rejoin (b : BitVec 7) (x : BitVec 16) : Statement (.rejoin b x) := Nat.le_of_ble_eq_true rfl
theorem fspawn (d : BitVec 7) (a : BitVec 7) (x : BitVec 16) : Statement (.fspawn d a x) := Nat.le_of_ble_eq_true rfl
theorem fend : Statement .fend := Nat.le_of_ble_eq_true rfl
theorem exit : Statement .exit := Nat.le_of_ble_eq_true rfl
theorem fenter (n : BitVec 8) : Statement (.fenter n) := Nat.le_of_ble_eq_true rfl
theorem fleave (n : BitVec 8) : Statement (.fleave n) := Nat.le_of_ble_eq_true rfl
theorem bar (k : BitVec 3) (i : BitVec 8) : Statement (.bar k i) := Nat.le_of_ble_eq_true rfl
theorem mwaitWatch (a : BitVec 7) (b : BitVec 7) : Statement (.mwaitWatch a b) := Nat.le_of_ble_eq_true rfl
theorem mwaitWait (d : BitVec 7) (a : BitVec 7) : Statement (.mwaitWait d a) := Nat.le_of_ble_eq_true rfl
theorem monitorFire (ctx : Nat) (warp : Nat) (lane : Nat) : Statement (.monitorFire ctx warp lane) := Nat.le_of_ble_eq_true rfl
theorem mwaitTimeout (ctx : Nat) (warp : Nat) (lane : Nat) : Statement (.mwaitTimeout ctx warp lane) := Nat.le_of_ble_eq_true rfl
theorem yield : Statement .yield := Nat.le_of_ble_eq_true rfl
theorem yieldExpiry (ctx : Nat) (warp : Nat) (lane : Nat) : Statement (.yieldExpiry ctx warp lane) := Nat.le_of_ble_eq_true rfl
theorem trap (n : BitVec 8) : Statement (.trap n) := Nat.le_of_ble_eq_true rfl
theorem rett : Statement .rett := Nat.le_of_ble_eq_true rfl
theorem lnch (d : BitVec 7) (a : BitVec 7) (sc : BitVec 3) (ord : BitVec 2) (c : BitVec 7) : Statement (.lnch d a sc ord c) := Nat.le_of_ble_eq_true rfl
theorem ldl (f : BitVec 4) (d : BitVec 7) (a : BitVec 7) (b : BitVec 7) : Statement (.ldl f d a b) := Nat.le_of_ble_eq_true rfl
theorem stl (f : BitVec 4) (d : BitVec 7) (a : BitVec 7) (b : BitVec 7) : Statement (.stl f d a b) := Nat.le_of_ble_eq_true rfl
theorem ldf (f : BitVec 4) (d : BitVec 7) (a : BitVec 7) (b : BitVec 7) : Statement (.ldf f d a b) := Nat.le_of_ble_eq_true rfl
theorem stf (f : BitVec 4) (d : BitVec 7) (a : BitVec 7) (b : BitVec 7) : Statement (.stf f d a b) := Nat.le_of_ble_eq_true rfl
theorem ldr (f : BitVec 4) (d : BitVec 7) (a : BitVec 7) (b : BitVec 7) : Statement (.ldr f d a b) := Nat.le_of_ble_eq_true rfl
theorem str (f : BitVec 4) (d : BitVec 7) (a : BitVec 7) (b : BitVec 7) : Statement (.str f d a b) := Nat.le_of_ble_eq_true rfl
theorem ldk (f : BitVec 4) (d : BitVec 7) (a : BitVec 7) (sc : BitVec 3) (ord : BitVec 2) (o : BitVec 4) (c : BitVec 7) (x : BitVec 16) : Statement (.ldk f d a sc ord o c x) := Nat.le_of_ble_eq_true rfl
theorem stk (f : BitVec 4) (d : BitVec 7) (a : BitVec 7) (sc : BitVec 3) (ord : BitVec 2) (o : BitVec 4) (c : BitVec 7) (x : BitVec 16) : Statement (.stk f d a sc ord o c x) := Nat.le_of_ble_eq_true rfl
theorem ldri (f : BitVec 3) (i : BitVec 8) (d : BitVec 7) (a : BitVec 7) : Statement (.ldri f i d a) := Nat.le_of_ble_eq_true rfl
theorem stri (f : BitVec 3) (i : BitVec 8) (d : BitVec 7) (a : BitVec 7) : Statement (.stri f i d a) := Nat.le_of_ble_eq_true rfl
theorem ldli (f : BitVec 3) (i : BitVec 8) (d : BitVec 7) (a : BitVec 7) : Statement (.ldli f i d a) := Nat.le_of_ble_eq_true rfl
theorem stli (f : BitVec 3) (i : BitVec 8) (d : BitVec 7) (a : BitVec 7) : Statement (.stli f i d a) := Nat.le_of_ble_eq_true rfl
theorem rowAccessComplete (ctx : Nat) (acc : Nat) : Statement (.rowAccessComplete ctx acc) := Nat.le_of_ble_eq_true rfl
theorem frmLd (n : BitVec 4) (k : BitVec 4) (d : BitVec 7) : Statement (.frmLd n k d) := Nat.le_of_ble_eq_true rfl
theorem frmSt (n : BitVec 4) (k : BitVec 4) (a : BitVec 7) : Statement (.frmSt n k a) := Nat.le_of_ble_eq_true rfl
theorem tileDef (d : BitVec 7) (a : BitVec 7) : Statement (.tileDef d a) := Nat.le_of_ble_eq_true rfl
theorem tileQry (d : BitVec 7) (a : BitVec 7) : Statement (.tileQry d a) := Nat.le_of_ble_eq_true rfl
theorem tileSet (s : BitVec 1) (a : BitVec 7) : Statement (.tileSet s a) := Nat.le_of_ble_eq_true rfl
theorem tileFree (a : BitVec 7) : Statement (.tileFree a) := Nat.le_of_ble_eq_true rfl
theorem tget (d : BitVec 7) (a : BitVec 7) (sc : BitVec 3) (ord : BitVec 2) (o : BitVec 4) (c : BitVec 7) : Statement (.tget d a sc ord o c) := Nat.le_of_ble_eq_true rfl
theorem tins (m : BitVec 1) (d : BitVec 7) (a : BitVec 7) (b : BitVec 7) (sc : BitVec 3) (ord : BitVec 2) (o : BitVec 4) (c : BitVec 7) (x : BitVec 16) : Statement (.tins m d a b sc ord o c x) := Nat.le_of_ble_eq_true rfl
theorem tdel (d : BitVec 7) (a : BitVec 7) (sc : BitVec 3) (ord : BitVec 2) (o : BitVec 4) (c : BitVec 7) : Statement (.tdel d a sc ord o c) := Nat.le_of_ble_eq_true rfl
theorem tupdVal (d : BitVec 7) (a : BitVec 7) (b : BitVec 7) (sc : BitVec 3) (ord : BitVec 2) (o : BitVec 4) (c : BitVec 7) (x : BitVec 16) : Statement (.tupdVal d a b sc ord o c x) := Nat.le_of_ble_eq_true rfl
theorem tupdFmt (d : BitVec 7) (a : BitVec 7) (b : BitVec 7) (sc : BitVec 3) (ord : BitVec 2) (o : BitVec 4) (c : BitVec 7) : Statement (.tupdFmt d a b sc ord o c) := Nat.le_of_ble_eq_true rfl
theorem indexEngineOperation (op : Nat) : Statement (.indexEngineOperation op) := Nat.le_of_ble_eq_true rfl
theorem tseek (v : BitVec 1) (m : BitVec 2) (d : BitVec 7) (a : BitVec 7) (sc : BitVec 3) (ord : BitVec 2) (o : BitVec 4) (c : BitVec 7) : Statement (.tseek v m d a sc ord o c) := Nat.le_of_ble_eq_true rfl
theorem tcurStep (d : BitVec 7) (a : BitVec 7) (b : BitVec 7) : Statement (.tcurStep d a b) := Nat.le_of_ble_eq_true rfl
theorem tcurClose (a : BitVec 7) : Statement (.tcurClose a) := Nat.le_of_ble_eq_true rfl
theorem tcurKey (d : BitVec 7) (a : BitVec 7) : Statement (.tcurKey d a) := Nat.le_of_ble_eq_true rfl
theorem rcall (d : BitVec 7) (a : BitVec 7) (sc : BitVec 3) (ord : BitVec 2) (c : BitVec 7) (m : BitVec 6) : Statement (.rcall d a sc ord c m) := Nat.le_of_ble_eq_true rfl
theorem logAppend (req : Nat) : Statement (.logAppend req) := Nat.le_of_ble_eq_true rfl
theorem replayApply (asid : Nat) (slot : Nat) (die : Nat) : Statement (.replayApply asid slot die) := Nat.le_of_ble_eq_true rfl
theorem rreadRead (d : BitVec 7) (a : BitVec 7) (b : BitVec 7) (sc : BitVec 3) (ord : BitVec 2) (c : BitVec 7) (m : BitVec 6) : Statement (.rreadRead d a b sc ord c m) := Nat.le_of_ble_eq_true rfl
theorem rreadWait (d : BitVec 7) (b : BitVec 7) (sc : BitVec 3) (ord : BitVec 2) (c : BitVec 7) : Statement (.rreadWait d b sc ord c) := Nat.le_of_ble_eq_true rfl
theorem rreadStat (d : BitVec 7) (sc : BitVec 3) (ord : BitVec 2) (c : BitVec 7) : Statement (.rreadStat d sc ord c) := Nat.le_of_ble_eq_true rfl
theorem rreadReturn (req : Nat) : Statement (.rreadReturn req) := Nat.le_of_ble_eq_true rfl
theorem syncIsync : Statement .syncIsync := Nat.le_of_ble_eq_true rfl
theorem syncIcinv (a : BitVec 7) (b : BitVec 7) : Statement (.syncIcinv a b) := Nat.le_of_ble_eq_true rfl
theorem syncDcwb (a : BitVec 7) (b : BitVec 7) : Statement (.syncDcwb a b) := Nat.le_of_ble_eq_true rfl
theorem syncDcinv (a : BitVec 7) (b : BitVec 7) : Statement (.syncDcinv a b) := Nat.le_of_ble_eq_true rfl
theorem rep (c : BitVec 6) (s : BitVec 3) (t : BitVec 3) : Statement (.rep c s t) := Nat.le_of_ble_eq_true rfl
theorem priorityStandingRaise (ctx : Nat) (warp : Nat) : Statement (.priorityStandingRaise ctx warp) := Nat.le_of_ble_eq_true rfl
theorem warpRetire (ctx : Nat) (warp : Nat) : Statement (.warpRetire ctx warp) := Nat.le_of_ble_eq_true rfl
theorem doneIncrement (queue : Nat) (idx : Nat) : Statement (.doneIncrement queue idx) := Nat.le_of_ble_eq_true rfl
theorem trapEntry (ctx : Nat) (warp : Nat) : Statement (.trapEntry ctx warp) := Nat.le_of_ble_eq_true rfl
theorem queuePoll (queue : Nat) : Statement (.queuePoll queue) := Nat.le_of_ble_eq_true rfl
theorem gangPlacement (ctx : Nat) : Statement (.gangPlacement ctx) := Nat.le_of_ble_eq_true rfl
theorem preemption (ctx : Nat) : Statement (.preemption ctx) := Nat.le_of_ble_eq_true rfl
theorem preemptionSave (ctx : Nat) : Statement (.preemptionSave ctx) := Nat.le_of_ble_eq_true rfl
theorem drainTimeout (ctx : Nat) : Statement (.drainTimeout ctx) := Nat.le_of_ble_eq_true rfl
theorem cmdDirSet : Statement .cmdDirSet := Nat.le_of_ble_eq_true rfl
theorem cmdDirClr : Statement .cmdDirClr := Nat.le_of_ble_eq_true rfl
theorem cmdObjSet : Statement .cmdObjSet := Nat.le_of_ble_eq_true rfl
theorem cmdObjClr : Statement .cmdObjClr := Nat.le_of_ble_eq_true rfl
theorem cmdXlatInv : Statement .cmdXlatInv := Nat.le_of_ble_eq_true rfl
theorem cmdQueueSet : Statement .cmdQueueSet := Nat.le_of_ble_eq_true rfl
theorem cmdQueueClr : Statement .cmdQueueClr := Nat.le_of_ble_eq_true rfl
theorem cmdRegionHalt : Statement .cmdRegionHalt := Nat.le_of_ble_eq_true rfl
theorem cmdContainClr : Statement .cmdContainClr := Nat.le_of_ble_eq_true rfl
theorem cmdLineClr : Statement .cmdLineClr := Nat.le_of_ble_eq_true rfl
theorem cmdReserved : Statement .cmdReserved := Nat.le_of_ble_eq_true rfl
theorem ident : Statement .ident := Nat.le_of_ble_eq_true rfl
theorem attest (nonce : List Byte) : Statement (.attest nonce) := Nat.le_of_ble_eq_true rfl
theorem resync : Statement .resync := Nat.le_of_ble_eq_true rfl
theorem keySet (slot : Nat) (wrapped : List Byte) : Statement (.keySet slot wrapped) := Nat.le_of_ble_eq_true rfl
theorem keyClr (slot : Nat) : Statement (.keyClr slot) := Nat.le_of_ble_eq_true rfl
theorem peerMap (window : Nat) (device : Nat) : Statement (.peerMap window device) := Nat.le_of_ble_eq_true rfl
theorem fwLoad (image : List Byte) (signature : List Byte) : Statement (.fwLoad image signature) := Nat.le_of_ble_eq_true rfl
theorem deviceReset : Statement .deviceReset := Nat.le_of_ble_eq_true rfl
theorem hostWrite (pa : Nat) (bytes : List Byte) : Statement (.hostWrite pa bytes) := Nat.le_of_ble_eq_true rfl
theorem hostRead (pa : Nat) (len : Nat) : Statement (.hostRead pa len) := Nat.le_of_ble_eq_true rfl
theorem heatCodeWrite (die : Nat) (col : Nat) (temp : Nat) : Statement (.heatCodeWrite die col temp) := Nat.le_of_ble_eq_true rfl
theorem spareSwap (part : Part) : Statement (.spareSwap part) := Nat.le_of_ble_eq_true rfl
theorem patrolScrub (line : Nat) (found : Flaw) : Statement (.patrolScrub line found) := Nat.le_of_ble_eq_true rfl
theorem bankFreeze (bank : Nat) : Statement (.bankFreeze bank) := Nat.le_of_ble_eq_true rfl
theorem freezeComplete (bank : Nat) : Statement (.freezeComplete bank) := Nat.le_of_ble_eq_true rfl
theorem thawComplete (bank : Nat) : Statement (.thawComplete bank) := Nat.le_of_ble_eq_true rfl
theorem coherenceAckTimeout (agent : Agent) : Statement (.coherenceAckTimeout agent) := Nat.le_of_ble_eq_true rfl
theorem linkDead (link : Nat) : Statement (.linkDead link) := Nat.le_of_ble_eq_true rfl
theorem dieWatchdog (agent : Agent) : Statement (.dieWatchdog agent) := Nat.le_of_ble_eq_true rfl
theorem pageWalkComplete (asid : Nat) (page : Nat) : Statement (.pageWalkComplete asid page) := Nat.le_of_ble_eq_true rfl
theorem regionMerge (base : Nat) : Statement (.regionMerge base) := Nat.le_of_ble_eq_true rfl
theorem dramAccessArrival (req : Nat) : Statement (.dramAccessArrival req) := Nat.le_of_ble_eq_true rfl
theorem dramServiceComplete (req : Nat) : Statement (.dramServiceComplete req) := Nat.le_of_ble_eq_true rfl
theorem refreshDue (pch : Nat) : Statement (.refreshDue pch) := Nat.le_of_ble_eq_true rfl
theorem refreshComplete (pch : Nat) : Statement (.refreshComplete pch) := Nat.le_of_ble_eq_true rfl
theorem idleRepay (pch : Nat) : Statement (.idleRepay pch) := Nat.le_of_ble_eq_true rfl
theorem selfRefreshEntry (pch : Nat) : Statement (.selfRefreshEntry pch) := Nat.le_of_ble_eq_true rfl
theorem selfRefreshExitComplete (pch : Nat) : Statement (.selfRefreshExitComplete pch) := Nat.le_of_ble_eq_true rfl
theorem pageReencryptionComplete (page : Nat) : Statement (.pageReencryptionComplete page) := Nat.le_of_ble_eq_true rfl
theorem keyRotation (slot : Nat) : Statement (.keyRotation slot) := Nat.le_of_ble_eq_true rfl
theorem keySweepComplete (slot : Nat) : Statement (.keySweepComplete slot) := Nat.le_of_ble_eq_true rfl
theorem streamFetchComplete (ctx : Nat) : Statement (.streamFetchComplete ctx) := Nat.le_of_ble_eq_true rfl
theorem syncComplete (ctx : Nat) (warp : Nat) (sync : Nat) : Statement (.syncComplete ctx warp sync) := Nat.le_of_ble_eq_true rfl
theorem fenceComplete (ctx : Nat) (warp : Nat) (fence : Nat) : Statement (.fenceComplete ctx warp fence) := Nat.le_of_ble_eq_true rfl
theorem spareSwapComplete (part : Part) : Statement (.spareSwapComplete part) := Nat.le_of_ble_eq_true rfl
theorem linkRetrainComplete (link : Nat) : Statement (.linkRetrainComplete link) := Nat.le_of_ble_eq_true rfl
theorem cxlCacheSnoop (line : Nat) (snoop : Snoop) : Statement (.cxlCacheSnoop line snoop) := Nat.le_of_ble_eq_true rfl
theorem remoteDeviceAccess (device : Nat) (pa : Nat) (access : Remote) : Statement (.remoteDeviceAccess device pa access) := Nat.le_of_ble_eq_true rfl
theorem logMirrorCopyComplete (asid : Nat) (slot : Nat) : Statement (.logMirrorCopyComplete asid slot) := Nat.le_of_ble_eq_true rfl

end Sys2Proof.Laws.Encoding
end

