-- ==== Sys2Proof/Laws/Reads.lean ====
section
/-! SUPPORT. What the machine's tables, memory and caches hold does not depend on its gangs: each of these readings is the
same after a change of one gang, of one warp, or after the move of an issue; where the reading translates an address, after a change of one
gang that leaves it in its place. -/

namespace Sys2Proof.Machine

@[simp] theorem State.mapGang_free (s : State) (x : Nat) (u : Gang → Gang) (k n : Nat) :
    (s.mapGang x u).free k n = s.free k n := (rfl)
@[simp] theorem State.mapWarp_free (s : State) (x y : Nat) (u : Warp → Warp) (k n : Nat) :
    (s.mapWarp x y u).free k n = s.free k n := s.mapGang_free x _ k n
@[simp] theorem State.advance_free (s : State) (i : Instr) (c : Cur) (k n : Nat) :
    (s.advance i c).free k n = s.free k n := s.mapGang_free c.gang _ k n
@[simp] theorem State.mapGang_freeNat (s : State) (x : Nat) (u : Gang → Gang) (k n : Nat) :
    (s.mapGang x u).freeNat k n = s.freeNat k n := (rfl)
@[simp] theorem State.mapWarp_freeNat (s : State) (x y : Nat) (u : Warp → Warp) (k n : Nat) :
    (s.mapWarp x y u).freeNat k n = s.freeNat k n := s.mapGang_freeNat x _ k n
@[simp] theorem State.advance_freeNat (s : State) (i : Instr) (c : Cur) (k n : Nat) :
    (s.advance i c).freeNat k n = s.freeNat k n := s.mapGang_freeNat c.gang _ k n
@[simp] theorem State.mapGang_queueQ (s : State) (x : Nat) (u : Gang → Gang) (q : Nat) :
    (s.mapGang x u).queue? q = s.queue? q := (rfl)
@[simp] theorem State.mapWarp_queueQ (s : State) (x y : Nat) (u : Warp → Warp) (q : Nat) :
    (s.mapWarp x y u).queue? q = s.queue? q := s.mapGang_queueQ x _ q
@[simp] theorem State.advance_queueQ (s : State) (i : Instr) (c : Cur) (q : Nat) :
    (s.advance i c).queue? q = s.queue? q := s.mapGang_queueQ c.gang _ q
@[simp] theorem State.mapGang_colOf (s : State) (x : Nat) (u : Gang → Gang) (die col : Nat) :
    (s.mapGang x u).colOf die col = s.colOf die col := (rfl)
@[simp] theorem State.mapWarp_colOf (s : State) (x y : Nat) (u : Warp → Warp) (die col : Nat) :
    (s.mapWarp x y u).colOf die col = s.colOf die col := s.mapGang_colOf x _ die col
@[simp] theorem State.advance_colOf (s : State) (i : Instr) (c : Cur) (die col : Nat) :
    (s.advance i c).colOf die col = s.colOf die col := s.mapGang_colOf c.gang _ die col
@[simp] theorem State.mapGang_heatOf (s : State) (x : Nat) (u : Gang → Gang) (die col : Nat) :
    (s.mapGang x u).heatOf die col = s.heatOf die col := (rfl)
@[simp] theorem State.mapWarp_heatOf (s : State) (x y : Nat) (u : Warp → Warp) (die col : Nat) :
    (s.mapWarp x y u).heatOf die col = s.heatOf die col := s.mapGang_heatOf x _ die col
@[simp] theorem State.advance_heatOf (s : State) (i : Instr) (c : Cur) (die col : Nat) :
    (s.advance i c).heatOf die col = s.heatOf die col := s.mapGang_heatOf c.gang _ die col
@[simp] theorem State.mapGang_tableQ (s : State) (x : Nat) (u : Gang → Gang) (asid slot : Nat) :
    (s.mapGang x u).table? asid slot = s.table? asid slot := (rfl)
@[simp] theorem State.mapWarp_tableQ (s : State) (x y : Nat) (u : Warp → Warp) (asid slot : Nat) :
    (s.mapWarp x y u).table? asid slot = s.table? asid slot := s.mapGang_tableQ x _ asid slot
@[simp] theorem State.advance_tableQ (s : State) (i : Instr) (c : Cur) (asid slot : Nat) :
    (s.advance i c).table? asid slot = s.table? asid slot := s.mapGang_tableQ c.gang _ asid slot
@[simp] theorem State.mapGang_handleQ (s : State) (x : Nat) (u : Gang → Gang) (asid : Nat) (h : Word) :
    (s.mapGang x u).handle? asid h = s.handle? asid h := (rfl)
@[simp] theorem State.mapWarp_handleQ (s : State) (x y : Nat) (u : Warp → Warp) (asid : Nat) (h : Word) :
    (s.mapWarp x y u).handle? asid h = s.handle? asid h := s.mapGang_handleQ x _ asid h
@[simp] theorem State.advance_handleQ (s : State) (i : Instr) (c : Cur) (asid : Nat) (h : Word) :
    (s.advance i c).handle? asid h = s.handle? asid h := s.mapGang_handleQ c.gang _ asid h
@[simp] theorem State.mapGang_refCheck (s : State) (x : Nat) (u : Gang → Gang) (asid : Nat) (r : DWord) :
    (s.mapGang x u).refCheck asid r = s.refCheck asid r := (rfl)
@[simp] theorem State.mapWarp_refCheck (s : State) (x y : Nat) (u : Warp → Warp) (asid : Nat) (r : DWord) :
    (s.mapWarp x y u).refCheck asid r = s.refCheck asid r := s.mapGang_refCheck x _ asid r
@[simp] theorem State.advance_refCheck (s : State) (i : Instr) (c : Cur) (asid : Nat) (r : DWord) :
    (s.advance i c).refCheck asid r = s.refCheck asid r := s.mapGang_refCheck c.gang _ asid r
@[simp] theorem State.mapGang_elemCheck (s : State) (x : Nat) (u : Gang → Gang) (asid : Nat) (r : DWord) (o e : Nat) :
    (s.mapGang x u).elemCheck asid r o e = s.elemCheck asid r o e := (rfl)
@[simp] theorem State.mapWarp_elemCheck (s : State) (x y : Nat) (u : Warp → Warp) (asid : Nat) (r : DWord) (o e : Nat) :
    (s.mapWarp x y u).elemCheck asid r o e = s.elemCheck asid r o e := s.mapGang_elemCheck x _ asid r o e
@[simp] theorem State.advance_elemCheck (s : State) (i : Instr) (c : Cur) (asid : Nat) (r : DWord) (o e : Nat) :
    (s.advance i c).elemCheck asid r o e = s.elemCheck asid r o e := s.mapGang_elemCheck c.gang _ asid r o e
@[simp] theorem State.mapGang_containedCell (s : State) (x : Nat) (u : Gang → Gang) (cell : Nat) :
    (s.mapGang x u).containedCell cell = s.containedCell cell := (rfl)
@[simp] theorem State.mapWarp_containedCell (s : State) (x y : Nat) (u : Warp → Warp) (cell : Nat) :
    (s.mapWarp x y u).containedCell cell = s.containedCell cell := s.mapGang_containedCell x _ cell
@[simp] theorem State.advance_containedCell (s : State) (i : Instr) (c : Cur) (cell : Nat) :
    (s.advance i c).containedCell cell = s.containedCell cell := s.mapGang_containedCell c.gang _ cell
@[simp] theorem State.mapGang_lostCell (s : State) (x : Nat) (u : Gang → Gang) (cell : Nat) :
    (s.mapGang x u).lostCell cell = s.lostCell cell := (rfl)
@[simp] theorem State.mapWarp_lostCell (s : State) (x y : Nat) (u : Warp → Warp) (cell : Nat) :
    (s.mapWarp x y u).lostCell cell = s.lostCell cell := s.mapGang_lostCell x _ cell
@[simp] theorem State.advance_lostCell (s : State) (i : Instr) (c : Cur) (cell : Nat) :
    (s.advance i c).lostCell cell = s.lostCell cell := s.mapGang_lostCell c.gang _ cell
@[simp] theorem State.mapGang_readCell (s : State) (x : Nat) (u : Gang → Gang) (path : Path) (cell : Nat) :
    (s.mapGang x u).readCell path cell = s.readCell path cell := (rfl)
@[simp] theorem State.mapWarp_readCell (s : State) (x y : Nat) (u : Warp → Warp) (path : Path) (cell : Nat) :
    (s.mapWarp x y u).readCell path cell = s.readCell path cell := s.mapGang_readCell x _ path cell
@[simp] theorem State.advance_readCell (s : State) (i : Instr) (c : Cur) (path : Path) (cell : Nat) :
    (s.advance i c).readCell path cell = s.readCell path cell := s.mapGang_readCell c.gang _ path cell
@[simp] theorem State.mapGang_awaitedBytes (s : State) (x : Nat) (u : Gang → Gang) (asid : Nat) (r : DWord) (o : Nat) (bs : List Byte) :
    (s.mapGang x u).awaitedBytes asid r o bs = s.awaitedBytes asid r o bs := (rfl)
@[simp] theorem State.mapWarp_awaitedBytes (s : State) (x y : Nat) (u : Warp → Warp) (asid : Nat) (r : DWord) (o : Nat) (bs : List Byte) :
    (s.mapWarp x y u).awaitedBytes asid r o bs = s.awaitedBytes asid r o bs := s.mapGang_awaitedBytes x _ asid r o bs
@[simp] theorem State.advance_awaitedBytes (s : State) (i : Instr) (c : Cur) (asid : Nat) (r : DWord) (o : Nat) (bs : List Byte) :
    (s.advance i c).awaitedBytes asid r o bs = s.awaitedBytes asid r o bs := s.mapGang_awaitedBytes c.gang _ asid r o bs
@[simp] theorem State.mapGang_heldBack (s : State) (x : Nat) (u : Gang → Gang) (cell : Nat) :
    (s.mapGang x u).heldBack cell = s.heldBack cell := (rfl)
@[simp] theorem State.mapWarp_heldBack (s : State) (x y : Nat) (u : Warp → Warp) (cell : Nat) :
    (s.mapWarp x y u).heldBack cell = s.heldBack cell := s.mapGang_heldBack x _ cell
@[simp] theorem State.advance_heldBack (s : State) (i : Instr) (c : Cur) (cell : Nat) :
    (s.advance i c).heldBack cell = s.heldBack cell := s.mapGang_heldBack c.gang _ cell
@[simp] theorem State.mapGang_keyHeld (s : State) (x : Nat) (u : Gang → Gang) (key page : Nat) (write : Bool) :
    (s.mapGang x u).keyHeld key page write = s.keyHeld key page write := (rfl)
@[simp] theorem State.mapWarp_keyHeld (s : State) (x y : Nat) (u : Warp → Warp) (key page : Nat) (write : Bool) :
    (s.mapWarp x y u).keyHeld key page write = s.keyHeld key page write := s.mapGang_keyHeld x _ key page write
@[simp] theorem State.advance_keyHeld (s : State) (i : Instr) (c : Cur) (key page : Nat) (write : Bool) :
    (s.advance i c).keyHeld key page write = s.keyHeld key page write := s.mapGang_keyHeld c.gang _ key page write
@[simp] theorem State.mapGang_qword (s : State) (x : Nat) (u : Gang → Gang) (pa : Nat) :
    (s.mapGang x u).qword pa = s.qword pa := (rfl)
@[simp] theorem State.mapWarp_qword (s : State) (x y : Nat) (u : Warp → Warp) (pa : Nat) :
    (s.mapWarp x y u).qword pa = s.qword pa := s.mapGang_qword x _ pa
@[simp] theorem State.advance_qword (s : State) (i : Instr) (c : Cur) (pa : Nat) :
    (s.advance i c).qword pa = s.qword pa := s.mapGang_qword c.gang _ pa
@[simp] theorem State.mapGang_tableKey (s : State) (x : Nat) (u : Gang → Gang) (pa lvl table : Nat) :
    (s.mapGang x u).tableKey pa lvl table = s.tableKey pa lvl table := by
  induction lvl generalizing table with
  | zero => rfl
  | succ n ih => simp only [State.tableKey, State.mapGang_qword, ih]
@[simp] theorem State.mapWarp_tableKey (s : State) (x y : Nat) (u : Warp → Warp) (pa lvl table : Nat) :
    (s.mapWarp x y u).tableKey pa lvl table = s.tableKey pa lvl table := s.mapGang_tableKey x _ pa lvl table
@[simp] theorem State.advance_tableKey (s : State) (i : Instr) (c : Cur) (pa lvl table : Nat) :
    (s.advance i c).tableKey pa lvl table = s.tableKey pa lvl table := s.mapGang_tableKey c.gang _ pa lvl table
@[simp] theorem State.mapGang_keyAt (s : State) (x : Nat) (u : Gang → Gang) (pa : Nat) :
    (s.mapGang x u).keyAt pa = s.keyAt pa := by simp only [State.keyAt, State.mapGang_keys, State.mapGang_asidTable, State.mapGang_qword, State.mapGang_tableKey]
@[simp] theorem State.mapWarp_keyAt (s : State) (x y : Nat) (u : Warp → Warp) (pa : Nat) :
    (s.mapWarp x y u).keyAt pa = s.keyAt pa := s.mapGang_keyAt x _ pa
@[simp] theorem State.advance_keyAt (s : State) (i : Instr) (c : Cur) (pa : Nat) :
    (s.advance i c).keyAt pa = s.keyAt pa := s.mapGang_keyAt c.gang _ pa
@[simp] theorem State.mapGang_paFails (s : State) (x : Nat) (u : Gang → Gang) (line : Nat) :
    (s.mapGang x u).paFails line = s.paFails line := by simp only [State.paFails, State.mapGang_keyAt, State.mapGang_free]
@[simp] theorem State.mapWarp_paFails (s : State) (x y : Nat) (u : Warp → Warp) (line : Nat) :
    (s.mapWarp x y u).paFails line = s.paFails line := s.mapGang_paFails x _ line
@[simp] theorem State.advance_paFails (s : State) (i : Instr) (c : Cur) (line : Nat) :
    (s.advance i c).paFails line = s.paFails line := s.mapGang_paFails c.gang _ line
@[simp] theorem State.mapGang_entry (s : State) (x : Nat) (u : Gang → Gang) (pa lvl : Nat) :
    (s.mapGang x u).entry pa lvl = s.entry pa lvl := by simp only [State.entry, State.mapGang_containedCell, State.mapGang_lostCell, State.mapGang_paFails, State.mapGang_qword]
@[simp] theorem State.mapWarp_entry (s : State) (x y : Nat) (u : Warp → Warp) (pa lvl : Nat) :
    (s.mapWarp x y u).entry pa lvl = s.entry pa lvl := s.mapGang_entry x _ pa lvl
@[simp] theorem State.advance_entry (s : State) (i : Instr) (c : Cur) (pa lvl : Nat) :
    (s.advance i c).entry pa lvl = s.entry pa lvl := s.mapGang_entry c.gang _ pa lvl
@[simp] theorem State.mapGang_runEntry (s : State) (x : Nat) (u : Gang → Gang) (table va e : Nat) :
    (s.mapGang x u).runEntry table va e = s.runEntry table va e := by simp only [State.runEntry, State.mapGang_freeNat, State.mapGang_qword]
@[simp] theorem State.mapWarp_runEntry (s : State) (x y : Nat) (u : Warp → Warp) (table va e : Nat) :
    (s.mapWarp x y u).runEntry table va e = s.runEntry table va e := s.mapGang_runEntry x _ table va e
@[simp] theorem State.advance_runEntry (s : State) (i : Instr) (c : Cur) (table va e : Nat) :
    (s.advance i c).runEntry table va e = s.runEntry table va e := s.mapGang_runEntry c.gang _ table va e
@[simp] theorem State.mapGang_walkFrom (s : State) (x : Nat) (u : Gang → Gang) (asid va lvl table : Nat) :
    (s.mapGang x u).walkFrom asid va lvl table = s.walkFrom asid va lvl table := by
  induction lvl generalizing table with
  | zero => rfl
  | succ n ih => simp only [State.walkFrom, State.mapGang_entry, State.mapGang_runEntry, State.mapGang_free, ih]
@[simp] theorem State.mapWarp_walkFrom (s : State) (x y : Nat) (u : Warp → Warp) (asid va lvl table : Nat) :
    (s.mapWarp x y u).walkFrom asid va lvl table = s.walkFrom asid va lvl table := s.mapGang_walkFrom x _ asid va lvl table
@[simp] theorem State.advance_walkFrom (s : State) (i : Instr) (c : Cur) (asid va lvl table : Nat) :
    (s.advance i c).walkFrom asid va lvl table = s.walkFrom asid va lvl table := s.mapGang_walkFrom c.gang _ asid va lvl table
@[simp] theorem State.mapGang_walk (s : State) (x : Nat) (u : Gang → Gang) (asid va : Nat) :
    (s.mapGang x u).walk asid va = s.walk asid va := by simp only [State.walk, State.mapGang_entry, State.mapGang_asidTable, State.mapGang_walkFrom]
@[simp] theorem State.mapWarp_walk (s : State) (x y : Nat) (u : Warp → Warp) (asid va : Nat) :
    (s.mapWarp x y u).walk asid va = s.walk asid va := s.mapGang_walk x _ asid va
@[simp] theorem State.advance_walk (s : State) (i : Instr) (c : Cur) (asid va : Nat) :
    (s.advance i c).walk asid va = s.walk asid va := s.mapGang_walk c.gang _ asid va
@[simp] theorem State.mapGang_attachedTo (s : State) (x : Nat) (u : Gang → Gang) (site : Site) (asid va : Nat) :
    (s.mapGang x u).attachedTo site asid va = s.attachedTo site asid va := (rfl)
@[simp] theorem State.mapWarp_attachedTo (s : State) (x y : Nat) (u : Warp → Warp) (site : Site) (asid va : Nat) :
    (s.mapWarp x y u).attachedTo site asid va = s.attachedTo site asid va := s.mapGang_attachedTo x _ site asid va
@[simp] theorem State.advance_attachedTo (s : State) (i : Instr) (c : Cur) (site : Site) (asid va : Nat) :
    (s.advance i c).attachedTo site asid va = s.attachedTo site asid va := s.mapGang_attachedTo c.gang _ site asid va
@[simp] theorem State.mapGang_translateAt (s : State) (x : Nat) (u : Gang → Gang) (site : Site) (asid va : Nat) :
    (s.mapGang x u).translateAt site asid va = s.translateAt site asid va := by simp only [State.translateAt, State.mapGang_tlb, State.mapGang_attachedTo, State.mapGang_walk]
@[simp] theorem State.mapWarp_translateAt (s : State) (x y : Nat) (u : Warp → Warp) (site : Site) (asid va : Nat) :
    (s.mapWarp x y u).translateAt site asid va = s.translateAt site asid va := s.mapGang_translateAt x _ site asid va
@[simp] theorem State.advance_translateAt (s : State) (i : Instr) (c : Cur) (site : Site) (asid va : Nat) :
    (s.advance i c).translateAt site asid va = s.translateAt site asid va := s.mapGang_translateAt c.gang _ site asid va
@[simp] theorem State.mapGang_missHeld (s : State) (x : Nat) (u : Gang → Gang) (site : Site) (asid va : Nat) :
    (s.mapGang x u).missHeld site asid va = s.missHeld site asid va := (rfl)
@[simp] theorem State.mapWarp_missHeld (s : State) (x y : Nat) (u : Warp → Warp) (site : Site) (asid va : Nat) :
    (s.mapWarp x y u).missHeld site asid va = s.missHeld site asid va := s.mapGang_missHeld x _ site asid va
@[simp] theorem State.advance_missHeld (s : State) (i : Instr) (c : Cur) (site : Site) (asid va : Nat) :
    (s.advance i c).missHeld site asid va = s.missHeld site asid va := s.mapGang_missHeld c.gang _ site asid va
@[simp] theorem State.mapGang_quadCells (s : State) (x : Nat) (u : Gang → Gang) (site : Site) (asid q : Nat) :
    (s.mapGang x u).quadCells site asid q = s.quadCells site asid q := by simp only [State.quadCells, State.mapGang_translateAt]
@[simp] theorem State.mapWarp_quadCells (s : State) (x y : Nat) (u : Warp → Warp) (site : Site) (asid q : Nat) :
    (s.mapWarp x y u).quadCells site asid q = s.quadCells site asid q := s.mapGang_quadCells x _ site asid q
@[simp] theorem State.advance_quadCells (s : State) (i : Instr) (c : Cur) (site : Site) (asid q : Nat) :
    (s.advance i c).quadCells site asid q = s.quadCells site asid q := s.mapGang_quadCells c.gang _ site asid q
theorem State.mapGang_site (s : State) (x : Nat) (u : Gang → Gang)
    (hp : ∀ G, (u G).place = G.place ∧ (u G).asid = G.asid)  :
    (s.mapGang x u).site  = s.site  := by
  have h (a : Nat) := And.intro (s.proj_mapGang (·.place) u x a fun G => (hp G).1) (s.proj_mapGang (·.asid) u x a fun G => (hp G).2)
  have ha (a : Nat) : ((s.mapGang x u).gang a).asid = (s.gang a).asid := (h a).2
  have hb (a : Nat) : ((s.mapGang x u).gang a).place = (s.gang a).place := (h a).1
  simp only [State.site, State.turnDie, State.mapGang_cur, State.mapGang_mover, State.mapGang_idx, State.mapGang_tables, ha, hb]
@[simp] theorem State.mapWarp_site (s : State) (x y : Nat) (u : Warp → Warp)  :
    (s.mapWarp x y u).site  = s.site  := s.mapGang_site x (·.mapWarp y u) (fun _ => ⟨rfl, rfl⟩) 
@[simp] theorem State.advance_site (s : State) (i : Instr) (c : Cur)  :
    (s.advance i c).site  = s.site  := s.mapWarp_site c.gang c.warp _ 
theorem State.mapGang_translate (s : State) (x : Nat) (u : Gang → Gang)
    (hp : ∀ G, (u G).place = G.place ∧ (u G).asid = G.asid) (asid va : Nat) :
    (s.mapGang x u).translate asid va = s.translate asid va := by simp only [State.translate, s.mapGang_site x u hp, State.mapGang_translateAt]
@[simp] theorem State.mapWarp_translate (s : State) (x y : Nat) (u : Warp → Warp) (asid va : Nat) :
    (s.mapWarp x y u).translate asid va = s.translate asid va := s.mapGang_translate x (·.mapWarp y u) (fun _ => ⟨rfl, rfl⟩) asid va
@[simp] theorem State.advance_translate (s : State) (i : Instr) (c : Cur) (asid va : Nat) :
    (s.advance i c).translate asid va = s.translate asid va := s.mapWarp_translate c.gang c.warp _ asid va
theorem State.mapGang_pagesHeld (s : State) (x : Nat) (u : Gang → Gang)
    (hp : ∀ G, (u G).place = G.place ∧ (u G).asid = G.asid) (asid : Nat) (pages : List Nat) (write : Bool) :
    (s.mapGang x u).pagesHeld asid pages write = s.pagesHeld asid pages write := by
  simp [State.pagesHeld, s.mapGang_translate x u hp]
@[simp] theorem State.mapWarp_pagesHeld (s : State) (x y : Nat) (u : Warp → Warp) (asid : Nat) (pages : List Nat) (write : Bool) :
    (s.mapWarp x y u).pagesHeld asid pages write = s.pagesHeld asid pages write := s.mapGang_pagesHeld x (·.mapWarp y u) (fun _ => ⟨rfl, rfl⟩) asid pages write
@[simp] theorem State.advance_pagesHeld (s : State) (i : Instr) (c : Cur) (asid : Nat) (pages : List Nat) (write : Bool) :
    (s.advance i c).pagesHeld asid pages write = s.pagesHeld asid pages write := s.mapWarp_pagesHeld c.gang c.warp _ asid pages write
theorem State.mapGang_accHeld (s : State) (x : Nat) (u : Gang → Gang)
    (hp : ∀ G, (u G).place = G.place ∧ (u G).asid = G.asid) (asid : Nat) (cells pages : List Nat) (write : Bool) :
    (s.mapGang x u).accHeld asid cells pages write = s.accHeld asid cells pages write := by
  have h : (s.mapGang x u).heldBack = s.heldBack := funext fun _ => s.mapGang_heldBack x u _
  simp only [State.accHeld, h, s.mapGang_pagesHeld x u hp]
@[simp] theorem State.mapWarp_accHeld (s : State) (x y : Nat) (u : Warp → Warp) (asid : Nat) (cells pages : List Nat) (write : Bool) :
    (s.mapWarp x y u).accHeld asid cells pages write = s.accHeld asid cells pages write := s.mapGang_accHeld x (·.mapWarp y u) (fun _ => ⟨rfl, rfl⟩) asid cells pages write
@[simp] theorem State.advance_accHeld (s : State) (i : Instr) (c : Cur) (asid : Nat) (cells pages : List Nat) (write : Bool) :
    (s.advance i c).accHeld asid cells pages write = s.accHeld asid cells pages write := s.mapWarp_accHeld c.gang c.warp _ asid cells pages write
theorem State.mapGang_cellAt (s : State) (x : Nat) (u : Gang → Gang)
    (hp : ∀ G, (u G).place = G.place ∧ (u G).asid = G.asid) (asid aper va : Nat) (k : Acc) :
    (s.mapGang x u).cellAt asid aper va k = s.cellAt asid aper va k := by
  simp [State.cellAt, s.mapGang_translate x u hp]
@[simp] theorem State.mapWarp_cellAt (s : State) (x y : Nat) (u : Warp → Warp) (asid aper va : Nat) (k : Acc) :
    (s.mapWarp x y u).cellAt asid aper va k = s.cellAt asid aper va k := s.mapGang_cellAt x (·.mapWarp y u) (fun _ => ⟨rfl, rfl⟩) asid aper va k
@[simp] theorem State.advance_cellAt (s : State) (i : Instr) (c : Cur) (asid aper va : Nat) (k : Acc) :
    (s.advance i c).cellAt asid aper va k = s.cellAt asid aper va k := s.mapWarp_cellAt c.gang c.warp _ asid aper va k
theorem State.mapGang_cellsAt (s : State) (x : Nat) (u : Gang → Gang)
    (hp : ∀ G, (u G).place = G.place ∧ (u G).asid = G.asid) (asid aper va n : Nat) (k : Acc) :
    (s.mapGang x u).cellsAt asid aper va n k = s.cellsAt asid aper va n k := by simp only [State.cellsAt, s.mapGang_translate x u hp, s.mapGang_cellAt x u hp]
@[simp] theorem State.mapWarp_cellsAt (s : State) (x y : Nat) (u : Warp → Warp) (asid aper va n : Nat) (k : Acc) :
    (s.mapWarp x y u).cellsAt asid aper va n k = s.cellsAt asid aper va n k := s.mapGang_cellsAt x (·.mapWarp y u) (fun _ => ⟨rfl, rfl⟩) asid aper va n k
@[simp] theorem State.advance_cellsAt (s : State) (i : Instr) (c : Cur) (asid aper va n : Nat) (k : Acc) :
    (s.advance i c).cellsAt asid aper va n k = s.cellsAt asid aper va n k := s.mapWarp_cellsAt c.gang c.warp _ asid aper va n k
theorem State.mapGang_lineFails (s : State) (x : Nat) (u : Gang → Gang)
    (hp : ∀ G, (u G).place = G.place ∧ (u G).asid = G.asid) (asid vline : Nat) :
    (s.mapGang x u).lineFails asid vline = s.lineFails asid vline := by
  simp [State.lineFails, s.mapGang_translate x u hp]
@[simp] theorem State.mapWarp_lineFails (s : State) (x y : Nat) (u : Warp → Warp) (asid vline : Nat) :
    (s.mapWarp x y u).lineFails asid vline = s.lineFails asid vline := s.mapGang_lineFails x (·.mapWarp y u) (fun _ => ⟨rfl, rfl⟩) asid vline
@[simp] theorem State.advance_lineFails (s : State) (i : Instr) (c : Cur) (asid vline : Nat) :
    (s.advance i c).lineFails asid vline = s.lineFails asid vline := s.mapWarp_lineFails c.gang c.warp _ asid vline
theorem State.mapGang_failedLines (s : State) (x : Nat) (u : Gang → Gang)
    (hp : ∀ G, (u G).place = G.place ∧ (u G).asid = G.asid) (asid va : Nat) (cells : List Nat) :
    (s.mapGang x u).failedLines asid va cells = s.failedLines asid va cells := by
  have h : (s.mapGang x u).lineFails asid = s.lineFails asid := funext fun _ => s.mapGang_lineFails x u hp asid _
  simp only [State.failedLines, h]
@[simp] theorem State.mapWarp_failedLines (s : State) (x y : Nat) (u : Warp → Warp) (asid va : Nat) (cells : List Nat) :
    (s.mapWarp x y u).failedLines asid va cells = s.failedLines asid va cells := s.mapGang_failedLines x (·.mapWarp y u) (fun _ => ⟨rfl, rfl⟩) asid va cells
@[simp] theorem State.advance_failedLines (s : State) (i : Instr) (c : Cur) (asid va : Nat) (cells : List Nat) :
    (s.advance i c).failedLines asid va cells = s.failedLines asid va cells := s.mapWarp_failedLines c.gang c.warp _ asid va cells
theorem State.mapGang_lineFault (s : State) (x : Nat) (u : Gang → Gang)
    (hp : ∀ G, (u G).place = G.place ∧ (u G).asid = G.asid) (asid va row : Nat) (cells : List Nat) (k : Acc) :
    (s.mapGang x u).lineFault asid va row cells k = s.lineFault asid va row cells k := by
  have h : (s.mapGang x u).lostCell = s.lostCell := funext fun _ => s.mapGang_lostCell x u _
  simp only [State.lineFault, h, s.mapGang_failedLines x u hp]
@[simp] theorem State.mapWarp_lineFault (s : State) (x y : Nat) (u : Warp → Warp) (asid va row : Nat) (cells : List Nat) (k : Acc) :
    (s.mapWarp x y u).lineFault asid va row cells k = s.lineFault asid va row cells k := s.mapGang_lineFault x (·.mapWarp y u) (fun _ => ⟨rfl, rfl⟩) asid va row cells k
@[simp] theorem State.advance_lineFault (s : State) (i : Instr) (c : Cur) (asid va row : Nat) (cells : List Nat) (k : Acc) :
    (s.advance i c).lineFault asid va row cells k = s.lineFault asid va row cells k := s.mapWarp_lineFault c.gang c.warp _ asid va row cells k
theorem State.mapGang_rowCells (s : State) (x : Nat) (u : Gang → Gang)
    (hp : ∀ G, (u G).place = G.place ∧ (u G).asid = G.asid) (t : Table) (row o n : Nat) (k : Acc) :
    (s.mapGang x u).rowCells t row o n k = s.rowCells t row o n k := by
  have k : (s.mapGang x u).containedCell = s.containedCell := funext fun _ => s.mapGang_containedCell x u _
  simp only [State.rowCells, k, s.mapGang_cellsAt x u hp]
@[simp] theorem State.mapWarp_rowCells (s : State) (x y : Nat) (u : Warp → Warp) (t : Table) (row o n : Nat) (k : Acc) :
    (s.mapWarp x y u).rowCells t row o n k = s.rowCells t row o n k := s.mapGang_rowCells x (·.mapWarp y u) (fun _ => ⟨rfl, rfl⟩) t row o n k
@[simp] theorem State.advance_rowCells (s : State) (i : Instr) (c : Cur) (t : Table) (row o n : Nat) (k : Acc) :
    (s.advance i c).rowCells t row o n k = s.rowCells t row o n k := s.mapWarp_rowCells c.gang c.warp _ t row o n k
theorem State.mapGang_curLen (s : State) (x : Nat) (u : Gang → Gang)
    (hp : ∀ G, (u G).place = G.place ∧ (u G).asid = G.asid) (t : Table) (row view : Nat) :
    (s.mapGang x u).curLen t row view = s.curLen t row view := by
  simp [State.curLen, s.mapGang_rowCells x u hp]
@[simp] theorem State.mapWarp_curLen (s : State) (x y : Nat) (u : Warp → Warp) (t : Table) (row view : Nat) :
    (s.mapWarp x y u).curLen t row view = s.curLen t row view := s.mapGang_curLen x (·.mapWarp y u) (fun _ => ⟨rfl, rfl⟩) t row view
@[simp] theorem State.advance_curLen (s : State) (i : Instr) (c : Cur) (t : Table) (row view : Nat) :
    (s.advance i c).curLen t row view = s.curLen t row view := s.mapWarp_curLen c.gang c.warp _ t row view
theorem State.mapGang_loadBytes (s : State) (x : Nat) (u : Gang → Gang)
    (hp : ∀ G, (u G).place = G.place ∧ (u G).asid = G.asid) (t : Table) (row o view : Nat) (cells : List Nat) :
    (s.mapGang x u).loadBytes t row o view cells = s.loadBytes t row o view cells := by
  simp [State.loadBytes, s.mapGang_curLen x u hp]
@[simp] theorem State.mapWarp_loadBytes (s : State) (x y : Nat) (u : Warp → Warp) (t : Table) (row o view : Nat) (cells : List Nat) :
    (s.mapWarp x y u).loadBytes t row o view cells = s.loadBytes t row o view cells := s.mapGang_loadBytes x (·.mapWarp y u) (fun _ => ⟨rfl, rfl⟩) t row o view cells
@[simp] theorem State.advance_loadBytes (s : State) (i : Instr) (c : Cur) (t : Table) (row o view : Nat) (cells : List Nat) :
    (s.advance i c).loadBytes t row o view cells = s.loadBytes t row o view cells := s.mapWarp_loadBytes c.gang c.warp _ t row o view cells
theorem State.mapGang_rowRead (s : State) (x : Nat) (u : Gang → Gang)
    (hp : ∀ G, (u G).place = G.place ∧ (u G).asid = G.asid) (asid : Nat) (r : DWord) (o n : Nat) :
    (s.mapGang x u).rowRead asid r o n = s.rowRead asid r o n := by
  simp [State.rowRead, s.mapGang_rowCells x u hp, s.mapGang_lineFault x u hp, s.mapGang_loadBytes x u hp]
@[simp] theorem State.mapWarp_rowRead (s : State) (x y : Nat) (u : Warp → Warp) (asid : Nat) (r : DWord) (o n : Nat) :
    (s.mapWarp x y u).rowRead asid r o n = s.rowRead asid r o n := s.mapGang_rowRead x (·.mapWarp y u) (fun _ => ⟨rfl, rfl⟩) asid r o n
@[simp] theorem State.advance_rowRead (s : State) (i : Instr) (c : Cur) (asid : Nat) (r : DWord) (o n : Nat) :
    (s.advance i c).rowRead asid r o n = s.rowRead asid r o n := s.mapWarp_rowRead c.gang c.warp _ asid r o n
theorem State.mapGang_qdescQ (s : State) (x : Nat) (u : Gang → Gang)
    (hp : ∀ G, (u G).place = G.place ∧ (u G).asid = G.asid) (d : DWord) :
    (s.mapGang x u).qdesc? d = s.qdesc? d := by
  simp [State.qdesc?, s.mapGang_rowRead x u hp]
@[simp] theorem State.mapWarp_qdescQ (s : State) (x y : Nat) (u : Warp → Warp) (d : DWord) :
    (s.mapWarp x y u).qdesc? d = s.qdesc? d := s.mapGang_qdescQ x (·.mapWarp y u) (fun _ => ⟨rfl, rfl⟩) d
@[simp] theorem State.advance_qdescQ (s : State) (i : Instr) (c : Cur) (d : DWord) :
    (s.advance i c).qdesc? d = s.qdesc? d := s.mapWarp_qdescQ c.gang c.warp _ d
theorem State.mapGang_rcbQ (s : State) (x : Nat) (u : Gang → Gang)
    (hp : ∀ G, (u G).place = G.place ∧ (u G).asid = G.asid) (r : DWord) :
    (s.mapGang x u).rcb? r = s.rcb? r := by
  simp [State.rcb?, s.mapGang_rowRead x u hp]
@[simp] theorem State.mapWarp_rcbQ (s : State) (x y : Nat) (u : Warp → Warp) (r : DWord) :
    (s.mapWarp x y u).rcb? r = s.rcb? r := s.mapGang_rcbQ x (·.mapWarp y u) (fun _ => ⟨rfl, rfl⟩) r
@[simp] theorem State.advance_rcbQ (s : State) (i : Instr) (c : Cur) (r : DWord) :
    (s.advance i c).rcb? r = s.rcb? r := s.mapWarp_rcbQ c.gang c.warp _ r
theorem State.mapGang_pathFrom (s : State) (x : Nat) (u : Gang → Gang) (hp : ∀ G, (u G).place = G.place ∧ (u G).asid = G.asid)
    (n : Nat) (r : DWord) : (s.mapGang x u).pathFrom n r = s.pathFrom n r := by
  induction n generalizing r with
  | zero => rfl
  | succ n ih => simp only [State.pathFrom, s.mapGang_rcbQ x u hp, ih]

theorem State.mapGang_regionPath (s : State) (x : Nat) (u : Gang → Gang)
    (hp : ∀ G, (u G).place = G.place ∧ (u G).asid = G.asid) (r : DWord) :
    (s.mapGang x u).regionPath r = s.regionPath r := s.mapGang_pathFrom x u hp 8 r
@[simp] theorem State.mapWarp_regionPath (s : State) (x y : Nat) (u : Warp → Warp) (r : DWord) :
    (s.mapWarp x y u).regionPath r = s.regionPath r := s.mapGang_regionPath x (·.mapWarp y u) (fun _ => ⟨rfl, rfl⟩) r
@[simp] theorem State.advance_regionPath (s : State) (i : Instr) (c : Cur) (r : DWord) :
    (s.advance i c).regionPath r = s.regionPath r := s.mapWarp_regionPath c.gang c.warp _ r
theorem State.mapGang_inSubtree (s : State) (x : Nat) (u : Gang → Gang)
    (hp : ∀ G, (u G).place = G.place ∧ (u G).asid = G.asid) (r top : DWord) :
    (s.mapGang x u).inSubtree r top = s.inSubtree r top := by
  simp [State.inSubtree, s.mapGang_regionPath x u hp]
@[simp] theorem State.mapWarp_inSubtree (s : State) (x y : Nat) (u : Warp → Warp) (r top : DWord) :
    (s.mapWarp x y u).inSubtree r top = s.inSubtree r top := s.mapGang_inSubtree x (·.mapWarp y u) (fun _ => ⟨rfl, rfl⟩) r top
@[simp] theorem State.advance_inSubtree (s : State) (i : Instr) (c : Cur) (r top : DWord) :
    (s.advance i c).inSubtree r top = s.inSubtree r top := s.mapWarp_inSubtree c.gang c.warp _ r top
@[simp] theorem State.mapGang_loopOf (s : State) (x : Nat) (u : Gang → Gang) (core : Nat) :
    (s.mapGang x u).loopOf core = s.loopOf core := (rfl)
@[simp] theorem State.mapWarp_loopOf (s : State) (x y : Nat) (u : Warp → Warp) (core : Nat) :
    (s.mapWarp x y u).loopOf core = s.loopOf core := s.mapGang_loopOf x _ core
@[simp] theorem State.advance_loopOf (s : State) (i : Instr) (c : Cur) (core : Nat) :
    (s.advance i c).loopOf core = s.loopOf core := s.mapGang_loopOf c.gang _ core
theorem State.mapGang_readQuad (s : State) (x : Nat) (u : Gang → Gang)
    (hp : ∀ G, (u G).place = G.place ∧ (u G).asid = G.asid) (site : Site) (asid q : Nat) :
    (s.mapGang x u).readQuad site asid q = s.readQuad site asid q := by
  have h : (s.mapGang x u).readCell 0 = s.readCell 0 := funext fun _ => s.mapGang_readCell x u 0 _
  have k : (s.mapGang x u).containedCell = s.containedCell := funext fun _ => s.mapGang_containedCell x u _
  simp only [State.readQuad, State.mapGang_quadCells, h, k, s.mapGang_lineFault x u hp]
@[simp] theorem State.mapWarp_readQuad (s : State) (x y : Nat) (u : Warp → Warp) (site : Site) (asid q : Nat) :
    (s.mapWarp x y u).readQuad site asid q = s.readQuad site asid q := s.mapGang_readQuad x (·.mapWarp y u) (fun _ => ⟨rfl, rfl⟩) site asid q
@[simp] theorem State.advance_readQuad (s : State) (i : Instr) (c : Cur) (site : Site) (asid q : Nat) :
    (s.advance i c).readQuad site asid q = s.readQuad site asid q := s.mapWarp_readQuad c.gang c.warp _ site asid q
theorem State.mapGang_fetchQuad (s : State) (x : Nat) (u : Gang → Gang)
    (hp : ∀ G, (u G).place = G.place ∧ (u G).asid = G.asid) (core asid q : Nat) :
    (s.mapGang x u).fetchQuad core asid q = s.fetchQuad core asid q := by
  simp [State.fetchQuad, s.mapGang_readQuad x u hp]
@[simp] theorem State.mapWarp_fetchQuad (s : State) (x y : Nat) (u : Warp → Warp) (core asid q : Nat) :
    (s.mapWarp x y u).fetchQuad core asid q = s.fetchQuad core asid q := s.mapGang_fetchQuad x (·.mapWarp y u) (fun _ => ⟨rfl, rfl⟩) core asid q
@[simp] theorem State.advance_fetchQuad (s : State) (i : Instr) (c : Cur) (core asid q : Nat) :
    (s.advance i c).fetchQuad core asid q = s.fetchQuad core asid q := s.mapWarp_fetchQuad c.gang c.warp _ core asid q
theorem State.mapGang_targetCode (s : State) (x : Nat) (u : Gang → Gang)
    (hp : ∀ G, (u G).place = G.place ∧ (u G).asid = G.asid) (core asid : Nat) (pc : Word) :
    (s.mapGang x u).targetCode core asid pc = s.targetCode core asid pc := by
  simp [State.targetCode, s.mapGang_fetchQuad x u hp]
@[simp] theorem State.mapWarp_targetCode (s : State) (x y : Nat) (u : Warp → Warp) (core asid : Nat) (pc : Word) :
    (s.mapWarp x y u).targetCode core asid pc = s.targetCode core asid pc := s.mapGang_targetCode x (·.mapWarp y u) (fun _ => ⟨rfl, rfl⟩) core asid pc
@[simp] theorem State.advance_targetCode (s : State) (i : Instr) (c : Cur) (core asid : Nat) (pc : Word) :
    (s.advance i c).targetCode core asid pc = s.targetCode core asid pc := s.mapWarp_targetCode c.gang c.warp _ core asid pc
theorem State.mapGang_hentry (s : State) (x : Nat) (u : Gang → Gang)
    (hp : ∀ G, (u G).place = G.place ∧ (u G).asid = G.asid) (asid : Nat) :
    (s.mapGang x u).hentry asid = s.hentry asid := by
  unfold State.hentry
  generalize (0xFF01 : Nat) = q
  rw [State.mapGang_tableQ]
  cases s.table? 0 q with
  | none => rfl
  | some t => exact congrArg (fun z => BitVec.ofNat 32 ((Option.map leNat z).getD 0)) (s.mapGang_rowRead x u hp 0 (t.ref asid) 0 4)
@[simp] theorem State.mapWarp_hentry (s : State) (x y : Nat) (u : Warp → Warp) (asid : Nat) :
    (s.mapWarp x y u).hentry asid = s.hentry asid := s.mapGang_hentry x (·.mapWarp y u) (fun _ => ⟨rfl, rfl⟩) asid
@[simp] theorem State.advance_hentry (s : State) (i : Instr) (c : Cur) (asid : Nat) :
    (s.advance i c).hentry asid = s.hentry asid := s.mapWarp_hentry c.gang c.warp _ asid
theorem State.mapGang_laneRow (s : State) (x : Nat) (u : Gang → Gang)
    (hp : ∀ G, (u G).place = G.place ∧ (u G).asid = G.asid) (asid l : Nat) (rr : DWord) (o e : Nat) (k : Acc) :
    (s.mapGang x u).laneRow asid l rr o e k = s.laneRow asid l rr o e k := by
  simp [State.laneRow, s.mapGang_rowCells x u hp]
@[simp] theorem State.mapWarp_laneRow (s : State) (x y : Nat) (u : Warp → Warp) (asid l : Nat) (rr : DWord) (o e : Nat) (k : Acc) :
    (s.mapWarp x y u).laneRow asid l rr o e k = s.laneRow asid l rr o e k := s.mapGang_laneRow x (·.mapWarp y u) (fun _ => ⟨rfl, rfl⟩) asid l rr o e k
@[simp] theorem State.advance_laneRow (s : State) (i : Instr) (c : Cur) (asid l : Nat) (rr : DWord) (o e : Nat) (k : Acc) :
    (s.advance i c).laneRow asid l rr o e k = s.laneRow asid l rr o e k := s.mapWarp_laneRow c.gang c.warp _ asid l rr o e k
@[simp] theorem State.mapGang_monitorQ (s : State) (x : Nat) (u : Gang → Gang) (g w l : Nat) :
    (s.mapGang x u).monitor? g w l = s.monitor? g w l := (rfl)
@[simp] theorem State.mapWarp_monitorQ (s : State) (x y : Nat) (u : Warp → Warp) (g w l : Nat) :
    (s.mapWarp x y u).monitor? g w l = s.monitor? g w l := s.mapGang_monitorQ x _ g w l
@[simp] theorem State.advance_monitorQ (s : State) (i : Instr) (c : Cur) (g w l : Nat) :
    (s.advance i c).monitor? g w l = s.monitor? g w l := s.mapGang_monitorQ c.gang _ g w l
theorem State.mapGang_engCells (s : State) (x : Nat) (u : Gang → Gang)
    (hp : ∀ G, (u G).place = G.place ∧ (u G).asid = G.asid) (t : Table) (row o n : Nat) (k : Acc) :
    (s.mapGang x u).engCells t row o n k = s.engCells t row o n k := by
  simp [State.engCells, s.mapGang_rowCells x u hp, s.mapGang_lineFault x u hp]
@[simp] theorem State.mapWarp_engCells (s : State) (x y : Nat) (u : Warp → Warp) (t : Table) (row o n : Nat) (k : Acc) :
    (s.mapWarp x y u).engCells t row o n k = s.engCells t row o n k := s.mapGang_engCells x (·.mapWarp y u) (fun _ => ⟨rfl, rfl⟩) t row o n k
@[simp] theorem State.advance_engCells (s : State) (i : Instr) (c : Cur) (t : Table) (row o n : Nat) (k : Acc) :
    (s.advance i c).engCells t row o n k = s.engCells t row o n k := s.mapWarp_engCells c.gang c.warp _ t row o n k
@[simp] theorem State.mapGang_streamTable (s : State) (x : Nat) (u : Gang → Gang) (asid : Nat) (h : Word) :
    (s.mapGang x u).streamTable asid h = s.streamTable asid h := (rfl)
@[simp] theorem State.mapWarp_streamTable (s : State) (x y : Nat) (u : Warp → Warp) (asid : Nat) (h : Word) :
    (s.mapWarp x y u).streamTable asid h = s.streamTable asid h := s.mapGang_streamTable x _ asid h
@[simp] theorem State.advance_streamTable (s : State) (i : Instr) (c : Cur) (asid : Nat) (h : Word) :
    (s.advance i c).streamTable asid h = s.streamTable asid h := s.mapGang_streamTable c.gang _ asid h
theorem State.mapGang_streamWords (s : State) (x : Nat) (u : Gang → Gang)
    (hp : ∀ G, (u G).place = G.place ∧ (u G).asid = G.asid) (t : Table) :
    (s.mapGang x u).streamWords t = s.streamWords t := by
  have h (q : Path) : (s.mapGang x u).readCell q = s.readCell q := funext fun _ => s.mapGang_readCell x u q _
  simp only [State.streamWords, h, s.mapGang_engCells x u hp]
@[simp] theorem State.mapWarp_streamWords (s : State) (x y : Nat) (u : Warp → Warp) (t : Table) :
    (s.mapWarp x y u).streamWords t = s.streamWords t := s.mapGang_streamWords x (·.mapWarp y u) (fun _ => ⟨rfl, rfl⟩) t
@[simp] theorem State.advance_streamWords (s : State) (i : Instr) (c : Cur) (t : Table) :
    (s.advance i c).streamWords t = s.streamWords t := s.mapWarp_streamWords c.gang c.warp _ t
theorem State.mapGang_loadStream (s : State) (x : Nat) (u : Gang → Gang)
    (hp : ∀ G, (u G).place = G.place ∧ (u G).asid = G.asid) (t : Table) (sr : Nat → DWord) (w : Nat) (pc : Word) (owed : List (Nat × Word × Flt)) :
    (s.mapGang x u).loadStream t sr w pc owed = s.loadStream t sr w pc owed := by
  simp [State.loadStream, s.mapGang_streamWords x u hp, State.streamFlt]
@[simp] theorem State.mapWarp_loadStream (s : State) (x y : Nat) (u : Warp → Warp) (t : Table) (sr : Nat → DWord) (w : Nat) (pc : Word) (owed : List (Nat × Word × Flt)) :
    (s.mapWarp x y u).loadStream t sr w pc owed = s.loadStream t sr w pc owed := s.mapGang_loadStream x (·.mapWarp y u) (fun _ => ⟨rfl, rfl⟩) t sr w pc owed
@[simp] theorem State.advance_loadStream (s : State) (i : Instr) (c : Cur) (t : Table) (sr : Nat → DWord) (w : Nat) (pc : Word) (owed : List (Nat × Word × Flt)) :
    (s.advance i c).loadStream t sr w pc owed = s.loadStream t sr w pc owed := s.mapWarp_loadStream c.gang c.warp _ t sr w pc owed
theorem State.mapGang_runFault (s : State) (x : Nat) (u : Gang → Gang)
    (hp : ∀ G, (u G).place = G.place ∧ (u G).asid = G.asid) (t : Table) (a n : Nat) (k : Acc) :
    (s.mapGang x u).runFault t a n k = s.runFault t a n k := by
  simp [State.runFault, s.mapGang_cellAt x u hp]
@[simp] theorem State.mapWarp_runFault (s : State) (x y : Nat) (u : Warp → Warp) (t : Table) (a n : Nat) (k : Acc) :
    (s.mapWarp x y u).runFault t a n k = s.runFault t a n k := s.mapGang_runFault x (·.mapWarp y u) (fun _ => ⟨rfl, rfl⟩) t a n k
@[simp] theorem State.advance_runFault (s : State) (i : Instr) (c : Cur) (t : Table) (a n : Nat) (k : Acc) :
    (s.advance i c).runFault t a n k = s.runFault t a n k := s.mapWarp_runFault c.gang c.warp _ t a n k
theorem State.mapGang_runCells (s : State) (x : Nat) (u : Gang → Gang)
    (hp : ∀ G, (u G).place = G.place ∧ (u G).asid = G.asid) (t : Table) (a n : Nat) (k : Acc) :
    (s.mapGang x u).runCells t a n k = s.runCells t a n k := by
  simp [State.runCells, s.mapGang_cellsAt x u hp, s.mapGang_lineFault x u hp, s.mapGang_runFault x u hp]
@[simp] theorem State.mapWarp_runCells (s : State) (x y : Nat) (u : Warp → Warp) (t : Table) (a n : Nat) (k : Acc) :
    (s.mapWarp x y u).runCells t a n k = s.runCells t a n k := s.mapGang_runCells x (·.mapWarp y u) (fun _ => ⟨rfl, rfl⟩) t a n k
@[simp] theorem State.advance_runCells (s : State) (i : Instr) (c : Cur) (t : Table) (a n : Nat) (k : Acc) :
    (s.advance i c).runCells t a n k = s.runCells t a n k := s.mapWarp_runCells c.gang c.warp _ t a n k
theorem State.mapGang_runBytes (s : State) (x : Nat) (u : Gang → Gang)
    (hp : ∀ G, (u G).place = G.place ∧ (u G).asid = G.asid) (asid : Nat) (r : Word) (a : Int) (n view : Nat) :
    (s.mapGang x u).runBytes asid r a n view = s.runBytes asid r a n view := by
  have h (q : Path) : (s.mapGang x u).readCell q = s.readCell q := funext fun _ => s.mapGang_readCell x u q _
  simp only [State.runBytes, h, State.mapGang_handleQ, s.mapGang_runCells x u hp]
@[simp] theorem State.mapWarp_runBytes (s : State) (x y : Nat) (u : Warp → Warp) (asid : Nat) (r : Word) (a : Int) (n view : Nat) :
    (s.mapWarp x y u).runBytes asid r a n view = s.runBytes asid r a n view := s.mapGang_runBytes x (·.mapWarp y u) (fun _ => ⟨rfl, rfl⟩) asid r a n view
@[simp] theorem State.advance_runBytes (s : State) (i : Instr) (c : Cur) (asid : Nat) (r : Word) (a : Int) (n view : Nat) :
    (s.advance i c).runBytes asid r a n view = s.runBytes asid r a n view := s.mapWarp_runBytes c.gang c.warp _ asid r a n view
theorem State.mapGang_streamEntry (s : State) (x : Nat) (u : Gang → Gang)
    (hp : ∀ G, (u G).place = G.place ∧ (u G).asid = G.asid) (asid : Nat) (p : Producer) (w : DWord) :
    (s.mapGang x u).streamEntry asid p w = s.streamEntry asid p w := by
  simp [State.streamEntry, s.mapGang_runBytes x u hp]
@[simp] theorem State.mapWarp_streamEntry (s : State) (x y : Nat) (u : Warp → Warp) (asid : Nat) (p : Producer) (w : DWord) :
    (s.mapWarp x y u).streamEntry asid p w = s.streamEntry asid p w := s.mapGang_streamEntry x (·.mapWarp y u) (fun _ => ⟨rfl, rfl⟩) asid p w
@[simp] theorem State.advance_streamEntry (s : State) (i : Instr) (c : Cur) (asid : Nat) (p : Producer) (w : DWord) :
    (s.advance i c).streamEntry asid p w = s.streamEntry asid p w := s.mapWarp_streamEntry c.gang c.warp _ asid p w
@[simp] theorem State.mapGang_objQ (s : State) (x : Nat) (u : Gang → Gang) (asid : Nat) (h : Word) :
    (s.mapGang x u).obj? asid h = s.obj? asid h := (rfl)
@[simp] theorem State.mapWarp_objQ (s : State) (x y : Nat) (u : Warp → Warp) (asid : Nat) (h : Word) :
    (s.mapWarp x y u).obj? asid h = s.obj? asid h := s.mapGang_objQ x _ asid h
@[simp] theorem State.advance_objQ (s : State) (i : Instr) (c : Cur) (asid : Nat) (h : Word) :
    (s.advance i c).obj? asid h = s.obj? asid h := s.mapGang_objQ c.gang _ asid h
@[simp] theorem State.mapGang_objAt (s : State) (x : Nat) (u : Gang → Gang) (asid slot : Nat) :
    (s.mapGang x u).objAt asid slot = s.objAt asid slot := (rfl)
@[simp] theorem State.mapWarp_objAt (s : State) (x y : Nat) (u : Warp → Warp) (asid slot : Nat) :
    (s.mapWarp x y u).objAt asid slot = s.objAt asid slot := s.mapGang_objAt x _ asid slot
@[simp] theorem State.advance_objAt (s : State) (i : Instr) (c : Cur) (asid slot : Nat) :
    (s.advance i c).objAt asid slot = s.objAt asid slot := s.mapGang_objAt c.gang _ asid slot
@[simp] theorem State.mapGang_pchan (s : State) (x : Nat) (u : Gang → Gang) (p : Nat) :
    (s.mapGang x u).pchan p = s.pchan p := (rfl)
@[simp] theorem State.mapWarp_pchan (s : State) (x y : Nat) (u : Warp → Warp) (p : Nat) :
    (s.mapWarp x y u).pchan p = s.pchan p := s.mapGang_pchan x _ p
@[simp] theorem State.advance_pchan (s : State) (i : Instr) (c : Cur) (p : Nat) :
    (s.advance i c).pchan p = s.pchan p := s.mapGang_pchan c.gang _ p
@[simp] theorem State.mapGang_dramReqQ (s : State) (x : Nat) (u : Gang → Gang) (id : Nat) :
    (s.mapGang x u).dramReq? id = s.dramReq? id := (rfl)
@[simp] theorem State.mapWarp_dramReqQ (s : State) (x y : Nat) (u : Warp → Warp) (id : Nat) :
    (s.mapWarp x y u).dramReq? id = s.dramReq? id := s.mapGang_dramReqQ x _ id
@[simp] theorem State.advance_dramReqQ (s : State) (i : Instr) (c : Cur) (id : Nat) :
    (s.advance i c).dramReq? id = s.dramReq? id := s.mapGang_dramReqQ c.gang _ id
@[simp] theorem State.mapGang_coreSt (s : State) (x : Nat) (u : Gang → Gang) (core : Nat) :
    (s.mapGang x u).coreSt core = s.coreSt core := (rfl)
@[simp] theorem State.mapWarp_coreSt (s : State) (x y : Nat) (u : Warp → Warp) (core : Nat) :
    (s.mapWarp x y u).coreSt core = s.coreSt core := s.mapGang_coreSt x _ core

@[simp] theorem State.advance_laneAccs (s : State) (i : Instr) (c d : Cur) (e : Nat) (k : Acc) (ref : Nat → DWord) (off : Nat → Nat) :
    (s.advance i c).laneAccs d e k ref off = s.laneAccs d e k ref off := by simp [State.laneAccs]

@[simp] theorem State.advance_keyCheck (s : State) (i j : Instr) (c d : Cur) (h : DWord) (kt e aux : Nat) :
    (s.advance i c).keyCheck d j h kt e aux = s.keyCheck d j h kt e aux := by simp [State.keyCheck]

@[simp] theorem State.advance_watchRows (s : State) (i : Instr) (c d : Cur) (a b : BitVec 7) :
    (s.advance i c).watchRows d a b = s.watchRows d a b := by simp [State.watchRows]

@[simp] theorem State.advance_jumpFault (s : State) (i : Instr) (c d : Cur) (tgt : Nat → Word) :
    (s.advance i c).jumpFault d tgt = s.jumpFault d tgt := by simp [State.jumpFault]

@[simp] theorem State.advance_badLane (s : State) (i : Instr) (c : Cur) (as : List LaneAcc) :
    badLane (s.advance i c) as = badLane s as := by simp [badLane, LaneAcc.lineFault]

@[simp] theorem State.advance_isBad (s : State) (i : Instr) (c : Cur) (a : LaneAcc) :
    a.isBad (s.advance i c) = a.isBad s := by simp [LaneAcc.isBad, LaneAcc.lineFault]

@[simp] theorem State.advance_lostLane (s : State) (i : Instr) (c : Cur) (as : List LaneAcc) :
    lostLane (s.advance i c) as = lostLane s as := (rfl)

@[simp] theorem State.advance_matAccs (s : State) (i : Instr) (c d : Cur) (e : Nat) (k : Acc) (a b : BitVec 7) :
    (s.advance i c).matAccs d e k a b = s.matAccs d e k a b := by simp [State.matAccs]

/-- No check fails where a page has no key (20 R343, R346). -/
theorem State.lineFails_plain {s : State} {t : Tlb} {asid vline : Nat} (h : s.translate asid (64 * vline) = .ok t) (hk : t.key = 0) :
    s.lineFails asid vline = false := by simp [State.lineFails, h, hk]

end Sys2Proof.Machine
end

