-- ==== Sys2Proof/Laws/Traffic.lean ====
section
/-! SUPPORT. What accesses leave behind: each of the shared operations that note accesses changes the caches, the walks and the lost
lines of the machine, and nothing else. -/

namespace Sys2Proof.Machine

/-- A machine differs from another in its caches, its walks and its lost lines alone. -/
def State.Traced (s t : State) : Prop := ∃ k ws ls, t = { s.putCaches k with walks := ws, lost := ls }

theorem State.Traced.refl (s : State) : s.Traced s := ⟨s.caches, s.walks, s.lost, rfl⟩

theorem State.Traced.trans {s t u : State} (h : s.Traced t) (k : t.Traced u) : s.Traced u := by
  obtain ⟨_, _, _, rfl⟩ := h
  obtain ⟨_, _, _, rfl⟩ := k
  exact ⟨_, _, _, rfl⟩

/-- Steps that leave traces alone leave traces alone together. -/
theorem State.Traced.foldl {α : Type} {f : State → α → State} (h : ∀ (s : State) (x : α), s.Traced (f s x)) (s : State) (xs : List α) :
    s.Traced (xs.foldl f s) := by
  induction xs generalizing s with
  | nil => exact .refl s
  | cons x xs ih => exact (h s x).trans (ih (f s x))

theorem State.putCaches_traced (s : State) (k : Caches) : s.Traced (s.putCaches k) := ⟨k, s.walks, s.lost, rfl⟩
theorem State.touch_traced (s : State) (core ctx : Nat) (acc : Option Nat) (write : Bool) (bs : List Block) :
    s.Traced (s.touch core ctx acc write bs) := s.putCaches_traced _
theorem State.touchDie_traced (s : State) (die : Nat) (write : Bool) (bs : List Block) : s.Traced (s.touchDie die write bs) :=
  s.putCaches_traced _
theorem State.wakeAll_traced (s : State) (cells : List Nat) : s.Traced (s.wakeAll cells) := s.putCaches_traced _
theorem State.retire_traced (s : State) (lines : List Nat) : s.Traced (s.retire lines) := ⟨s.caches, s.walks, _, rfl⟩
theorem State.setWalks_traced (s : State) (ws : List Walk) : s.Traced { s with walks := ws } := ⟨s.caches, ws, s.lost, rfl⟩

/-- A walk that starts reads its entries (20 R328, R346). -/
theorem State.startWalk_traced (s : State) (w : Walk) : s.Traced (s.startWalk w).1 := by
  unfold State.startWalk
  dsimp only
  split
  · exact s.touchDie_traced _ _ _
  · exact (s.touchDie_traced _ _ _).trans (State.retire_traced _ _)

theorem State.startWalks_traced (s : State) : s.Traced s.startWalks := by
  refine State.Traced.foldl (fun t k => ?_) s _
  split
  · exact .refl t
  · split
    · exact .refl t
    · exact (t.startWalk_traced _).trans (State.setWalks_traced _ _)

/-- A miss starts or joins a walk (20 R328). -/
theorem State.noteWalk_traced (s : State) (site : Site) (asid va : Nat) : s.Traced (s.noteWalk site asid va) := by
  unfold State.noteWalk
  split
  · exact .refl s
  · split
    · exact .refl s
    · split
      · exact s.setWalks_traced _
      · exact (s.setWalks_traced _).trans (State.startWalks_traced _)

theorem State.noteWalks_traced (s : State) (site : Site) (asid va n : Nat) : s.Traced (s.noteWalks site asid va n) :=
  .foldl (fun t _ => t.noteWalk_traced _ _ _) s _

theorem State.noteMisses_traced (s : State) (site : Site) (asid : Nat) (vas : List Nat) : s.Traced (s.noteMisses site asid vas) :=
  .foldl (fun t _ => t.noteWalk_traced _ _ _) s _

/-- The accesses of lanes (20 R328, R331 to R341). -/
theorem State.noteAccs_traced (s : State) (c : Cur) (acc : Option Nat) (as : List LaneAcc) (write : Bool) :
    s.Traced (s.noteAccs c acc as write) :=
  (s.touch_traced _ _ _ _ _).trans (.foldl (fun t _ => t.noteWalks_traced _ _ _ _) _ _)

/-- What a machine that differs in its traces alone has in common with the other. -/
theorem State.Traced.fields {s t : State} (h : s.Traced t) : t.mem = s.mem ∧ t.stale = s.stale ∧ t.sent = s.sent ∧ t.gangs = s.gangs ∧
    t.tables = s.tables ∧ t.nextId = s.nextId ∧ t.monitors = s.monitors ∧ t.idx = s.idx ∧ t.cur = s.cur ∧ t.cores = s.cores ∧
    t.tlb = s.tlb ∧ t.ctlWrites = s.ctlWrites := by
  obtain ⟨_, _, _, rfl⟩ := h
  exact ⟨rfl, rfl, rfl, rfl, rfl, rfl, rfl, rfl, rfl, rfl, rfl, rfl⟩

@[simp] theorem State.noteAccs_mem (s : State) (c : Cur) (acc : Option Nat) (as : List LaneAcc) (write : Bool) :
    (s.noteAccs c acc as write).mem = s.mem := (s.noteAccs_traced c acc as write).fields.1
@[simp] theorem State.noteAccs_stale (s : State) (c : Cur) (acc : Option Nat) (as : List LaneAcc) (write : Bool) :
    (s.noteAccs c acc as write).stale = s.stale := (s.noteAccs_traced c acc as write).fields.2.1
@[simp] theorem State.noteAccs_sent (s : State) (c : Cur) (acc : Option Nat) (as : List LaneAcc) (write : Bool) :
    (s.noteAccs c acc as write).sent = s.sent := (s.noteAccs_traced c acc as write).fields.2.2.1
@[simp] theorem State.noteAccs_gangs (s : State) (c : Cur) (acc : Option Nat) (as : List LaneAcc) (write : Bool) :
    (s.noteAccs c acc as write).gangs = s.gangs := (s.noteAccs_traced c acc as write).fields.2.2.2.1
@[simp] theorem State.noteAccs_gang (s : State) (c : Cur) (acc : Option Nat) (as : List LaneAcc) (write : Bool) (g : Nat) :
    (s.noteAccs c acc as write).gang g = s.gang g := by simp [State.gang]
@[simp] theorem State.noteAccs_warp (s : State) (c : Cur) (acc : Option Nat) (as : List LaneAcc) (write : Bool) (g w : Nat) :
    (s.noteAccs c acc as write).warp g w = s.warp g w := by simp only [State.warp, State.noteAccs_gang]
@[simp] theorem State.noteAccs_tables (s : State) (c : Cur) (acc : Option Nat) (as : List LaneAcc) (write : Bool) :
    (s.noteAccs c acc as write).tables = s.tables := (s.noteAccs_traced c acc as write).fields.2.2.2.2.1
@[simp] theorem State.noteAccs_nextId (s : State) (c : Cur) (acc : Option Nat) (as : List LaneAcc) (write : Bool) :
    (s.noteAccs c acc as write).nextId = s.nextId := (s.noteAccs_traced c acc as write).fields.2.2.2.2.2.1

/-- Accesses to spans of an agent of a die. -/
theorem State.noteSpans_traced (s : State) (site : Site) (xs : List Span) : s.Traced (s.noteSpans site xs) :=
  (State.Traced.foldl (f := fun u (x : Span) => u.touchDie (site.die.getD 0) x.write (s.rowBlocks x.tab x.row x.off x.len x.view))
    (fun t _ => t.touchDie_traced _ _ _) s xs).trans (.foldl (fun t _ => t.noteWalks_traced _ _ _ _) _ _)

/-- Accesses to spans that wait (20 R328, 24 R386). -/
theorem State.wakeSpans_traced (s : State) (xs : List Span) : s.Traced (s.wakeSpans xs) :=
  (State.Traced.foldl (f := fun t (p : Nat × Nat) => t.noteWalk s.site p.1 p.2) (fun t _ => t.noteWalk_traced _ _ _) s
    (spanEnds xs)).trans (State.wakeAll_traced _ _)

/-- The accesses of an engine operation. -/
theorem State.noteOp_traced (s : State) (o : Work) (ws : List EngWrite) : s.Traced (s.noteOp o ws) := by
  unfold State.noteOp
  dsimp only
  refine .trans ?_ (.trans (State.noteSpans_traced _ _ _) (State.wakeAll_traced _ _))
  split
  · exact .refl s
  · exact s.noteSpans_traced _ _

theorem State.wakeOp_traced (s : State) (o : Work) : s.Traced (s.wakeOp o) :=
  (s.wakeSpans_traced _).trans (State.wakeAll_traced _ _)

/-- The accesses of the control plane to rows (20 R328, R338, R346). -/
theorem State.noteRow_traced (s : State) (x : Span) : s.Traced (s.noteRow x) := by
  have walked : s.Traced (if !(s.tlb.any fun t => t.cache.serves s.site && t.covers x.tab.asid (x.tab.va x.row x.off))
      then (s.walkReads x.tab.asid (x.tab.va x.row x.off)).foldl (fun t pa => t.touchDie (homeDie pa) false [s.entryBlock pa]) s else s) := by
    split
    · exact .foldl (fun t _ => t.touchDie_traced _ _ _) s _
    · exact .refl s
  unfold State.noteRow
  dsimp only
  split
  · exact walked.trans (State.retire_traced _ _)
  · split
    · exact (walked.trans (State.touchDie_traced _ _ _ _)).trans (State.retire_traced _ _)
    · exact walked.trans (State.touchDie_traced _ _ _ _)

theorem State.noteRows_traced (s : State) (xs : List Span) : s.Traced (s.noteRows xs) := .foldl State.noteRow_traced s xs

/-- The accesses of an index engine's next lane (13 R262). -/
theorem State.noteIdx_traced (s : State) (o : Work) : s.Traced (s.noteIdx o) := s.noteSpans_traced _ _

@[simp] theorem State.noteIdx_mem (s : State) (o : Work) : (s.noteIdx o).mem = s.mem := (s.noteIdx_traced o).fields.1
@[simp] theorem State.noteIdx_stale (s : State) (o : Work) : (s.noteIdx o).stale = s.stale := (s.noteIdx_traced o).fields.2.1
@[simp] theorem State.noteIdx_gangs (s : State) (o : Work) : (s.noteIdx o).gangs = s.gangs := (s.noteIdx_traced o).fields.2.2.2.1
@[simp] theorem State.noteIdx_tables (s : State) (o : Work) : (s.noteIdx o).tables = s.tables := (s.noteIdx_traced o).fields.2.2.2.2.1
@[simp] theorem State.noteIdx_idx (s : State) (o : Work) : (s.noteIdx o).idx = s.idx := (s.noteIdx_traced o).fields.2.2.2.2.2.2.2.1
@[simp] theorem State.noteRows_mem (s : State) (xs : List Span) : (s.noteRows xs).mem = s.mem := (s.noteRows_traced xs).fields.1
@[simp] theorem State.noteRows_gangs (s : State) (xs : List Span) : (s.noteRows xs).gangs = s.gangs := (s.noteRows_traced xs).fields.2.2.2.1

end Sys2Proof.Machine
end

