-- ==== Sys2Proof/Tests/Slice0.lean ====
section
/-! SUPPORT. The model's own tests: words written from the spec's encodings, the checks of well-formedness, and for each
statement a state and operands that meet its hypotheses. -/

namespace Sys2Proof.Tests
open Sys2Proof.Machine
set_option Elab.async false

/-! ### Decoding -/

/-- Whether the words decode to the instruction. -/
def reads (x : Word × Word × Instr) : Bool :=
  match decodeWord x.1 x.2.1 with
  | .ok i => decide (i = x.2.2)
  | .error _ => false

/-- 01 R22, R24: `iadd.i32 v4, v5, s3`, bit by bit: MAJ 1, U, TY 0, D 4, A 5, B 3. -/
theorem test_word_integer : decodeWord 0b0000001_1_000_0000100_0000101_0000011 0 = .ok (.iadd 1 0 4 5 3) := by decide
/-- 01 R29: `icmp.i64 f2, d4, d6`: MAJ 10, U 0, TY 2, zero, F 2, A 4, B 6. -/
theorem test_word_compare : decodeWord 0b0001010_0_010_00000_10_0000100_0000110 0 = .ok (.icmp 0 2 2 4 6) := by decide
/-- 01 R35: `addi`-form: MAJ 24, SUB 0, IMM8 -1, D 12, A 13 (the spec's worked encoding). -/
theorem test_word_immediate : decodeWord 0b0011000_000_11111111_0001100_0001101 0 = .ok (.iaddi 0 255 12 13) := by decide
/-- 01 R30: `fadd.f32.rne v8, v9, v10`: MAJ 48, TY 0, rounding 0 (the spec's worked encoding). -/
theorem test_word_float : decodeWord 0b0110000_00_00_0001000_0001001_0001010 0 = .ok (.fadd 0 0 8 9 10) := by decide
/-- 01 R32: `fcvt.f16x2.f32.sat v3, v4`: MAJ 59, CV 2, D 3, A 4, SR 0, SAT 1, rounding 0. -/
theorem test_word_convert : decodeWord 0b0111011_0010_0000011_0000100_0_1_00000 0 = .ok (.fcvt 2 3 4 0 1 0) := by decide
/-- 01 R35: `shfl.xor`: MAJ 64, MIN 3. -/
theorem test_word_cross_lane : decodeWord 0b1000000_00_11_0000001_0000010_0000011 0 = .ok (.shfl 3 1 2 3) := by decide
/-- 01 R35: `mset`: MAJ 72, m 3, k 4, n 5, layout 2. -/
theorem test_word_matrix : decodeWord 0b1001000_011_100_101_10_0000000_0000000 0 = .ok (.mset 3 4 5 2) := by decide
/-- 01 R23: `bra`: MAJ 88, SLT 2, OFF -1. -/
theorem test_word_branch : decodeWord 0b1011000_10_11111111111111111111111 0 = .ok (.bra 2 0x7FFFFF) := by decide
/-- 01 R35: `rejoin`: MAJ 92, B 9, and its X word with AUX: slot 1, displacement 3. -/
theorem test_word_rejoin :
    decodeWord 0b1011100_0000_0000000_0000000_0001001 0b000_00_0000_0000000_01_00000000000011 = .ok (.rejoin 9 0x4003) := by decide
/-- 01 R31: `ldl.e4m3 v7, v8, v9`: MAJ 104, FMT 9. -/
theorem test_word_kernel_memory : decodeWord 0b1101000_1001_0000111_0001000_0001001 0 = .ok (.ldl 9 7 8 9) := by decide
/-- 01 R35: `cpl.b2.fin`: MAJ 41, batch tag 2, OP 2, C 5, AUX 0x20. -/
theorem test_word_engine :
    decodeWord 0b0101001_00_10_0000001_0000010_0000011 0b000_00_0010_0000101_0000000000100000 = .ok (.cpl 2 1 2 3 2 5 0x20) := by decide
/-- 01 R35: `ldk.w32.n32.dev.acq`: MAJ 110, FMT 0, SC 6, ORD 1, key type 1, C 4, AUX 8. -/
theorem test_word_keyed :
    decodeWord 0b1101110_0000_0000001_0000010_0000000 0b110_01_0001_0000100_0000000000001000 = .ok (.ldk 0 1 2 6 1 1 4 8) := by decide
/-- 01 R35: `amo.add.w32.die.ar`, whose X word begins like a paired MAJ (R26): MAJ 70, MIN 0, SC 5, ORD 3, OP 0, AUX 4. -/
theorem test_word_atomic :
    decodeWord 0b1000110_0000_0000001_0000010_0000011 0b101_11_0000_0000000_0000000000000100 = .ok (.amo 0 1 2 3 5 3 0 4) := by decide
/-- 01 R35: `rcall.dev.rlx`: MAJ 124, SC 6, ORD 0, C 7, method 9. -/
theorem test_word_object :
    decodeWord 0b1111100_0000_0000010_0000100_0000000 0b110_00_0000_0000111_0000000000_001001 = .ok (.rcall 2 4 6 0 7 9) := by decide
/-- 01 R35: `srd` of status register 0x25: MAJ 35, SUB 0, IMM8, D. -/
theorem test_word_status : decodeWord 0b0100011_000_00100101_0000100_0000000 0 = .ok (.srd 0x25 4) := by decide
/-- 01 R27: `rep 8, da, 2`: MAJ 127, CNT 7, STEP 6, STRIDE 1. -/
theorem test_word_rep : decodeWord 0b1111111_000111_110_001_0000000000000 0 = .ok (.rep 7 6 1) := by decide
/-- 01 R35: `trap 5`: MAJ 101. -/
theorem test_word_trap : decodeWord 0b1100101_000_00000101_0000000_0000000 0 = .ok (.trap 5) := by decide

/-- Words built from the fields of spec/opcode_table.json and of the opcode map (01 R35), with the instructions they stand for. -/
def words1 : List (Word × Word × Instr) := [
  (0x00000000, 0x00000000, .nop),
  (0x0341030A, 0x00000000, .iadd 1 2 4 6 10),
  (0x0541030A, 0x00000000, .isub 1 2 4 6 10),
  (0x0741030A, 0x00000000, .iaddc 1 2 4 6 10),
  (0x0941030A, 0x00000000, .imul 1 2 4 6 10),
  (0x0B41030A, 0x00000000, .imulh 1 2 4 6 10),
  (0x0D41030A, 0x00000000, .imad 1 2 4 6 10),
  (0x0F41030A, 0x00000000, .imin 1 2 4 6 10),
  (0x1141030A, 0x00000000, .imax 1 2 4 6 10),
  (0x12410300, 0x00000000, .iabs 2 4 6),
  (0x1540830A, 0x00000000, .icmp 1 2 2 6 10),
  (0x1741030A, 0x00000000, .andR 1 2 4 6 10),
  (0x1941030A, 0x00000000, .orR 1 2 4 6 10),
  (0x1B41030A, 0x00000000, .xorR 1 2 4 6 10),
  (0x1D41030A, 0x00000000, .andnR 1 2 4 6 10),
  (0x1F41030A, 0x00000000, .shl 1 2 4 6 10),
  (0x2141030A, 0x00000000, .shr 1 2 4 6 10),
  (0x2341030A, 0x00000000, .sar 1 2 4 6 10),
  (0x2541030A, 0x00000000, .rot 1 2 4 6 10),
  (0x26410300, 0x00000000, .popc 2 4 6),
  (0x28410300, 0x00000000, .clz 2 4 6),
  (0x2A410300, 0x00000000, .brev 2 4 6),
  (0x2D41030A, 0x00000000, .bfx 1 2 4 6 10),
  (0x2F41030A, 0x00000000, .bfi 1 2 4 6 10),
  (0x30A70206, 0x00000000, .iaddi 2 156 4 6),
  (0x32A70206, 0x00000000, .andi 2 156 4 6)]

theorem test_words1 : words1.all reads = true := by decide +kernel

/-- Words built from the fields of spec/opcode_table.json and of the opcode map (01 R35), with the instructions they stand for. -/
def words2 : List (Word × Word × Instr) := [
  (0x34A70206, 0x00000000, .ori 2 156 4 6),
  (0x36A70206, 0x00000000, .xori 2 156 4 6),
  (0x38A70206, 0x00000000, .shli 2 156 4 6),
  (0x3AA70206, 0x00000000, .shri 2 156 4 6),
  (0x3CA70206, 0x00000000, .sari 2 156 4 6),
  (0x3EA70106, 0x00000000, .icmpi 2 156 2 6),
  (0x40670200, 0x00000000, .movi 1 156 4),
  (0x42210300, 0x00000000, .mov 0 1 4 6),
  (0x4541030A, 0x00000000, .sel 1 2 4 6 10),
  (0x46004200, 0x00000000, .srd 1 4),
  (0x46020200, 0x00000000, .srdCyc 4),
  (0x48034006, 0x00000000, .swr 13 6),
  (0x4802C006, 0x00000000, .swrWstat 6),
  (0x48030006, 0x00000000, .swrSlim 6),
  (0x48044006, 0x00000000, .swrTrappc 6),
  (0x4A210300, 0x00000000, .v2s 1 4 6),
  (0x4C21030A, 0x00000000, .salu 1 4 6 10),
  (0x4EE70200, 0x00000000, .smovi 3 156 4),
  (0x50270000, 0x00000000, .regsWbase 156),
  (0x50670000, 0x00000000, .regsXacq 156),
  (0x50A70000, 0x00000000, .regsXrel 156),
  (0x50C00200, 0x00000000, .regsXqry 4),
  (0x5261030A, 0x008C0128, .cpl 3 4 6 10 1 12 296),
  (0x54210300, 0x00800128, .cpb 1 4 6 1 296),
  (0x57024000, 0x00000000, .waitc 4 9),
  (0x59808200, 0x00000000, .qpop 6 2 4)]

theorem test_words2 : words2.all reads = true := by decide +kernel

/-- Words built from the fields of spec/opcode_table.json and of the opcode map (01 R35), with the instructions they stand for. -/
def words3 : List (Word × Word × Instr) := [
  (0x5B804006, 0x00000000, .qpush 6 1 6),
  (0x5C000006, 0x00000000, .spldLoad 6),
  (0x5C400000, 0x00000000, .spldStop),
  (0x5C800200, 0x00000000, .spldQry 4),
  (0x5E000006, 0x00000000, .dfence 6),
  (0x6121030A, 0x00000000, .fadd 2 1 4 6 10),
  (0x6321030A, 0x00000000, .fsub 2 1 4 6 10),
  (0x6521030A, 0x00000000, .fmul 2 1 4 6 10),
  (0x6721030A, 0x00000000, .ffma 2 1 4 6 10),
  (0x6921030A, 0x00000000, .fmin 2 1 4 6 10),
  (0x6B21030A, 0x00000000, .fmax 2 1 4 6 10),
  (0x6D40030A, 0x00000000, .fcmp 2 2 6 10),
  (0x6F21030A, 0x00000000, .fmod 2 1 4 6 10),
  (0x71210300, 0x00000000, .frint 2 1 4 6),
  (0x72210302, 0x00000000, .f2i 0 1 4 6 2),
  (0x74A10303, 0x00000000, .i2f 1 1 4 6 3),
  (0x76410323, 0x00000000, .fcvt 2 4 6 0 1 3),
  (0x79210302, 0x00000000, .sfu 2 1 4 6 2),
  (0x7B210300, 0x00000000, .welf 2 1 4 6),
  (0x7D210300, 0x00000000, .wmrg 2 1 4 6),
  (0x7E204000, 0x00000000, .fence 0 1 1),
  (0x8061030A, 0x00000000, .shfl 3 4 6 10),
  (0x8240C206, 0x00000000, .shfli 1 3 4 6),
  (0x84A1030A, 0x00000000, .shpush 0 5 4 6 10),
  (0x8761030A, 0x00000000, .vote 2 3 4 6 10),
  (0x88E1030A, 0x00000000, .lred 1 3 4 6 10)]

theorem test_words3 : words3.all reads = true := by decide +kernel

/-- Words built from the fields of spec/opcode_table.json and of the opcode map (01 R35), with the instructions they stand for. -/
def words4 : List (Word × Word × Instr) := [
  (0x8BA1030A, 0x00000000, .lscan 3 1 4 6 10),
  (0x8C21030A, 0xB8800128, .amo 1 4 6 10 5 3 1 296),
  (0x8E21030A, 0xB8020128, .cas 1 4 6 10 5 3 2 296),
  (0x90E58000, 0x00000000, .mset 3 4 5 2),
  (0x9241030A, 0x00000000, .mld 2 4 6 10),
  (0x9441030A, 0x00000000, .mst 2 4 6 10),
  (0x96010300, 0x00000000, .mmov 4 6),
  (0x98010000, 0x00000000, .midn 4),
  (0x9A010300, 0x00000000, .mtrn 4 6),
  (0x9C21030A, 0x00000000, .madd 1 4 6 10),
  (0x9E61030A, 0x00000000, .mmul 0 1 1 4 6 10),
  (0xA041030A, 0x00000000, .mchol 2 4 6 10),
  (0xA241030A, 0x00000000, .mlup 2 4 6 10),
  (0xA561030A, 0x00000000, .mtrs 1 0 1 1 4 6 10),
  (0xA6C1030A, 0x00000000, .msolv 1 2 4 6 10),
  (0xA8210300, 0x00000000, .mred 1 4 6),
  (0xAA20030A, 0x008C0040, .xmma 1 6 10 1 12 64),
  (0xAC000300, 0x00000000, .xaccZero 6),
  (0xAC21030A, 0x00000000, .xaccRd 4 6 10),
  (0xAC41030A, 0x00000000, .xaccWr 4 6 10),
  (0xAC610300, 0x00000000, .xaccTile 4 6),
  (0xAE01030A, 0xBA0C0155, .tgath 4 6 10 5 3 4 12 341),
  (0xB17FFFFF, 0x00000000, .bra 2 8388607),
  (0xB3800005, 0x00000000, .call 3 5),
  (0xB4000000, 0x00000000, .ret),
  (0xB6000300, 0x00000000, .jmpr 6)]

theorem test_words4 : words4.all reads = true := by decide +kernel

/-- Words built from the fields of spec/opcode_table.json and of the opcode map (01 R35), with the instructions they stand for. -/
def words5 : List (Word × Word × Instr) := [
  (0xB800000A, 0x00004003, .rejoin 10 16387),
  (0xBA010300, 0x0000C005, .fspawn 4 6 49157),
  (0xBC000000, 0x00000000, .fend),
  (0xBE000000, 0x00000000, .exit),
  (0xC0094000, 0x00000000, .fenter 37),
  (0xC2094000, 0x00000000, .fleave 37),
  (0xC4A70000, 0x00000000, .bar 2 156),
  (0xC600030A, 0x00000000, .mwaitWatch 6 10),
  (0xC6210300, 0x00000000, .mwaitWait 4 6),
  (0xC8000000, 0x00000000, .yield),
  (0xCA094000, 0x00000000, .trap 37),
  (0xCC000000, 0x00000000, .rett),
  (0xCE010300, 0xB80C0000, .lnch 4 6 5 3 12),
  (0xD041030A, 0x00000000, .ldl 2 4 6 10),
  (0xD241030A, 0x00000000, .stl 2 4 6 10),
  (0xD441030A, 0x00000000, .ldf 2 4 6 10),
  (0xD641030A, 0x00000000, .stf 2 4 6 10),
  (0xD841030A, 0x00000000, .ldr 2 4 6 10),
  (0xDA41030A, 0x00000000, .str 2 4 6 10),
  (0xDC410300, 0xB88C0128, .ldk 2 4 6 5 3 1 12 296),
  (0xDE410300, 0xB88C0128, .stk 2 4 6 5 3 1 12 296),
  (0xE0A70206, 0x00000000, .ldri 2 156 4 6),
  (0xE2A70206, 0x00000000, .stri 2 156 4 6),
  (0xE4A70206, 0x00000000, .ldli 2 156 4 6),
  (0xE6A70206, 0x00000000, .stli 2 156 4 6),
  (0xE814C200, 0x00000000, .frmLd 5 3 4)]

theorem test_words5 : words5.all reads = true := by decide +kernel

/-- Words built from the fields of spec/opcode_table.json and of the opcode map (01 R35), with the instructions they stand for. -/
def words6 : List (Word × Word × Instr) := [
  (0xE854C006, 0x00000000, .frmSt 5 3 6),
  (0xEA000206, 0x00000000, .tileDef 4 6),
  (0xEA400206, 0x00000000, .tileQry 4 6),
  (0xEA808006, 0x00000000, .tileSet 1 6),
  (0xEAC00006, 0x00000000, .tileFree 6),
  (0xEC010300, 0xB88C0000, .tget 4 6 5 3 1 12),
  (0xEE21030A, 0xB88C0128, .tins 1 4 6 10 5 3 1 12 296),
  (0xF0010300, 0xB88C0000, .tdel 4 6 5 3 1 12),
  (0xF201030A, 0xB88C0128, .tupdVal 4 6 10 5 3 1 12 296),
  (0xF221030A, 0xB88C0000, .tupdFmt 4 6 10 5 3 1 12),
  (0xF4A10300, 0xB88C0000, .tseek 1 1 4 6 5 3 1 12),
  (0xF601030A, 0x00000000, .tcurStep 4 6 10),
  (0xF6200300, 0x00000000, .tcurClose 6),
  (0xF6410300, 0x00000000, .tcurKey 4 6),
  (0xF8010300, 0xB80C0001, .rcall 4 6 5 3 12 1),
  (0xFA01030A, 0xB80C0001, .rreadRead 4 6 10 5 3 12 1),
  (0xFA21000A, 0xB80C0000, .rreadWait 4 10 5 3 12),
  (0xFA410000, 0xB80C0000, .rreadStat 4 5 3 12),
  (0xFC000000, 0x00000000, .syncIsync),
  (0xFC20030A, 0x00000000, .syncIcinv 6 10),
  (0xFC40030A, 0x00000000, .syncDcwb 6 10),
  (0xFC60030A, 0x00000000, .syncDcinv 6 10),
  (0xFE614000, 0x00000000, .rep 12 1 2)]

theorem test_words6 : words6.all reads = true := by decide +kernel
/-! ### Well-formedness: an ill-formed term for each check, and the code that it raises -/

def illFormed : List (Instr × InsnCode) := [
  (.iadd 0 4 0 0 0, .min), (.iadd 0 2 1 0 0, .opnd), (.isub 0 3 0 1 0, .opnd), (.imul 0 2 0 0 1, .opnd), (.andR 1 0 0 0 64, .opnd),
  (.iabs 1 0 0, .min), (.iabs 5 0 0, .min), (.popc 4 0 0, .min), (.clz 2 1 0, .opnd), (.icmp 0 5 0 0 0, .min), (.icmp 0 2 0 1 0, .opnd),
  (.iaddi 4 0 0 0, .sub), (.shli 2 0 0 3, .opnd), (.icmpi 6 0 0 0, .sub), (.icmpi 3 0 0 1, .opnd),
  (.mov 0 1 1 0, .opnd), (.mov 0 1 0 1, .opnd), (.mov 1 0 0 64, .opnd), (.sel 1 0 0 0 64, .opnd),
  (.v2s 3 0 0, .min), (.v2s 0 64 0, .opnd), (.v2s 1 0 1, .opnd), (.v2s 2 0 1, .rsv),
  (.salu 14 0 0 0, .min), (.salu 0 64 0 0, .opnd), (.salu 0 0 64 0, .opnd), (.salu 0 0 0 64, .opnd), (.salu 13 0 0 1, .rsv),
  (.smovi 0 0 64, .opnd), (.regsXacq 0, .rsv), (.regsXacq 13, .rsv), (.regsXrel 0, .rsv),
  (.cpl 0 0 0 0 4 0 0, .xop), (.cpl 0 0 1 0 0 0 0, .opnd), (.cpb 4 0 0 0 0, .min), (.cpb 0 0 0 11 0, .xop), (.cpb 0 64 0 0 0, .opnd),
  (.cpb 0 0 64 0 0, .opnd), (.waitc 7 0, .rsv), (.qpop 0 3 0, .rsv), (.qpop 0 1 1, .opnd), (.qpop 0 2 2, .opnd), (.qpush 0 3 0, .rsv),
  (.qpush 0 1 1, .opnd), (.spldLoad 64, .opnd), (.dfence 64, .opnd)]

def illFormed2 : List (Instr × InsnCode) := [
  (.fadd 1 0 1 0 0, .opnd), (.fmul 1 0 0 1 0, .opnd), (.ffma 1 0 0 0 1, .opnd), (.fmin 0 2 0 0 0, .min), (.fmax 1 0 1 0 0, .opnd),
  (.fcmp 2 0 0 0, .min), (.fcmp 1 0 1 0, .opnd), (.fmod 0 3 0 0 0, .min), (.fmod 1 0 1 0 0, .opnd), (.fmod 1 2 0 0 1, .opnd),
  (.fmod 0 0 0 0 1, .rsv), (.frint 1 0 1 0, .opnd), (.f2i 1 0 0 1 0, .opnd), (.f2i 0 0 1 0 2, .opnd), (.f2i 0 0 0 0 4, .rsv),
  (.f2i 2 0 0 0 2, .rsv), (.i2f 1 0 1 0 0, .opnd), (.i2f 0 0 0 1 3, .opnd), (.i2f 0 0 0 0 4, .rsv), (.i2f 3 0 0 0 3, .rsv),
  (.fcvt 14 0 0 0 0 0, .min), (.fcvt 0 0 1 0 0 0, .opnd), (.fcvt 1 1 0 0 0 0, .opnd), (.fcvt 1 0 0 1 0 0, .rsv), (.fcvt 7 0 0 0 1 0, .rsv),
  (.fcvt 12 0 0 0 0 1, .rsv), (.fcvt 2 0 0 0 0 4, .rsv), (.sfu 1 0 0 0 0, .min), (.sfu 0 1 0 0 5, .min), (.sfu 0 0 0 0 8, .rsv),
  (.welf 2 0 0 0, .min), (.wmrg 1 0 1 0, .opnd), (.fence 1 0 4, .rsv), (.shpush 0 1 0 0 0, .rsv), (.vote 0 0 0 0 64, .opnd),
  (.vote 0 3 64 0 0, .opnd), (.vote 0 0 1 0 0, .rsv), (.lred 3 2 0 0 0, .min), (.lscan 0 3 1 0 0, .opnd), (.lred 0 0 0 0 64, .opnd),
  (.amo 10 0 0 0 0 0 0 0, .min), (.amo 0 0 0 0 0 0 2 0, .xop), (.amo 0 0 1 0 0 0 0 0, .opnd), (.amo 0 1 0 0 0 0 1 0, .opnd),
  (.cas 2 0 0 0 0 0 0 0, .min), (.cas 0 0 1 0 0 0 0 0, .opnd), (.cas 1 1 0 0 0 0 0 0, .opnd)]

def illFormed3 : List (Instr × InsnCode) := [
  (.mset 0 1 1 0, .rsv), (.mset 1 7 1 0, .rsv), (.mset 1 1 0 0, .rsv), (.mset 1 1 1 3, .rsv), (.mld 1 0 0 0, .min), (.mst 0 0 1 0, .opnd),
  (.madd 3 0 0 0, .min), (.mchol 0 0 0 64, .opnd), (.msolv 0 0 0 0 64, .opnd), (.mtrs 0 0 0 0 0 0 1, .rsv), (.mred 3 0 0, .min),
  (.xmma 4 0 0 0 0 0, .min), (.xmma 0 0 0 2 0 0, .xop), (.xmma 0 64 0 0 0 0, .opnd), (.xmma 0 0 0 0 1 0, .rsv), (.xaccZero 64, .opnd),
  (.xaccRd 0 64 0, .opnd), (.xaccTile 64 0, .opnd), (.tgath 0 0 0 0 2 0 0 0, .xop), (.tgath 0 0 0 0 0 5 0 0, .xop),
  (.tgath 1 0 0 0 0 0 0 0, .opnd), (.tgath 0 0 64 0 0 0 0 0, .opnd), (.tgath 0 1 0 0 0 2 0 0, .opnd),
  (.bra 0 0, .slot), (.call 0 0, .slot), (.rejoin 0 0, .slot), (.rejoin 64 0x4000, .opnd), (.fspawn 0 0 0, .slot), (.bar 3 0, .sub),
  (.bar 0 16, .rsv), (.mwaitWatch 1 0, .opnd), (.syncDcwb 1 0, .opnd), (.lnch 0 0 0 1 0, .xop), (.lnch 0 1 0 0 0, .opnd),
  (.lnch 0 0 0 0 64, .opnd), (.ldl 11 0 0 0, .min), (.stf 1 1 0 0, .opnd), (.ldr 11 0 0 0, .min), (.str 0 0 1 0, .opnd),
  (.ldr 2 2 0 0, .opnd), (.ldri 0 0 0 1, .opnd), (.stri 1 0 1 0, .opnd), (.ldli 2 0 2 0, .opnd), (.ldk 11 0 0 0 0 0 0 0, .min),
  (.ldk 1 1 0 0 0 0 0 0, .opnd), (.ldk 0 0 0 0 2 0 0 0, .xop), (.stk 0 0 0 0 1 0 0 0, .xop), (.stk 0 0 0 0 0 5 0 0, .xop),
  (.tget 1 0 0 0 0 0, .opnd), (.tget 0 0 0 0 0 64, .opnd), (.tins 0 0 2 0 0 0 4 0 0, .opnd), (.tupdVal 0 0 0 0 0 5 0 0, .xop),
  (.tseek 0 2 0 0 0 0 0 0, .min), (.tseek 0 0 0 0 0 2 0 0, .xop), (.tileDef 64 0, .opnd), (.tileQry 0 64, .opnd), (.tcurStep 1 0 0, .opnd),
  (.rcall 0 0 5 0 0 0, .xop), (.rcall 1 0 6 0 0 0, .opnd), (.rcall 0 0 6 1 0 0, .xop), (.rcall 0 0 6 0 64 0, .opnd),
  (.rreadRead 2 0 0 6 0 0 0, .opnd), (.rreadRead 0 0 1 6 0 0 0, .opnd), (.rreadWait 0 0 6 2 0, .xop), (.rreadStat 2 6 0 0, .opnd)]

/-- Every ill-formed term is refused with its code, by the check and by the decoder's word for it where that word is the term's own. -/
theorem test_ill_formed : (illFormed ++ illFormed2 ++ illFormed3).all (fun x => x.1.check == some x.2 && !x.1.wf) = true := by
  decide +kernel

/-- 01 R34: of several causes the first of the table is raised: here INSN.MIN before INSN.OPND before INSN.RSV. -/
theorem test_first_cause : Instr.check (.salu 14 64 0 1) = some .min ∧ Instr.check (.salu 13 64 0 1) = some .opnd := by decide
/-- 01 R24, R35: fields that a row does not use must be zero, and unlisted MIN, SUB and OP values are refused by name. -/
theorem test_reserved_words :
    decodeWord 0x00000001 0 = .error .rsv ∧ decodeWord 0b0100011_001_00000000_0000000_0000000 0 = .error .sub ∧
    decodeWord 0b1100011_0010_0000000_0000000_0000000 0 = .error .min ∧
    decodeWord 0b1011100_0000_0000000_0000000_0000000 0b000_00_0001_0000000_01_00000000000000 = .error .xop ∧
    decodeWord 0b1011100_0000_0000000_0000000_0000000 0b001_00_0000_0000000_01_00000000000000 = .error .xop := by decide
/-- 01 R26: a paired MAJ in slot 3 is INSN.PAIR. -/
theorem test_pair_in_slot_3 : Machine.decodeSlot [0, 0, 0, 0xB8000000] 3 = .error .pair := by decide

/-! ### States for the witnesses -/

/-- Whether an issue reaches its instruction's effect, as a computation. -/
def issuesB (i : Instr) (c : Cur) (s : State) : Bool :=
  decide (s.cur = some c) && c.set.isSublist laneIds && c.issue.isSublist c.set && (s.earlyFault i c).isNone && !c.issue.isEmpty &&
    !s.entryWait i c && !s.offWindow i c

theorem issues_of {i : Instr} {c : Cur} {s : State} (h : issuesB i c s = true) : Issues i c s := by
  simp only [issuesB, Bool.and_eq_true, decide_eq_true_eq, List.isSublist_iff_sublist, Option.isNone_iff_eq_none,
    Bool.not_eq_true', List.isEmpty_eq_false_iff] at h
  obtain ⟨⟨⟨⟨⟨⟨a, b⟩, d⟩, e⟩, f⟩, g⟩, k⟩ := h
  exact ⟨a, b, d, e, f, g, k⟩

/-- Issues for each instruction of a list. -/
theorem issues_all {is : List Instr} {c : Cur} {s : State} (h : is.all (fun i => issuesB i c s) = true) :
    ∀ i ∈ is, Issues i c s := fun i hi => issues_of (List.all_eq_true.mp h i hi)

/-- A fibre at slot 1 of the quad at 0x1000. -/
def fib : Fibre :=
  { pc := 0x1004, w := 0, flags := 0, age := 0, readyAt := 0, yieldAt := none, fence := none, rep := none, inH := false, saved := none }

/-- Lanes 0 to 7 hold fibres. -/
def lane (l : Nat) : Lane :=
  { slot := if l < 8 then .live else .free, fib := fib, regs := List.replicate 128 0, bank := List.replicate 16 0, latc := 0, sptr := 64,
    sptrSeen := 64, trapaux := 0, faddr := 0, stack := [] }

/-- A warp with two extra blocks. -/
def warp : Warp :=
  { (default : Warp) with x := 2, lanes := (List.range 64).map lane, sregs := List.replicate 64 0, ms := 0, slim := 4096,
                          issued := List.replicate 8 0 }

/-- A running gang of one warp, of ASID 0. -/
def gang : Gang :=
  { (default : Gang) with phase := .running, asid := 0, warps := [warp], wgs := [default], queues := List.replicate 8 [],
                          launch := { (default : LaunchRec) with stack := 4096, cmem := 65536, firn := 65536 } }

/-- Lanes 3 and 5 are the issue set, and lane 3 is ISSUE. -/
def cur : Cur := { gang := 0, warp := 0, set := [3, 5], issue := [3], pc := 0x1004, stall := 0, guard := none, rep := none, core := 0, before := none }

/-- A state with that issue under way, whose warp and gang may differ as told, and whose code at 0x1000 is one quad of nops. -/
def stG (f : Warp → Warp) (g : Gang → Gang) : State :=
  { State.reset with
    gangs := [g { gang with warps := [f warp] }], cur := some cur, cores := [{ core := 0, cycle := 1000, xacq := [] }],
    tlb := [{ asid := 0, vbase := 0x1000, size := 4096, pbase := 0x1000, key := 0, r := true, w := true, x := true, cache := .die 0 }] }
def st : State := stG id id
/-- The state with some registers of lane 3 set. -/
def regs3 (xs : List (Nat × Word)) (W : Warp) : Warp :=
  W.mapLanes [3] fun _ L => { L with regs := xs.foldl (fun r x => r.set x.1 x.2) L.regs }
/-- The state with some s-registers set. -/
def sregs (xs : List (Nat × DWord)) (W : Warp) : Warp := { W with sregs := xs.foldl (fun r x => r.set x.1 x.2) W.sregs }
/-- A warp in handler mode. -/
def inHandler (W : Warp) : Warp := { W with handler := true }

/-- Outside the lanes of `warp` nothing holds a fibre. -/
theorem holds_lt (f : Warp → Warp) (hf : (f warp).lanes.length = 64) (l : Nat) (h : ((f warp).lane l).holds = true) : l < 64 := by
  by_contra hl
  have : (f warp).lane l = default := by
    simp only [Warp.lane]
    rw [List.getElem?_eq_none (by omega)]
    rfl
  rw [this] at h
  exact absurd h (by decide)

/-! ### Witnesses -/

theorem witness_integer : ∀ i ∈ ([.iadd 0 0 4 5 6, .isub 1 2 4 6 8, .imul 0 1 4 5 6, .imulh 0 3 4 6 8, .imad 0 0 4 5 6, .imin 0 0 4 5 6,
    .imax 0 0 4 5 6, .iabs 2 4 6] : List Instr), Issues i cur st := issues_all (by decide +kernel)

theorem witness_logic : ∀ i ∈ ([.andR 0 0 4 5 6, .orR 1 0 4 5 6, .xorR 0 0 4 5 6, .andnR 0 2 4 6 8, .popc 0 4 5, .clz 1 4 5, .brev 2 4 6,
    .shl 0 0 4 5 6, .shr 0 0 4 5 6, .sar 0 0 4 5 6, .rot 0 0 4 5 6, .bfx 0 0 4 5 6, .bfi 0 0 4 5 6] : List Instr), Issues i cur st :=
  issues_all (by decide +kernel)

theorem witness_immediate : ∀ i ∈ ([.iaddi 0 255 4 5, .andi 0 1 4 5, .ori 0 1 4 5, .xori 1 1 4 5, .shli 0 1 4 5, .shri 0 1 4 5,
    .sari 2 31 4 6] : List Instr), Issues i cur st := issues_all (by decide +kernel)

theorem witness_guard_reading : tyWidth 0 = 32 ∧ 0 < 2 ^ tyWidth 0 ∧ 2 ^ 32 - 1 < 2 ^ tyWidth 0 ∧
    IsCompare (tyWidth 0) 0 (2 ^ 32 - 1) 0 := by unfold IsCompare Flags4; decide +kernel
theorem witness_compare : ∀ i ∈ ([.icmp 0 0 2 5 6, .icmpi 0 9 1 5, .iaddc 0 0 4 5 6] : List Instr), Issues i cur st :=
  issues_all (by decide +kernel)

theorem witness_moves : ∀ i ∈ ([.movi 0 128 4, .movi 1 128 4, .mov 0 0 4 5, .mov 1 1 4 5, .sel 0 1 4 5 6] : List Instr), Issues i cur st :=
  issues_all (by decide +kernel)

theorem witness_uniform : ∀ i ∈ ([.salu 0 4 5 6, .salu 8 4 5 6, .smovi 7 1 4, .v2s 0 4 5, .v2s 1 4 6, .v2s 2 4 0] : List Instr),
    Issues i cur st := issues_all (by decide +kernel)

theorem witness_status : (∀ i ∈ ([.srd 0 4, .srd 0x40 4, .srdCyc 4, .swr 0x0D 5, .swr 0x0F 5, .swrWstat 5, .swrSlim 5] : List Instr),
      Issues i cur st) ∧
    ∀ i ∈ ([.srd 0x10 4, .swr 0x10 5, .swr 0x12 5, .swr 0x13 5, .swrTrappc 5] : List Instr), Issues i cur (stG inHandler id) :=
  ⟨issues_all (by decide +kernel), issues_all (by decide +kernel)⟩

theorem witness_float : ∀ i ∈ ([.fadd 0 0 4 5 6, .fadd 1 0 4 6 8, .fsub 2 0 4 5 6, .fmul 0 1 4 5 6, .ffma 3 2 4 5 6, .fmin 0 0 4 5 6,
    .fmax 0 1 4 5 6, .fmod 0 2 4 5 6, .frint 0 3 4 5, .fcmp 1 2 4 6] : List Instr), Issues i cur st := issues_all (by decide +kernel)

theorem witness_conversions : ∀ i ∈ ([.f2i 0 0 4 5 0, .f2i 1 0 4 6 2, .f2i 2 0 4 5 1, .i2f 0 0 4 5 0, .i2f 3 0 4 5 1, .fcvt 0 4 6 0 0 0,
    .fcvt 1 4 6 0 0 0, .fcvt 6 4 8 1 1 3, .fcvt 7 4 6 0 0 0, .sfu 0 0 4 5 0, .welf 0 0 4 8, .wmrg 1 0 4 12] : List Instr),
    Issues i cur st := issues_all (by decide +kernel)

theorem witness_cross_lane : ∀ i ∈ ([.shfl 3 4 5 6, .shfli 1 2 4 5, .shpush 1 2 4 5 6, .shpush 0 0 4 5 6, .vote 1 0 0 5 6, .vote 1 2 0 5 6,
    .vote 1 3 4 5 6] : List Instr), Issues i cur st := issues_all (by decide +kernel)

theorem witness_reductions : ∀ i ∈ ([.lred 0 0 4 5 6, .lred 0 3 4 6 8, .lscan 0 1 4 5 6, .lscan 1 2 4 5 6] : List Instr), Issues i cur st :=
  issues_all (by decide +kernel)

theorem witness_register_blocks :
    (Issues (.regsWbase 3) cur st ∧ ∀ l ∈ cur.issue, 0 ≤ (((st.warp 0 0).lane l).fib.w : Int) + 8 * (3 : BitVec 8).toInt ∧
      (((st.warp 0 0).lane l).fib.w : Int) + 8 * (3 : BitVec 8).toInt + 8 ≤ 64 + 32 * (st.warp 0 0).x) ∧
    (Issues (.regsWbase 255) cur st ∧ (((st.warp 0 0).lane 3).fib.w : Int) + 8 * (255 : BitVec 8).toInt < 0) ∧
    (Issues (.regsXacq 11) cur st ∧ 12 < (st.warp 0 0).x + 11) ∧ (Issues (.regsXacq 10) cur st ∧ (st.warp 0 0).x + 10 ≤ 12) ∧
    (st.warp 0 0).handler = false ∧
    (Issues (.regsXrel 2) cur st ∧ 2 ≤ (st.warp 0 0).x ∧
      ∀ l, ((st.warp 0 0).lane l).holds = true → ((st.warp 0 0).lane l).fib.w + 8 ≤ 64 + 32 * ((st.warp 0 0).x - 2)) ∧
    (Issues (.regsXrel 3) cur st ∧ (st.warp 0 0).x < 3) ∧ Issues (.regsXqry 4) cur st := by
  refine ⟨⟨issues_of (by decide +kernel), by decide +kernel⟩, ⟨issues_of (by decide +kernel), by decide +kernel⟩,
    ⟨issues_of (by decide +kernel), by decide +kernel⟩, ⟨issues_of (by decide +kernel), by decide +kernel⟩, by decide +kernel,
    ⟨issues_of (by decide +kernel), by decide +kernel, fun l h => ?_⟩, ⟨issues_of (by decide +kernel), by decide +kernel⟩,
    issues_of (by decide +kernel)⟩
  exact (by decide +kernel : ∀ l < 64, ((st.warp 0 0).lane l).fib.w + 8 ≤ 64 + 32 * ((st.warp 0 0).x - 2)) l (holds_lt id rfl l h)

/-- A core whose queue holds one request, of 2 blocks. -/
def stX : State := { st with cores := [{ core := 0, cycle := 1000, xacq := [(7, 0, 0, 2)] }] }
theorem witness_grant : (st.coreSt 0).xacq = [] ∧ (stX.coreSt 0).xacq = [(7, 0, 0, 2)] ∧ 2 ≤ stX.blocksFor 0 0 ∧ 0 < stX.gangs.length ∧
    0 < (stX.gang 0).warps.length ∧ 3 < (stX.warp 0 0).lanes.length := by decide +kernel

theorem witness_frames :
    (Issues (.fenter 4) cur st ∧ ∀ l ∈ cur.issue, ((st.warp 0 0).lane l).sptr.toNat + 16 * 4 ≤ (st.warp 0 0).slim.toNat ∧
      ((st.warp 0 0).lane l).sptr.toNat % 4 = 0) ∧
    (Issues (.fleave 4) cur st ∧ ∀ l ∈ cur.issue, 16 * 4 ≤ ((st.warp 0 0).lane l).sptr.toNat) ∧
    (Issues (.frmLd 3 0 4) cur st ∧ Issues (.frmSt 3 0 4) cur st ∧ ∀ l ∈ cur.issue, 64 * (0 + 1) ≤ ((st.warp 0 0).lane l).sptr.toNat ∧
      ((st.warp 0 0).lane l).sptr.toNat - 64 * (0 + 1) + 4 * (3 + 1) ≤ (st.warp 0 0).slim.toNat) ∧
    (Issues (.fenter 255) cur st ∧
      cur.issue.find? (fun l => decide ((st.warp 0 0).slim.toNat < ((st.warp 0 0).lane l).sptr.toNat + 16 * 255 ∨
        ((st.warp 0 0).lane l).sptr.toNat % 4 ≠ 0)) = some 3) :=
  ⟨⟨issues_of (by decide +kernel), by decide +kernel⟩, ⟨issues_of (by decide +kernel), by decide +kernel⟩,
    ⟨issues_of (by decide +kernel), issues_of (by decide +kernel), by decide +kernel⟩,
    issues_of (by decide +kernel), by decide +kernel⟩
/-- SPTR is 64: 5 units of FLEAVE and the frame slot 1 are below the stack. -/
theorem witness_frame_faults :
    (∀ i ∈ ([.fleave 5, .frmLd 3 1 4, .frmSt 3 1 4] : List Instr), Issues i cur st) ∧
    cur.issue.find? (fun l => decide (((st.warp 0 0).lane l).sptr.toNat < 16 * 5 ∨ ((st.warp 0 0).lane l).sptr.toNat % 4 ≠ 0)) = some 3 ∧
    cur.issue.find? (fun l => decide (((st.warp 0 0).lane l).sptr.toNat < 64 * (1 + 1) ∨
      (st.warp 0 0).slim.toNat < ((st.warp 0 0).lane l).sptr.toNat - 64 * (1 + 1) + 4 * (3 + 1) ∨
      ((st.warp 0 0).lane l).sptr.toNat % 4 ≠ 0)) = some 3 :=
  ⟨issues_all (by decide +kernel), by decide +kernel, by decide +kernel⟩

/-- The gang and the warp of `cur` exist in such a state. -/
theorem present (f : Warp → Warp) (g : Gang → Gang) (hg : ∀ G, (g G).warps = G.warps) (hf : (f warp).lanes.length = 64) :
    Present cur (stG f g) :=
  ⟨by simp [cur, stG], by simp [cur, stG, State.gang, hg], by simp [cur, stG, State.warp, State.gang, Gang.warp, hg, hf, warpw]⟩

/-- Lane 3's offset is 65,532, the last word of a share of 65,536 bytes. -/
def stOff (v : Word) : State := stG (regs3 [(5, v)]) id
theorem witness_shares :
    (∀ i ∈ ([.ldl 0 4 5 6, .ldf 0 4 5 6, .ldli 0 0 4 5, .stl 0 4 5 6, .stf 0 4 5 6, .stli 0 0 4 5] : List Instr), Issues i cur (stOff 65532)) ∧
    (∀ l ∈ cur.issue, (((stOff 65532).warp 0 0).get l 5).toNat + (((stOff 65532).warp 0 0).get l 6).toNat + esize 0 ≤ 65536 ∧
      ((((stOff 65532).warp 0 0).get l 5).toNat + (((stOff 65532).warp 0 0).get l 6).toNat) % esize 0 = 0) ∧
    Present cur (stOff 65532) ∧ Memory.wf ((stOff 65532).gang 0).cmem = true ∧ Memory.wf ((stOff 65532).gang 0).firn = true ∧
    (∀ i ∈ ([.ldl 0 4 5 6, .ldf 0 4 5 6, .ldli 0 0 4 5] : List Instr), Issues i cur (stOff 65533)) ∧
    cur.issue.find? (fun l => decide (65536 < (((stOff 65533).warp 0 0).get l 5).toNat + (((stOff 65533).warp 0 0).get l 6).toNat + esize 0))
      = some 3 :=
  ⟨issues_all (by decide +kernel), by decide +kernel, present _ id (fun _ => rfl) rfl, by decide +kernel, by decide +kernel,
    issues_all (by decide +kernel), by decide +kernel⟩

/-- A gang whose only tile is number 0, ready, of 16 rows and 16 columns of `.f32`. -/
def tileDesc : DWord := 0x00001010_00000000
def withTile (G : Gang) : Gang := { G with tiles := [{ num := 0, desc := tileDesc, st := .ready }] }
def fullTiles (G : Gang) : Gang := { G with tiles := (List.range 256).map fun n => { num := n, desc := 0, st := .empty } }
theorem witness_tiles :
    (Issues (.tileDef 4 5) cur st ∧ tileTf (((st.gang 0).warp 0).s 5) < 8 ∧ fld (((st.gang 0).warp 0).s 5) 48 16 = 0 ∧
      fld (((st.gang 0).warp 0).s 5) 20 8 = 0 ∧
      tileBase (((st.gang 0).warp 0).s 5) + tileBytes (((st.gang 0).warp 0).s 5) ≤ (st.gang 0).launch.cmem ∧
      (st.gang 0).tile? 0 = none ∧ st.tilesUsed (st.gang 0) < 256) ∧
    (Issues (.tileDef 4 5) cur (stG id fullTiles) ∧ 256 ≤ (stG id fullTiles).tilesUsed ((stG id fullTiles).gang 0)) ∧
    (((stG id withTile).gang 0).tileNum 0 = some { num := 0, desc := tileDesc, st := .ready } ∧
      ∀ i ∈ ([.tileQry 4 5, .tileSet 0 5, .tileSet 1 5, .tileFree 5] : List Instr), Issues i cur (stG id withTile)) ∧
    ((st.gang 0).tileNum 0 = none ∧ ∀ i ∈ ([.tileQry 4 5, .tileFree 5] : List Instr), Issues i cur st) :=
  ⟨⟨issues_of (by decide +kernel), by decide +kernel, by decide +kernel, by decide +kernel, by decide +kernel, by decide +kernel,
      by decide +kernel⟩, ⟨issues_of (by decide +kernel), by decide +kernel⟩, ⟨by decide +kernel, issues_all (by decide +kernel)⟩,
    by decide +kernel, issues_all (by decide +kernel)⟩

/-- A descriptor with a reserved bit set, one whose tile leaves the share, and a number of no tile. -/
theorem witness_tile_faults :
    (Issues (.tileDef 4 5) cur (stG (sregs [(5, 0x0010_0000)]) id) ∧ fld (((stG (sregs [(5, 0x0010_0000)]) id).warp 0 0).s 5) 20 8 ≠ 0) ∧
    (Issues (.tileDef 4 5) cur (stG (sregs [(5, 0x0000_FFFF_000F_FFFF)]) id) ∧
      let x := ((stG (sregs [(5, 0x0000_FFFF_000F_FFFF)]) id).warp 0 0).s 5
      tileTf x < 8 ∧ fld x 48 16 = 0 ∧ fld x 20 8 = 0 ∧ ((stG (sregs [(5, 0x0000_FFFF_000F_FFFF)]) id).gang 0).launch.cmem < tileBase x + tileBytes x) ∧
    (st.gang 0).tileNum 0 = none ∧ Issues (.tileSet 1 5) cur st :=
  ⟨⟨issues_of (by decide +kernel), by decide +kernel⟩, ⟨issues_of (by decide +kernel), by decide +kernel⟩, by decide +kernel,
    issues_of (by decide +kernel)⟩

/-- The top of lane 3's stack holds the return record of window base 8 and slot 2 of the quad at 0x1000. -/
def returning (W : Warp) : Warp :=
  W.mapLanes [3] fun _ L => { L with stack := Memory.putBytes [] 56 (leBytes 8 0x0000_0008_0000_1008) }
theorem witness_transfers :
    (∀ i ∈ ([.bra 1 0, .call 1 0] : List Instr), Issues i cur st) ∧
    st.targetCode 0 0 (BitVec.ofInt 32 ((0x1004 / 16 * 16 : Nat) + 16 * (0 : BitVec 23).toInt + 4 * (1 : BitVec 2).toNat)) = none ∧
    (∀ l ∈ cur.issue, ((st.warp 0 0).lane l).sptr.toNat + 8 ≤ (st.warp 0 0).slim.toNat) ∧
    (Issues (.jmpr 5) cur (stG (regs3 [(5, 0x100C)]) id) ∧
      ∀ l ∈ cur.issue, (stG (regs3 [(5, 0x100C)]) id).targetCode 0 0 (((stG (regs3 [(5, 0x100C)]) id).warp 0 0).get l 5) = none) ∧
    (Issues (.jmpr 5) cur (stG (regs3 [(5, 0x100D)]) id) ∧ ∀ l ∈ cur.issue, (((stG (regs3 [(5, 0x100D)]) id).warp 0 0).get l 5).toNat % 4 ≠ 0 ∧
      (stG (regs3 [(5, 0x100D)]) id).targetCode 0 0 (((stG (regs3 [(5, 0x100D)]) id).warp 0 0).get l 5) ≠ some 2) ∧
    (Issues .ret cur (stG returning id) ∧
      let W := (stG returning id).warp 0 0
      let rec8 := leNat (Memory.bytes (W.lane 3).stack ((W.lane 3).sptr.toNat - 8) 8)
      8 ≤ (W.lane 3).sptr.toNat ∧ rec8 / 2 ^ 32 % 2 ^ 16 = 8 ∧ 8 + 8 ≤ 64 + 32 * W.x ∧
        (stG returning id).targetCode 0 0 (BitVec.ofNat 32 rec8) = none) :=
  ⟨issues_all (by decide +kernel), by decide +kernel, by decide +kernel, ⟨issues_of (by decide +kernel), by decide +kernel⟩,
    ⟨issues_of (by decide +kernel), by decide +kernel⟩, issues_of (by decide +kernel), by decide +kernel⟩

/-- The quad at 0x1000 holds a pair in slots 1 and 2, and lane 3 may return to it: at its second word, at no slot, or to a window that no lane has. -/
def pairCode (s : State) : State := { s with mem := Memory.putBytes [] 0x1004 [0, 0, 0, 0x52] }
def returningTo (r : Nat) (W : Warp) : Warp := W.mapLanes [3] fun _ L => { L with stack := Memory.putBytes [] 56 (leBytes 8 r) }
def emptyStack (n : Word) (W : Warp) : Warp := { W with slim := 64 }.mapLanes [3] fun _ L => { L with sptr := n }
theorem witness_transfer_faults :
    ((pairCode st).targetCode 0 0 0x1008 = some 2 ∧ ∀ i ∈ ([.bra 2 0, .call 2 0] : List Instr), Issues i cur (pairCode st)) ∧
    (Issues (.jmpr 5) cur (pairCode (stG (regs3 [(5, 0x1008)]) id)) ∧
      (pairCode (stG (regs3 [(5, 0x1008)]) id)).targetCode 0 0 0x1008 = some 2 ∧
      ((pairCode (stG (regs3 [(5, 0x1008)]) id)).warp 0 0).get 3 5 = 0x1008) ∧
    (Issues (.call 1 0) cur (stG (emptyStack 60) id) ∧ (cur.issue.find? fun l =>
      decide (((stG (emptyStack 60) id).warp 0 0).slim.toNat < (((stG (emptyStack 60) id).warp 0 0).lane l).sptr.toNat + 8)) = some 3) ∧
    (Issues .ret cur (stG (emptyStack 4) id) ∧ (((stG (emptyStack 4) id).warp 0 0).lane 3).sptr.toNat < 8) ∧
    (∀ r ∈ [0x0000_0001_0000_1008, 0x0000_7FF8_0000_1008, 0x0000_0008_0000_1008, 0x0000_0008_0000_1000],
      issuesB .ret cur (pairCode (stG (returningTo r) id)) = true ∧
        leNat (Memory.bytes (((pairCode (stG (returningTo r) id)).warp 0 0).lane 3).stack
          ((((pairCode (stG (returningTo r) id)).warp 0 0).lane 3).sptr.toNat - 8) 8) = r) ∧
    (pairCode (stG (returningTo 0x0000_0008_0000_1008) id)).targetCode 0 0 0x1008 = some 2 ∧
    (pairCode (stG (returningTo 0x0000_0008_0000_1000) id)).targetCode 0 0 0x1000 = some 4 :=
  ⟨⟨by decide +kernel, issues_all (by decide +kernel)⟩, ⟨issues_of (by decide +kernel), by decide +kernel, by decide +kernel⟩,
    ⟨issues_of (by decide +kernel), by decide +kernel⟩, ⟨issues_of (by decide +kernel), by decide +kernel⟩, by decide +kernel,
    by decide +kernel, by decide +kernel⟩

theorem witness_handler_mode : ((stG inHandler id).warp 0 0).handler = true ∧
    ∀ i ∈ ([.fend, .exit, .bar 1 15, .rejoin 5 0x4000, .fspawn 4 5 0x4000, .mwaitWait 4 5, .regsXacq 2, .regsXrel 2] : List Instr),
      Issues i cur (stG inHandler id) := ⟨by decide +kernel, issues_all (by decide +kernel)⟩
/-- Lanes 1, 3 and 5 issue; lane 3 asks for 3 fibres. -/
def cur3 : Cur := { cur with set := [1, 3, 5], issue := [1, 3, 5] }
theorem witness_spawn : (cur3.issue = [1] ++ 3 :: [5]) ∧ Issues (.fspawn 4 5 0x4000) cur3 { stG (regs3 [(5, 3)]) id with cur := some cur3 } ∧
    ((stG (regs3 [(5, 3)]) id).warp 0 0).get 3 5 = 3 ∧
    (laneIds.filter fun l => (((stG (regs3 [(5, 3)]) id).warp 0 0).lane l).slot == .free)[2]? = some 10 :=
  ⟨rfl, issues_of (by decide +kernel), by decide +kernel, by decide +kernel⟩

theorem witness_fibres : (st.warp 0 0).handler = false ∧ Present cur st ∧ cur.issue = [3] ∧
    ∀ i ∈ ([.fend, .exit, .bar 1 15, .rejoin 5 0x4000, .fspawn 4 5 0x4000] : List Instr), Issues i cur st :=
  ⟨by decide +kernel, present id id (fun _ => rfl) rfl, rfl, issues_all (by decide +kernel)⟩

theorem witness_rett_faults : (Issues .rett cur st ∧ (st.warp 0 0).handler = false) ∧
    (let s := stG (fun W => inHandler (W.mapLanes [3] fun _ L => L.mapFib fun f => { f with inH := true, saved := some (0x1000, 6, none) })) id
     issuesB .rett cur s = true ∧ s.targetCode 0 0 0x1000 = some 4 ∧ ((s.warp 0 0).lane 3).fib.saved = some (0x1000, 6, none)) :=
  ⟨⟨issues_of (by decide +kernel), by decide +kernel⟩, by decide +kernel⟩

theorem ok_of {ε α : Type} {r : Except ε α} (h : r.toBool = true) : ∃ a, r = .ok a := by
  cases r with
  | ok a => exact ⟨a, rfl⟩
  | error e => exact absurd h (by simp [Except.toBool])

theorem error_of {ε α : Type} {r : Except ε α} (h : r.toBool = false) : ∃ e, r = .error e := by
  cases r with
  | ok a => exact absurd h (by simp [Except.toBool])
  | error e => exact ⟨e, rfl⟩

/-- Four tables of ASID 0: rows of 64 bytes; an index of `.n32` keys, which holds key 5; a mixed-width index of rows of 16 elements; a
stream program of rows of 8 bytes. -/
def tab1 : Table :=
  { (default : Table) with slot := 1, desc := { (default : Desc) with width := 64, cap := 16, inc := 1, gen := 1, rowbase := 0x1800 } }
def tab2 : Table :=
  { (default : Table) with slot := 2, keys := [{ key := 5, row := 0, hits := 0 }],
                           desc := { (default : Desc) with tkind := 1, keyt := 1, width := 64, cap := 4, inc := 1, rowbase := 0x1400 } }
def tab3 : Table :=
  { (default : Table) with slot := 3, desc := { (default : Desc) with tkind := 1, keyt := 1, tflags := 1, width := 66, cap := 4, inc := 1,
                                                                      rowbase := 0x1600 } }
def tab4 : Table :=
  { (default : Table) with slot := 4, desc := { (default : Desc) with width := 8, cap := 4, inc := 1, gen := 1, rowbase := 0x1300 } }
/-- The state with those tables; d6 of lane 3 refers to row 2 of table 1, d8 to a slot that holds none, and s10 to s14 hold handles. -/
def stT (f : Warp → Warp) (g : Gang → Gang) : State :=
  { stG (fun W => f (sregs [(11, 0x10001), (12, 0x10002), (13, 0x10003), (14, 0x10004)]
      (regs3 [(6, 2), (7, 0x00010001), (8, 2), (9, 0x00090001)] W))) g with tables := [tab1, tab2, tab3, tab4] }
def stR : State := stT id id

theorem witness_monitors :
    (∀ i ∈ ([.mwaitWatch 6 4, .syncDcwb 6 4, .syncDcinv 6 4, .syncIcinv 4 5, .syncIsync, .yield, .mwaitWait 4 5] : List Instr),
      Issues i cur stR) ∧
    (stR.watchRows cur 6 4).toBool = true ∧ (stR.warp 0 0).handler = false ∧ stR.monitor? 0 0 3 = none ∧ Present cur stR := by
  refine ⟨issues_all (by decide +kernel), by decide +kernel, by decide +kernel, by decide +kernel, ?_⟩
  exact ⟨by decide +kernel, by decide +kernel, by decide +kernel⟩

def mon (m : Mon) : State := { stR with monitors := [{ ctx := 0, warp := 0, lane := 3, asid := 0, va := 0x1880, block := 0x1880, path := 0, st := m }] }
theorem witness_monitor_states :
    (∀ m ∈ [Mon.fired, Mon.lost, Mon.armed], issuesB (.mwaitWait 4 5) cur (mon m) = true ∧ ((mon m).monitor? 0 0 3).map (·.st) = some m) ∧
    Present cur (mon .fired) ∧ Present cur (mon .lost) ∧ Present cur (mon .armed) :=
  ⟨by decide +kernel, ⟨by decide +kernel, by decide +kernel, by decide +kernel⟩,
    ⟨by decide +kernel, by decide +kernel, by decide +kernel⟩,
    ⟨by decide +kernel, by decide +kernel, by decide +kernel⟩⟩

theorem witness_waits_together : cur3.issue.Nodup ∧ Issues (.mwaitWait 4 5) cur3 { mon .armed with cur := some cur3 } ∧
    cur3.issue = [1] ++ 3 :: [5] ∧ ((mon .armed).warp 0 0).handler = false :=
  ⟨by decide, issues_of (by decide +kernel), rfl, by decide +kernel⟩

/-- A warp in handler mode whose lane 3 resumes at slot 2 of its quad. -/
def handling (W : Warp) : Warp :=
  inHandler (W.mapLanes [3] fun _ L => L.mapFib fun f => { f with inH := true, saved := some (0x1008, 6, none) })
/-- The quad at 0x1000 holds `rep 8, d, 1` and `iadd.i32 v4, v5, v6`. -/
def stRep : State := { st with mem := Memory.putBytes [] 0x1004 (leBytes 4 0xFE3C0000 ++ leBytes 4 0x02010286) }
theorem witness_nop_rep_trap_rett :
    (∀ i ∈ ([.nop, .trap 5] : List Instr), Issues i cur st) ∧
    (stRep.cur = some cur ∧ (stRep.repCheck cur 7 4 0).toBool = true) ∧
    (Issues .rett cur (stG handling id) ∧ ((stG handling id).warp 0 0).handler = true ∧ Present cur (stG handling id) ∧
      (((stG handling id).warp 0 0).lane 3).fib.saved = some (0x1008, 6, none) ∧ (stG handling id).targetCode 0 0 0x1008 = none) :=
  ⟨issues_all (by decide +kernel), ⟨by decide +kernel, by decide +kernel⟩, issues_of (by decide +kernel), by decide +kernel,
    ⟨by decide +kernel, by decide +kernel, by decide +kernel⟩, by decide +kernel, by decide +kernel⟩

/-- Every fibre of the warp issues. -/
def curAll : Cur := { cur with set := List.range 8, issue := List.range 8 }
/-- A gang with two ready tiles of 16 rows and 16 columns, of `.f32` and of `.bf16`. -/
def tiles2 (G : Gang) : Gang :=
  { G with tiles := [{ num := 0, desc := 0x3C0F, st := .ready }, { num := 1, desc := 0x10003C0F, st := .ready }],
           wgs := [{ (default : Wg) with hold := true }] }
def stE (f : Warp → Warp) : State := { stT f tiles2 with cur := some curAll }
def holds8 (s : State) : Prop := ∀ l, ((s.warp 0 0).lane l).holds = true → l ∈ curAll.issue
theorem witness_engines :
    (Issues (.cpl 0 4 6 5 0 10 0) cur stR ∧ ∀ l ∈ cur.issue, ((stR.warp 0 0).get l 5).toNat ≤ 32 ∧ ((stR.warp 0 0).get l 4).toNat % 32 = 0 ∧
      ((stR.warp 0 0).get l 4).toNat + 32 ≤ (stR.gang 0).launch.cmem) ∧
    ((∀ i ∈ ([.cpb 0 4 5 0 0, .cpb 1 4 5 0 0] : List Instr), Issues i curAll (stE id)) ∧ (∀ l, l < 8 → l ∈ curAll.issue) ∧
      (∀ l < 64, (((stE id).warp 0 0).lane l).holds = true → l < 8) ∧
      ((stE id).gang 0).tileNum (((stE id).warp 0 0).s 4) = some { num := 0, desc := 0x3C0F, st := .ready } ∧ cpbFormats 0 0x3C0F = true) ∧
    (Issues (.dfence 11) cur stR ∧ stR.handle? 0 (((stR.warp 0 0).s 11).setWidth 32) = some tab1) ∧
    (Issues (.xmma 0 4 4 0 0 0) curAll (stE (sregs [(4, 0x0003C0F000000001)])) ∧ needsAcc curAll (stE id) = none ∧
      xmmaFault ((stE id).gang 0) 0 0 [0x0003C0F000000001, 0x0003C0F000000001] = none) ∧
    (Issues (.xaccTile 4 5) curAll (stE (sregs [(5, 0x03C0F000)])) ∧ needsRegion 5 curAll (stE (sregs [(5, 0x03C0F000)])) = none ∧
      tileTf 0x3C0F < 6 ∧ tileRows 0x3C0F = regRows 0x03C0F000 ∧ tileCols 0x3C0F = regCols 0x03C0F000) ∧
    (Issues (.tgath 4 5 13 0 0 1 4 0) curAll (stE id) ∧ ((stE id).gathCheck curAll (((stE id).warp 0 0).s 13) 1 0 0).toBool = true) :=
  ⟨⟨issues_of (by decide +kernel), by decide +kernel⟩,
    ⟨issues_all (by decide +kernel), by decide +kernel, by decide +kernel, by decide +kernel, by decide +kernel⟩,
    ⟨issues_of (by decide +kernel), by decide +kernel⟩,
    ⟨issues_of (by decide +kernel), by decide +kernel, by decide +kernel⟩,
    ⟨issues_of (by decide +kernel), by decide +kernel, by decide +kernel, by decide +kernel, by decide +kernel⟩,
    issues_of (by decide +kernel), by decide +kernel⟩

/-- An operation under way for lane 3 of the warp. -/
def work (i : Instr) : Work :=
  { st.newWork cur i [{ lane := 3, w := 0, d := 0, a := 0, b := 0, c := 0 }] [0, 0] with id := 7, tiles := [0], cells := [1] }
theorem witness_counter : (work .nop).ctx < st.gangs.length ∧ (work .nop).warp < (st.gang 0).warps.length ∧
    6 < (st.warp 0 0).issued.length := by decide +kernel

/-- The state whose gang has that operation under way. -/
def stO (i : Instr) : State := stT id fun G => { tiles2 G with ops := [work i] }
/-- A copy from row 2 of table 1, for a lane whose length is 0. -/
def cpl : Instr := .cpl 0 4 6 5 0 10 0
/-- A bulk copy whose row reference is not valid: it meets a fault. -/
def cpbBad : Instr := .cpb 0 4 5 0 0
def stCpb : State := stT id fun G =>
  { tiles2 G with ops := [{ work (.cpb 0 4 5 0 0) with uni := [0, 0x0001_0001_0000_0000] }],
                  tiles := [{ num := 0, desc := 0x3C00, st := .filling }] }
theorem witness_completions :
    (((stO cpl).gang 0).op? 7 = some (work cpl) ∧ (work cpl).fault = none ∧ ((stO cpl).opEffect (work cpl)).toBool = true) ∧
    ((stCpb.gang 0).op? 7 = some { work (.cpb 0 4 5 0 0) with uni := [0, 0x0001_0001_0000_0000] } ∧
      (stCpb.opEffect { work (.cpb 0 4 5 0 0) with uni := [0, 0x0001_0001_0000_0000] }).toBool = true) ∧
    (((stO (.dfence 11)).gang 0).op? 7 = some (work (.dfence 11)) ∧ (stO (.dfence 11)).table? 0 1 = some tab1 ∧
      (∀ p ∈ ((stO (.dfence 11)).gang 0).ops, p.warp = 0 → p.id < 7 → p.writesTable 1 = false) ∧ (stO (.dfence 11)).idx = []) ∧
    (((stO (.tgath 4 5 13 0 0 1 4 0)).gang 0).op? 7 = some (work (.tgath 4 5 13 0 0 1 4 0)) ∧
      ((stO (.tgath 4 5 13 0 0 1 4 0)).opEffect (work (.tgath 4 5 13 0 0 1 4 0))).toBool = true ∧
      (stO (.tgath 4 5 13 0 0 1 4 0)).idx = []) ∧
    (((stO (.xaccTile 4 5)).gang 0).op? 7 = some (work (.xaccTile 4 5)) ∧ ((stO (.xaccTile 4 5)).gang 0).accHead (work (.xaccTile 4 5)) = true ∧
      ((stO (.xaccTile 4 5)).opEffect (work (.xaccTile 4 5))).toBool = true) ∧
    (((stO cpbBad).gang 0).op? 7 = some (work cpbBad) ∧ ((stO cpbBad).sideFault (work cpbBad)).isSome = true) := by decide +kernel

/-- A gang whose tile 0 is empty. -/
def stEmpty : State := { stT id (fun G => { G with tiles := [{ num := 0, desc := 0x3C00, st := .empty }] }) with cur := some curAll }
/-- Checks of engine operations that fail: a length of 33, a destination beyond the share or not aligned; fibres outside ISSUE; no tile; a tile that
is not ready or has another format; a handle of no table; no accumulator store; maps, a region and shapes that do not suit. -/
theorem witness_engine_faults :
    (∀ x ∈ [((4 : Nat), (0 : Word), (33 : Word)), (4, 0x10000, 0), (4, 4, 0)],
      issuesB (.cpl 0 4 6 5 0 10 0) cur (stT (fun W => regs3 [(4, x.2.1), (5, x.2.2)] W) id) = true ∧
        ((stT (fun W => regs3 [(4, x.2.1), (5, x.2.2)] W) id).warp 0 0).get 3 4 = x.2.1 ∧
        ((stT (fun W => regs3 [(4, x.2.1), (5, x.2.2)] W) id).warp 0 0).get 3 5 = x.2.2) ∧
    ((∀ i ∈ ([.cpb 0 4 5 0 0, .tgath 4 5 13 0 0 1 4 0, .xmma 0 4 4 0 0 0, .xaccTile 4 5, .xaccZero 5, .xaccRd 4 5 10, .xaccWr 4 5 10] : List Instr),
      Issues i cur stR) ∧ ∃ l ∈ laneIds, ((stR.warp 0 0).lane l).holds = true ∧ l ∉ cur.issue) ∧
    (∀ i ∈ ([.cpb 0 4 5 0 0, .tgath 4 5 13 0 0 1 4 0, .xmma 0 4 4 0 0 0, .xaccTile 4 5, .xaccZero 5, .xaccRd 4 5 10, .xaccWr 4 5 10] : List Instr),
      Issues i curAll { stR with cur := some curAll }) ∧ (stR.gang 0).tileNum 0 = none ∧ ((stR.gang 0).wgs.getD 0 default).hold = false ∧
    (stR.gathCheck curAll ((stR.warp 0 0).s 13) 1 0 0).toBool = false ∧
    (Issues (.cpb 1 4 5 0 0) curAll stEmpty ∧ ((stEmpty.gang 0).tileNum 0).map (·.st) = some .empty ∧ cpbFormats 5 0x10003C0F = false ∧
      Issues (.cpb 0 4 5 5 0) curAll (stE (sregs [(4, 1)]))) ∧
    (xmmaFault ((stE id).gang 0) 0 0 [0, 0] = some (flt 6 3) ∧ Issues (.xmma 0 4 4 0 0 0) curAll (stE id)) ∧
    (regionBad 0x1_0000_0000 = true ∧ ∀ i ∈ ([.xaccTile 4 5, .xaccZero 5, .xaccRd 4 5 10, .xaccWr 4 5 10] : List Instr),
      Issues i curAll (stE (sregs [(5, 0x1_0000_0000)]))) ∧
    (Issues (.xaccTile 4 5) curAll (stE (sregs [(4, 7)])) ∧ ((stE id).gang 0).tileNum 7 = none ∧ regionBad 0 = false) ∧
    (Issues (.xaccTile 4 5) curAll (stE id) ∧ tileTf 0x3C0F < 6 ∧ tileRows 0x3C0F ≠ regRows 0 ∧ 6 ≤ tileTf 0x60003C0F) ∧
    (Issues (.dfence 10) cur stR ∧ stR.handle? 0 (((stR.warp 0 0).s 10).setWidth 32) = none) :=
  ⟨by decide +kernel, ⟨issues_all (by decide +kernel), by decide +kernel⟩, issues_all (by decide +kernel), by decide +kernel, by decide +kernel,
    by decide +kernel, ⟨issues_of (by decide +kernel), by decide +kernel, by decide +kernel, issues_of (by decide +kernel)⟩,
    ⟨by decide +kernel, issues_of (by decide +kernel)⟩, ⟨by decide +kernel, issues_all (by decide +kernel)⟩,
    ⟨issues_of (by decide +kernel), by decide +kernel, by decide +kernel⟩,
    ⟨issues_of (by decide +kernel), by decide +kernel, by decide +kernel, by decide +kernel⟩, issues_of (by decide +kernel), by decide +kernel⟩

/-- A dense multiplication of two `.bf16` tiles. -/
def xmma : Work := { work (.xmma 0 4 4 0 0 0) with uni := [0x0003C0F000000001, 0x0003C0F000000001, 0, 0, 0, 0, 0, 0], tiles := [1, 1] }
def stX2 : State := stT id fun G => { tiles2 G with ops := [xmma] }
theorem witness_xmma : (stX2.gang 0).op? 7 = some xmma ∧ xmma.ctx = 0 ∧ xmma.fault = none ∧ (stX2.opEffect xmma).toBool = true ∧
    (stX2.gang 0).accHead xmma = true := by decide +kernel

theorem witness_accumulator :
    (∀ i ∈ ([.xaccZero 5, .xaccRd 4 5 10, .xaccWr 4 5 10] : List Instr), Issues i curAll (stE id)) ∧ needsRegion 5 curAll (stE id) = none ∧
    Present curAll (stE id) ∧ ((stE id).warp 0 0).wg < ((stE id).gang 0).wgs.length ∧ ((stE id).gang 0).accOps 0 = [] ∧
    (∀ l ∈ curAll.issue, (((stE id).warp 0 0).get l 10).toNat < regRows 0 * regCols 0) ∧
    ((∀ i ∈ ([.xaccRd 4 5 6, .xaccWr 4 5 6] : List Instr), Issues i curAll (stE id)) ∧ regRows 0 * regCols 0 ≤ (((stE id).warp 0 0).get 3 6).toNat) :=
  ⟨issues_all (by decide +kernel), by decide +kernel, ⟨by decide +kernel, by decide +kernel, by decide +kernel⟩, by decide +kernel,
    by decide +kernel, by decide +kernel, issues_all (by decide +kernel), by decide +kernel⟩

/-- A producer slot whose stream program is one `imm` and an `end`. -/
def prod : Producer := { (default : Producer) with prog := [0x8000_0000_0000_0007, 0], running := true }
def stP (p : Producer) : State := stT id fun G => { G with producer := some p }
/-- A warp whose counter 0 stands at 2. -/
def counting (W : Warp) : Warp := { W with issued := [2, 0, 0, 0, 0, 0, 0, 0] }
def stW : State := stT counting fun G => { G with ops := [{ work cpl with ctr := some 0, seq := 0 }] }
theorem witness_queues :
    (∀ i ∈ ([.waitc 0 2, .waitc 0 1] : List Instr), Issues i cur stW) ∧ (stW.gang 0).counter 0 0 = 2 ∧
    ((stP prod).gang 0).producer = some prod ∧
    (∀ i ∈ ([.qpush 0 0 4, .spldLoad 14, .spldStop, .spldQry 4] : List Instr), Issues i cur (stP prod)) ∧
    (Issues (.qpop 0 0 4) cur (stP { prod with running := false }) ∧
      ((stP { prod with running := false }).gang 0).queues.getD 0 [] = [] ∧ 0 < ((stP prod).gang 0).queues.length) ∧
    (stP prod).streamTable 0 (((stP prod).warp 0 0).s 14 |>.setWidth 32) = some tab4 ∧
    (stR.gang 0).producer = none ∧ ∀ i ∈ ([.qpop 0 0 4, .qpush 0 0 4, .spldLoad 14, .spldStop, .spldQry 4] : List Instr), Issues i cur stR :=
  ⟨issues_all (by decide +kernel), by decide +kernel, by decide +kernel, issues_all (by decide +kernel),
    ⟨issues_of (by decide +kernel), by decide +kernel⟩, by decide +kernel, by decide +kernel, issues_all (by decide +kernel)⟩

/-- Queue 0 holds two `.w64` entries. -/
def stQ : State := { stP { prod with running := false } with
  gangs := [{ (stP { prod with running := false }).gang 0 with queues := [[{ width := 1, val := 7 }, { width := 1, val := 9 }]] }], cur := some cur3 }
theorem witness_pops : (Issues (.qpop 0 1 4) cur3 stQ ∧ ∀ e ∈ ((stQ.gang 0).queues.getD 0 []).take 3, e.width = 1) ∧
    (Issues (.qpop 0 0 4) cur3 stQ ∧ ∃ e ∈ ((stQ.gang 0).queues.getD 0 []).take 3, e.width ≠ 0) ∧
    (Issues (.spldLoad 11) cur (stP prod) ∧ (stP prod).streamTable 0 (((stP prod).warp 0 0).s 11 |>.setWidth 32) = none) :=
  ⟨⟨issues_of (by decide +kernel), by decide +kernel⟩, ⟨issues_of (by decide +kernel), by decide +kernel⟩, issues_of (by decide +kernel),
    by decide +kernel⟩

/-- The producer at its `end`, and with a fetch of row 0 of table 1 under way. -/
def prodEnd : Producer := { prod with next := 1 }
def prodFetch : Producer :=
  { prod with prog := [0x5000_0000_0000_0000], fetching := some 0,
              streams := [{ k := 0, handle := 0x10001, base := 0, strides := [0, 0, 0, 0] }] }
theorem witness_streams :
    (((stP prod).gang 0).phase = .running ∧ prod.running = true ∧ prod.fetching = none ∧
      ((stP prod).streamStep ((stP prod).gang 0) prod).isSome = true ∧ prod.prog[prod.next]? = some 0x8000_0000_0000_0007 ∧
      sopOf 0x8000_0000_0000_0007 = 8 ∧ (((stP prod).gang 0).queues.getD (sopQ 0x8000_0000_0000_0007) []).length < 64) ∧
    (prodEnd.prog[prodEnd.next]? = some 0 ∧ sopOf 0 = 0 ∧ prodEnd.running = true ∧ prodEnd.fetching = none) ∧
    (prodFetch.fetching = some 0 ∧ ((stP prodFetch).streamEntry 0 prodFetch (prodFetch.prog.getD 0 0)).toBool = true) := by decide +kernel

def rowRef (l : Nat) : DWord := (stR.warp 0 0).get64 l 6
theorem witness_rows :
    (∀ i ∈ ([.ldr 0 4 6 10, .ldri 0 3 4 6, .str 0 4 6 10, .stri 0 3 4 6, .ldr 0 4 8 10, .str 0 4 8 10] : List Instr), Issues i cur stR) ∧
    (stR.laneAccs cur 4 .read rowRef fun _ => 12).toBool = true ∧
    (match stR.laneAccs cur 4 .write rowRef fun _ => 12 with
      | .ok [x] => lostLane stR [x] == none && decide x.cells.Nodup && !x.tab.mixed && x.cells.length == 4
      | _ => false) = true ∧ Memory.wf stR.mem = true ∧
    (stR.laneAccs cur 4 .read (fun l => (stR.warp 0 0).get64 l 8) fun _ => 0).toBool = false :=
  ⟨issues_all (by decide +kernel), by decide +kernel, by decide +kernel, by decide +kernel, by decide +kernel⟩

theorem witness_keyed :
    (∀ i ∈ ([.ldk 0 4 5 5 1 1 12 8, .stk 0 4 5 5 2 1 12 8, .tget 4 5 5 1 1 12, .tins 1 4 5 8 5 3 1 12 8, .tdel 4 5 5 3 1 12,
      .tupdVal 4 5 8 5 3 1 12 8] : List Instr), Issues i cur stR ∧ stR.keyCheck cur i ((stR.warp 0 0).s 12) 1 4 8 = .ok tab2 ∧
        (stR.keyCheck cur i ((stR.warp 0 0).s 11) 1 4 8).toBool = false) ∧
    (Issues (.tupdFmt 4 5 15 5 3 1 13) cur (stT (regs3 [(15, 3)]) id) ∧
      (stT (regs3 [(15, 3)]) id).keyCheck cur (.tupdFmt 4 5 15 5 3 1 13) (((stT (regs3 [(15, 3)]) id).warp 0 0).s 13) 1 0 0 = .ok tab3 ∧
      ∀ l ∈ cur.issue, 1 ≤ (((stT (regs3 [(15, 3)]) id).warp 0 0).get l 15).toNat % 256 ∧
        (((stT (regs3 [(15, 3)]) id).warp 0 0).get l 15).toNat % 256 ≤ 7) :=
  ⟨fun i hi => ⟨issues_all (by decide +kernel) i hi, by revert i; decide +kernel⟩, issues_of (by decide +kernel), by decide +kernel,
    by decide +kernel⟩

theorem witness_format_faults :
    (stR.keyCheck cur (.tupdFmt 4 5 15 5 3 1 12) ((stR.warp 0 0).s 12) 1 0 0).toBool = false ∧ Issues (.tupdFmt 4 5 15 5 3 1 12) cur stR ∧
    Issues (.tupdFmt 4 5 15 5 3 1 13) cur stR ∧ stR.keyCheck cur (.tupdFmt 4 5 15 5 3 1 13) ((stR.warp 0 0).s 13) 1 0 0 = .ok tab3 ∧
    (cur.issue.find? fun k => decide (((stR.warp 0 0).get k 15).toNat % 256 = 0 ∨ 8 ≤ ((stR.warp 0 0).get k 15).toNat % 256)) = some 3 :=
  ⟨by decide +kernel, issues_of (by decide +kernel), issues_of (by decide +kernel), by decide +kernel, by decide +kernel⟩

/-- A workgroup with cursor 0 open on table 2. -/
def cursors (G : Gang) : Gang :=
  { G with wgs := [{ (default : Wg) with cursors := [{ (default : Cursor) with num := 0, slot := 2, inc := 1 }] }] }
theorem witness_cursors :
    (Issues (.tseek 0 0 4 5 5 1 1 12) cur (stT id cursors) ∧ Present cur (stT id cursors) ∧
      ((stT id cursors).warp 0 0).wg < ((stT id cursors).gang 0).wgs.length ∧ tab2.desc.tkind = 1 ∧
      (stT id cursors).keyCheck cur (.tseek 0 0 4 5 5 1 1 12) (((stT id cursors).warp 0 0).s 12) 1 0 0 = .ok tab2 ∧
      (∀ k ∈ (((stT id cursors).gang 0).wgs.getD 0 default).cursors, k.num ≠ 1) ∧
      (∀ j < 1, ∃ k ∈ (((stT id cursors).gang 0).wgs.getD 0 default).cursors, k.num = j) ∧
      (stT id cursors).cursorsOn ((stT id cursors).coreOf 0 0) < 2048) ∧
    (∀ i ∈ ([.tcurClose 5, .tcurStep 4 5 15, .tcurKey 4 5, .tcurClose 7] : List Instr), Issues i cur (stT id cursors)) ∧
    ((stT id cursors).curCheck cur 5 none 3).toBool = true ∧ ((stT id cursors).curCheck cur 5 (some 15) 3).toBool = true ∧
    ((stT id cursors).curCheck cur 5 (some 4) 3).toBool = true ∧
    ((stT id cursors).gang 0).cursor (((stT id cursors).warp 0 0).get 3 7) = none :=
  ⟨⟨issues_of (by decide +kernel), ⟨by decide +kernel, by decide +kernel, by decide +kernel⟩, by decide +kernel, by decide +kernel,
      by decide +kernel, by decide +kernel, by decide +kernel, by decide +kernel⟩,
    issues_all (by decide +kernel), by decide +kernel, by decide +kernel, by decide +kernel, by decide +kernel⟩

/-- Two lanes seek together, or the higher one names no open cursor. -/
def cur35 : Cur := { cur with issue := [3, 5] }
def stCur : State :=
  { stT (fun W => (regs3 [(7, 0)] W).mapLanes [5] fun _ L => { L with regs := L.regs.set 7 9 }) cursors with cur := some cur35 }
theorem witness_cursor_lanes :
    (Issues (.tseek 0 0 4 5 5 1 1 12) cur35 { stT id cursors with cur := some cur35 } ∧ ((stT id cursors).gang 0).resident = true ∧
      ((List.range 2048).filter fun n => !((((stT id cursors).gang 0).wgs.getD 0 default).cursors.map (·.num)).contains n)[1]? = some 2) ∧
    (Issues (.tseek 0 0 4 5 5 1 1 11) cur stR ∧ (stR.keyCheck cur (.tseek 0 0 4 5 5 1 1 11) ((stR.warp 0 0).s 11) 1 0 0).toBool = false) ∧
    (∀ i ∈ ([.tcurClose 7, .tcurStep 4 7 15, .tcurKey 4 7] : List Instr), Issues i cur35 stCur) ∧ cur35.issue = [3] ++ 5 :: [] ∧
    (∀ n ∈ [none, some (15 : BitVec 7), some 4], (stCur.curCheck cur35 7 n 3).toBool = true ∧ (stCur.curCheck cur35 7 n 5).toBool = false) :=
  ⟨⟨issues_of (by decide +kernel), by decide +kernel, by decide +kernel⟩, ⟨issues_of (by decide +kernel), by decide +kernel⟩,
    issues_all (by decide +kernel), rfl, by decide +kernel⟩

/-- Every entry of the core's cursors is taken. -/
def fullCursors (G : Gang) : Gang := { G with wgs := [{ (default : Wg) with cursors := List.replicate 2048 default }] }
theorem witness_cursors_full :
    Issues (.tseek 0 0 4 5 5 1 1 12) cur (stT id fullCursors) ∧ Present cur (stT id fullCursors) ∧
    (stT id fullCursors).keyCheck cur (.tseek 0 0 4 5 5 1 1 12) (((stT id fullCursors).warp 0 0).s 12) 1 0 0 = .ok tab2 ∧
    ((stT id fullCursors).warp 0 0).wg < ((stT id fullCursors).gang 0).wgs.length ∧
    2048 ≤ (stT id fullCursors).cursorsOn ((stT id fullCursors).coreOf 0 0) :=
  ⟨issues_of (by decide +kernel), ⟨by decide +kernel, by decide +kernel, by decide +kernel⟩, by decide +kernel, by decide +kernel,
    by decide +kernel⟩

/-- Index work on table 2, alone or behind other work of its warp. -/
def idxWork (i : Instr) (k : Nat) (key : QWord) : Work :=
  { work i with id := k, cells := [2], args := [{ lane := 3, w := 0, d := 0, a := key, b := 0, c := 3 }] }
def stI (ws : List Work) : State := { stR with idx := ws }
theorem witness_index :
    (∀ i ∈ ([.tget 4 5 5 1 1 12, .tcurStep 4 5 15, .tgath 4 5 13 0 0 1 4 0] : List Instr),
      ((stI [idxWork i 7 5]).idx.find? fun w => w.id == 7) = some (idxWork i 7 5) ∧ (stI [idxWork i 7 5]).idxReady (idxWork i 7 5) = true) ∧
    (stI [idxWork .nop 7 5]).table? 0 2 = some tab2 ∧ (tab2.find (keyNum 1 5)).isSome = true ∧ tab2.find (keyNum 1 6) = none ∧
    (stI [idxWork (.tins 0 4 5 8 5 3 1 12 8) 7 5, idxWork (.tget 4 5 5 1 1 12) 8 5]).idxReady (idxWork (.tget 4 5 5 1 1 12) 8 5) = false := by
  decide +kernel

def ldrWork : Work := { work (.ldr 0 4 6 10) with cells := [], awaits := [.reg 3 4], vals := [(.reg 3 4, 1)] }
def stA (ws : List Walk) : State := { stT id (fun G => { G with accs := [{ ldrWork with uni := [0] }] }) with walks := ws }
theorem witness_access :
    (((stA []).gang 0).accs.find? fun w => w.id == 7) = some { ldrWork with uni := [0] } ∧ ldrWork.mark = 0 ∧
    (stA []).walking { ldrWork with uni := [0] } = false ∧ ldrWork.cells = [] ∧ (stA []).dram = [] ∧ ldrWork.fault = none ∧ ldrWork.ctx = 0 ∧
    (stA [{ (default : Walk) with page := 0 }]).walking { ldrWork with uni := [0] } = true := by decide +kernel

theorem witness_atomics :
    (∀ i ∈ ([.fence 0 0 0, .fence 0 3 5] : List Instr), Issues i cur stR) ∧ stR.outstanding cur 3 = [] ∧ aliasFence 0 5 = false ∧
    (Issues (.fence 0 3 5) cur (stA []) ∧ (stA []).outstanding cur 3 ≠ []) ∧ (Issues (.fence 1 0 5) cur stR ∧ aliasFence 1 5 = true) ∧
    (∀ i ∈ ([.amo 0 4 6 5 5 3 0 8, .amo 9 4 6 10 5 3 1 8, .cas 0 4 6 5 5 3 1 8, .cas 1 4 6 10 5 3 1 8] : List Instr), Issues i cur stR) ∧
    (stR.laneAccs cur 4 .rmw rowRef fun _ => 8).toBool = true ∧ (stR.laneAccs cur 8 .rmw rowRef fun _ => 8).toBool = true :=
  ⟨issues_all (by decide +kernel), by decide +kernel, by decide +kernel, ⟨issues_of (by decide +kernel), by decide +kernel⟩,
    ⟨issues_of (by decide +kernel), by decide +kernel⟩, issues_all (by decide +kernel), by decide +kernel, by decide +kernel⟩

def stF : State := { stA [] with gangs := (stA []).gangs.map fun G => { G with accs := [{ work (.fence 0 3 5) with waits := [3] }] } }
theorem witness_fence_complete :
    ((stF.gang 0).accs.find? fun q => q.id == 7 && q.warp == 0) = some { work (.fence 0 3 5) with waits := [3] } ∧
    (∀ q ∈ (stF.gang 0).accs, q.id ≠ 3) ∧ stF.idx = [] := by decide +kernel

theorem witness_atomic_faults :
    (∀ i ∈ ([.amo 0 4 8 5 5 3 0 8, .cas 0 4 8 5 5 3 1 8] : List Instr), Issues i cur stR) ∧
    (stR.laneAccs cur 4 .rmw (fun l => (stR.warp 0 0).get64 l 8) fun _ => 8).toBool = false ∧
    (match stR.laneAccs cur 4 .rmw rowRef fun _ => 8 with
      | .ok [x] => !x.isBad stR && !x.tab.mixed && decide (8 + x.cells.length ≤ x.tab.desc.width) && decide x.cells.Nodup
      | _ => false) = true :=
  ⟨issues_all (by decide +kernel), by decide +kernel, by decide +kernel⟩

theorem witness_shapes : ∀ i ∈ ([.mld 0 16 6 10, .mst 0 16 6 10, .mmov 8 40, .midn 8, .mtrn 8 40, .madd 0 8 40 72, .mmul 0 0 1 8 40 72, .mchol 1 4 8 5,
    .mlup 1 4 8 5, .mtrs 0 0 1 0 8 40 0, .msolv 0 1 8 40 5, .mred 0 4 8] : List Instr), Issues i cur st ∧ shapeOk i (st.warp 0 0).ms = false :=
  fun i hi => ⟨issues_all (by decide +kernel) i hi, by revert i; decide +kernel⟩

theorem witness_matrix :
    Issues (.mset 3 4 5 0) cur st ∧
    (∀ x ∈ ([(.mmov 8 40, 0xA28), (.midn 8, 0x490), (.mtrn 8 40, 0x490), (.madd 0 8 40 72, 0x490), (.madd 2 8 40 72, 0x490),
        (.mmul 0 0 1 8 40 72, 0x490), (.mmul 1 1 0 8 40 72, 0x490), (.mchol 1 4 8 5, 0x491), (.mlup 1 4 8 5, 0x490),
        (.mtrs 0 0 1 0 8 40 0, 0x490), (.mtrs 1 1 0 1 8 40 4, 0x490), (.msolv 0 1 8 40 5, 0x491), (.msolv 1 1 8 40 5, 0x490),
        (.mred 0 4 8, 0x490), (.mred 1 4 8, 0x491), (.mred 2 4 8, 0xA50)] : List (Instr × BitVec 12)),
      issuesB x.1 cur (stG (fun W => { W with ms := x.2 }) id) = true ∧ shapeOk x.1 x.2 = true) ∧
    (Issues (.mmov 8 40) cur st ∧ (st.warp 0 0).ms = 0) ∧
    ((stT (fun W => { W with ms := 0x490 }) id).matAccs cur 4 .read 6 10).toBool = true ∧
    ((match (stT (fun W => { W with ms := 0x490 }) id).matAccs cur 4 .write 6 10 with
      | .ok rows => lostLane (stT (fun W => { W with ms := 0x490 }) id) rows.flatten == none
      | _ => false) = true) ∧
    (∀ i ∈ ([.mld 0 16 6 10, .mst 0 16 6 10] : List Instr), Issues i cur (stT (fun W => { W with ms := 0x490 }) id)) :=
  ⟨issues_of (by decide +kernel), by decide +kernel, ⟨issues_of (by decide +kernel), by decide +kernel⟩, by decide +kernel, by decide +kernel,
    issues_all (by decide +kernel)⟩

def stM : State := stG id fun G => { G with accs := [{ work (.mmov 8 40) with mark := 2 }] }
theorem witness_matrix_complete : ((stM.gang 0).accs.find? fun w => w.id == 7) = some { work (.mmov 8 40) with mark := 2 } ∧
    (work (.mmov 8 40)).fault = none ∧ (work (.mmov 8 40)).ctx = 0 := by decide +kernel

/-- An object with a read-only method 0 and one replica, which knows of one append that it has not applied. -/
def entry1 : LogEntry := { (default : LogEntry) with seq := 1 }
def object : Obj :=
  { (default : Obj) with slot := 1, inc := 1, size := 4, methods := [{ (default : Method) with present := true, ro := true }],
                         reps := [{ (default : Replica) with state := [0, 0, 0, 0], known := 1 }], tail := 1, log := [entry1] }
def stJ (o : Obj) (ws : List Work) : State := { stG (sregs [(12, 0x10001)]) id with objs := [o], calls := ws }
def call (i : Instr) : Work := { work i with awaits := [.reg 3 4, .reg 3 5] }
theorem witness_objects :
    (stJ object []).objCheck cur 12 = .ok object ∧ methodCheck cur object 0 false = none ∧ methodCheck cur object 0 true = none ∧
    (∀ i ∈ ([.rcall 4 20 6 0 12 0, .rreadRead 4 20 30 6 0 12 0, .rreadWait 4 30 6 1 12, .rreadStat 4 6 0 12] : List Instr),
      Issues i cur (stJ object [])) :=
  ⟨by decide +kernel, by decide +kernel, by decide +kernel, issues_all (by decide +kernel)⟩

theorem witness_object_engine :
    (stJ object []).objAt 0 1 = some object ∧
    (((stJ object [call (.rcall 4 20 6 0 12 0)]).calls.find? fun q => q.id == 7) = some (call (.rcall 4 20 6 0 12 0)) ∧
      (call (.rcall 4 20 6 0 12 0)).cells.getD 0 0 = 1 ∧ (stJ object [call (.rcall 4 20 6 0 12 0)]).mayCall (call (.rcall 4 20 6 0 12 0)) = true ∧
      object.lost = false ∧ object.copying = false ∧ object.tail + 1 ≤ object.applied + 4096) ∧
    ((object.reps.find? fun q => q.die == 0 && !q.failed) = some { (default : Replica) with state := [0, 0, 0, 0], known := 1 } ∧
      (object.log.find? fun x => x.seq == 0 + 1) = some entry1) ∧
    (let w := call (.rreadWait 4 30 6 1 12);
      (stJ { object with lost := true } [w]).objAt 0 1 = some { object with lost := true } ∧
      (stJ { object with lost := true } [w]).mayCall w = true ∧ (w.instr matches .rreadWait ..) = true ∧
      ((stJ object [w]).answerLanes w object).args.length < ((stJ object [w]).answerLanes w object).cells.length) := by decide +kernel

theorem witness_object_level :
    (({ object with reps := [{ (default : Replica) with state := [0, 0, 0, 0] }] } : Obj).reps.find? fun q => q.die == 0 && !q.failed) =
      some { (default : Replica) with state := [0, 0, 0, 0] } := by decide +kernel

/-- Lane 3 parked with a bound of cycle 1000 or 1001, held back by a YIELD, and so on. -/
def parked (p : Park) (W : Warp) : Warp := W.mapLanes [3] fun _ L => { L with slot := .parked p }
def yielded (y : Nat) (W : Warp) : Warp := W.mapLanes [3] fun _ L => L.mapFib fun f => { f with yieldAt := some y }
theorem witness_waits :
    (let s := { mon .fired with gangs := (stG (parked (.mwait none 7)) id).gangs };
      (s.monitor? 0 0 3).map (·.st) = some .fired ∧ ((s.warp 0 0).lane 3).slot = .parked (.mwait none 7) ∧ 0 < (s.gang 0).warps.length ∧
      3 < (s.warp 0 0).lanes.length) ∧ ((mon .armed).monitor? 0 0 3).map (·.st) = some .armed ∧
    (((stG (parked (.mwait (some 1000) 7)) id).warp 0 0).lane 3).slot = .parked (.mwait (some 1000) 7) ∧ st.now 0 0 = 1000 ∧
    (((stG (yielded 984) id).warp 0 0).lane 3).fib.yieldAt = some 984 ∧ 984 + 16 ≤ st.now 0 0 ∧ st.now 0 0 < 985 + 16 ∧
    (let s := stG id fun G => { G with accs := [work (.syncDcwb 6 4)] };
      ((s.gang 0).accs.find? fun o => o.id == 7 && o.warp == 0) = some (work (.syncDcwb 6 4))) ∧
    1024 ≤ ((stG (fun W => { W with candidate := 1024 }) id).warp 0 0).candidate ∧ (st.warp 0 0).candidate < 1024 := by decide +kernel

/-- The trap table, slot 0xFF01 of ASID 0, whose row 0 holds the handler address 0x1008. -/
def trapTab : Table :=
  { (default : Table) with slot := 0xFF01, desc := { (default : Desc) with width := 64, cap := 1, inc := 1, gen := 1, rowbase := 0x1D00 } }
def soft : Cause := { (default : Cause) with cls := 0x11, code := 5, pc := 0x1008, lanes := [3] }
def stTrap (k : Cause) (f : Warp → Warp) : State :=
  { stG (fun W => f { W with cause := some k }) id with tables := [trapTab], mem := Memory.putBytes [] 0x1D00 (leBytes 4 0x1008) }
theorem witness_trap :
    (((stTrap soft id).warp 0 0).cause = some soft ∧ ((stTrap soft id).gang 0).phase = .running ∧
      (stTrap soft id).entryPending 0 0 (soft.cls == 0x11) = false ∧ ((stTrap soft id).warp 0 0).handler = false ∧ soft.cls ≠ 0x10 ∧
      (stTrap soft id).hentry 0 ≠ 0 ∧ 3 < ((stTrap soft id).warp 0 0).lanes.length) ∧
    (let s := stTrap { soft with cls := 1 } id;
      (s.warp 0 0).cause = some { soft with cls := 1 } ∧ s.entryPending 0 0 false = false ∧ ((s.discard 0).warp 0 0).handler = false ∧
        (s.discard 0).hentry ((s.discard 0).gang 0).asid ≠ 0 ∧ 0 < (s.discard 0).gangs.length ∧
        0 < ((s.discard 0).gang 0).warps.length ∧ 3 < ((s.discard 0).warp 0 0).lanes.length) ∧
    (let s := stTrap { soft with cls := 1 } inHandler;
      ((s.discard 0).warp 0 0).handler = true ∧ s.entryPending 0 0 false = false) := by decide +kernel
theorem test_trap_entry :
    (let V := ((stTrap { soft with cls := 1 } id).enterTrap 0 0 { soft with cls := 1 }).warp 0 0;
      V.handler = true ∧ V.trapc = 0x105 ∧ V.trappc = 0x1008 ∧ (V.lane 3).fib.pc = 0x1008 ∧ (V.lane 3).fib.inH = true) := by decide +kernel

theorem witness_issue_faults :
    st.cur = some cur ∧ encode (.srd 0x40 4) ≠ [] ∧ (st.earlyFault (.iadd 0 4 0 0 0) cur).isSome = true ∧
    (({ st with cur := some { cur with issue := [] } }).earlyFault (.iadd 0 0 4 5 6) { cur with issue := [] } = none) ∧
    (Instr.srd 0x40 4).wf = true ∧ ((stG id fun G => { G with asid := 1 }).gang 0).asid ≠ 0 ∧ cur.rep = none := by decide +kernel

/-- The control plane's rows: table 5 at 0x3000 holds the descriptor of queue 0 in row 0 and the root's control block in row 1, table 8 at
0x3C00 the descriptor of queue 1; tables 6 at 0x3D00 and 7 at 0x3E00 are their rings of four records. -/
def tabAt (slot cap base : Nat) : Table :=
  { (default : Table) with slot := slot, desc := { (default : Desc) with width := 64, cap := cap, inc := 1, gen := 1, rowbase := base } }
/-- Rows 2 and 3 of table 1: a table descriptor and an object. -/
def lowMem : List Host.Cell := [(0x1880, 1), (0x1884, 64), (0x188C, 9), (0x18C4, 4)]
/-- The descriptor of queue 0 and the root's control block. -/
def ctlMem : List Host.Cell :=
  [(0x3000, 1), (0x3004, 1), (0x3006, 5), (0x300C, 1), (0x300E, 6), (0x3010, 4), (0x3020, 1), (0x3028, 1), (0x3048, 255), (0x3049, 255), (0x304A, 255), (0x304B, 255), (0x304C, 255), (0x304D, 255), (0x304E, 255), (0x304F, 255), (0x3050, 255), (0x3051, 255), (0x3052, 255), (0x3053, 255), (0x3054, 255), (0x3055, 255), (0x3056, 255), (0x3057, 255), (0x3058, 3), (0x3059, 1), (0x305A, 15)]
/-- The descriptor of queue 1, whose ring is empty, and whose ring holds one record. -/
def ring0 : List Host.Cell := [(0x3C00, 1), (0x3C04, 1), (0x3C06, 5), (0x3C0C, 1), (0x3C0E, 7), (0x3C10, 4), (0x3C28, 1)]
def ring1 : List Host.Cell := [(0x3C00, 1), (0x3C04, 1), (0x3C06, 5), (0x3C0C, 1), (0x3C0E, 7), (0x3C10, 4), (0x3C20, 1), (0x3C28, 1)]
def record1 : List Host.Cell := [(0x3E00, 4), (0x3E01, 16), (0x3E04, 1), (0x3E08, 1), (0x3E09, 1)]
def queue (n : Nat) (row : DWord) : Queue := { (default : Queue) with num := n, inc := 1, enabled := true, desc := row }
def queue1 : Queue := queue 1 0x0008_0001_0000_0000
def stC (hi : List Host.Cell) (gs : List Gang) : State :=
  { stR with
    tables := [tab1, tabAt 5 2 0x3000, tabAt 6 4 0x3D00, tabAt 7 4 0x3E00, tabAt 8 1 0x3C00], queues := [queue 0 0x0005_0001_0000_0000, queue1],
    tlb := [0x1000, 0x3000].map fun a => { asid := 0, vbase := a, size := 4096, pbase := a, key := 0, r := true, w := true, x := true, cache := .die 0 },
    gangs := gs, mem := lowMem ++ ctlMem ++ hi }

def rootRef : DWord := 0x0005_0001_0000_0001
def waiting : Gang := waitingGang 1 0 0 0 0 rootRef 0 5 { (default : LaunchRec) with entry := 0x1004, gangs := 1, wgs := 1, warps := 1 }
def sel (G : Gang) : State := { st with gangs := [G] }
def drainCols : List ColSt := [{ die := 0, phys := 0, logical := 0, st := 1, corrected := 0, uncorrected := 0 }]
def emptyWarp : Warp := { warp with lanes := (List.range 64).map fun l => { lane l with slot := .retired } }

theorem witness_gang_placement :
    (stC [] [waiting]).waits 0 = true ∧ (∀ h < (stC [] [waiting]).gangs.length, h = 0) ∧
    ((stC [] [waiting]).pathFor 0).isSome = true ∧
    (((stC [] [waiting]).pathFor 0).bind fun p => (stC [] [waiting]).placeFor 0 p).isSome = true ∧ st.waits 0 = false := by decide +kernel

theorem witness_gangs :
    (({ st with cols := drainCols }.gang 0).phase = .running ∧ ({ st with cols := drainCols }.colOf 0 0).st = 1) ∧
    ((sel { gang with phase := .draining }).gang 0).phase = .draining ∧ (sel { gang with phase := .draining }).drained 0 = true ∧
    (∃ o ∈ ((sel { gang with phase := .draining, ops := [work cpl] }).gang 0).ops, o.fault = none) ∧
    (sel { gang with warps := [emptyWarp] }).mayRetire 0 0 = true ∧ st.mayRetire 0 0 = false := by decide +kernel

/-- A test of the descriptor of queue 1. -/
def qdIs (s : State) (p : QDesc → Bool) : Bool :=
  match s.qdesc? queue1.desc with
  | some d => p d
  | none => false
theorem witness_launch :
    (stC [] []).queue? 1 = some queue1 ∧ qdIs (stC ring0 []) (fun d => d.tail == d.head && d.qstat / 2 % 2 == 0) = true ∧
    qdIs (stC (ring1 ++ record1) []) (fun d => d.tail != d.head && d.qstat / 2 % 2 == 0 &&
      match (stC (ring1 ++ record1) []).checkRecord d with | .ok (r, _) => r.cond == 0 | .error _ => false) = true ∧
    qdIs (stC ring1 []) (fun d => d.tail != d.head && !((stC ring1 []).checkRecord d).toBool) = true ∧
    (let s := { stC [] [] with recs := [{ (default : RecAcct) with queue := 1, total := 1, retired := 1, done := some 0x0001_0001_0000_0000 }] };
      ((s.recs.find? fun x => x.queue == 1 && x.idx == 0 && !x.halted && decide (x.total ≤ x.retired)).map (·.done)) =
        some (some 0x0001_0001_0000_0000)) := by decide +kernel

/-- Lane 3 launches from row 2 of table 1 on queue 1. -/
def stL (h : DWord) : State := stC ring0 [{ gang with region := rootRef, warps := [sregs [(12, h)] (regs3 [(6, 2), (7, 0x00010001)] warp)] }]
theorem witness_lnch : Issues (.lnch 4 6 6 0 12) cur (stL 0x10001) ∧ ((stL 0x10001).launchQueue 0 0x10001).isSome = true ∧
    ((stL 0x10001).laneRow 0 3 (((stL 0x10001).warp 0 0).get64 3 6) 0 64 .read).toBool = true :=
  ⟨issues_of (by decide +kernel), by decide +kernel, by decide +kernel⟩
theorem witness_lnch_lines : ∀ y, (stL 0x10001).lostCell y = false := fun _ => rfl
theorem witness_lnch_bad : Issues (.lnch 4 6 6 0 12) cur (stL 0x10009) ∧ (stL 0x10009).launchQueue 0 0x10009 = none :=
  ⟨issues_of (by decide +kernel), by decide +kernel⟩

/-- A command of a code with its arguments and a byte of its zero field. -/
def stK (code : Byte) (args : List (Nat × Byte)) (must0 : Byte) : State :=
  stC (ring0 ++ (if code = 0 then [] else [(0x3D00, code)]) ++ args.map (fun x => (0x3D00 + x.1, x.2)) ++
    if must0 = 0 then [] else [(0x3D18, must0)]) []
/-- The command at the head is one that a test accepts. -/
def cmdIs (s : State) (p : Cmd → Bool) : Bool :=
  match s.command? with
  | some (_, _, k) => p k
  | none => false
/-- For each code a command with a field that must be zero and is not; and the codes below and above those of commands. -/
theorem witness_command_codes :
    (∀ n ∈ [1, 2, 3, 4, 5, 6, 7, 8, 9, 10], cmdIs (stK (BitVec.ofNat 8 n) [] 1) (fun k => k.code == n && !k.zeros) = true) ∧
    ∀ n ∈ [0, 11], cmdIs (stK (BitVec.ofNat 8 n) [] 0) (fun k => k.code == n) = true := by decide +kernel
/-- Arguments: a 16-bit ARG0, the row of a reference in ARG1, a byte of ARG1 and of ARG2. -/
def c1 : State := stK 1 [(4, 9), (8, 2), (12, 1), (14, 1)] 0
def c1bad : State := stK 1 [(4, 255), (5, 255)] 0
def c3 : State := stK 3 [(4, 1), (8, 3), (12, 1), (14, 1)] 0
def c6 : State := stK 6 [(4, 255), (5, 15), (12, 1), (14, 8), (16, 1)] 0
def c7 : State := stK 7 [(4, 9)] 0
def c7none : State := { stK 7 [(4, 1)] 0 with queues := [queue 0 0x0005_0001_0000_0000, { queue1 with desc := 0 }] }
def c8 : State := stK 8 [(8, 1), (12, 1), (14, 5)] 0
def c10 : State := { stK 10 [(8, 64)] 0 with lost := [1] }
theorem witness_commands :
    cmdIs c1 (fun k => (c1.dirSet k).isSome) = true ∧ cmdIs c1bad (fun k => (c1bad.dirSet k).isNone) = true ∧
    cmdIs (stK 2 [(4, 254), (5, 255)] 0) (fun k => k.arg0 == 0xFFFE) = true ∧ cmdIs c3 (fun k => (c3.objSet k).isSome) = true ∧
    cmdIs (stK 4 [(4, 255), (5, 3)] 0) (fun k => k.arg0 == 1023) = true ∧
    cmdIs (stK 5 [(9, 16), (17, 16)] 0) (fun k => decide (k.arg1.toNat + k.arg2.toNat ≤ 2 ^ 48)) = true ∧
    cmdIs c6 (fun k => k.arg0 == 4095 && (c6.qdesc? k.arg1).isSome) = true ∧
    cmdIs c7 (fun k => (c7.queue? k.arg0).isNone) = true ∧
    (cmdIs c7none (fun k => (c7none.queue? k.arg0).isSome) = true ∧ c7none.qdesc? 0 = none) ∧
    (cmdIs c8 (fun k => (c8.rcb? k.arg1).isSome) = true ∧ c8.gangs = []) ∧
    cmdIs (stK 9 [(8, 64), (16, 64)] 0) (fun k => !inHole k.arg1.toNat && k.arg2 == 64) = true ∧
    cmdIs c10 (fun k => !inHole k.arg1.toNat && c10.lost.contains (k.arg1.toNat / 64)) = true := by decide +kernel

theorem witness_management :
    st.firmware = false ∧ ({ st with firmware := true }).firmware = true ∧ (List.replicate 48 (0 : Byte)).length = 48 ∧
    ({ State.reset with firmware := true }).leafNames 255 = false := by
  refine ⟨by decide +kernel, rfl, rfl, ?_⟩
  refine List.any_eq_false.mpr fun a ha => ?_
  have hp : ∀ i < 8, inPeer (8 * a + i) = false := fun i hi => by
    have := List.mem_range.mp ha
    simp only [inPeer, Bool.and_eq_false_iff, decide_eq_false_iff_not]
    omega
  have : ({ State.reset with firmware := true } : State).qword (8 * a) = 0 := by
    have h0 := hp 0 (by decide)
    simp only [Nat.add_zero] at h0
    simp [State.qword, State.readCell, unseen, State.reset, List.range, List.range.loop, leNat, unlisted, hp, h0]
  have e : ({ State.reset with firmware := true } : State).asidTable + 8 * a = 8 * a := Nat.zero_add _
  rw [e, this]
  decide

def stImg : State := { st with images := [([0], [4]), ([1], [5]), ([2], [6])] }
theorem witness_dead_agents :
    ({ st with dead := [.hub 1] }).dead.contains (.hub 1) = true ∧ ({ st with deadLinks := [3] }).deadLinks.contains 3 = true ∧
    st.deadLinks.contains 3 = false ∧
    (∀ link, (agentsOf st.peers)[Config.linkAgent link]? = none ∨ ∃ b, (agentsOf st.peers)[Config.linkAgent link]? = some b) ∧
    stImg.images.length = 3 ∧ (∃ im sig, stImg.afterReset.images[1]? = some (im, sig) ∧ (Config.verifies im sig = true ∨ Config.verifies im sig = false)) ∧
    (∃ im sig, stImg.afterReset.images[2]? = some (im, sig) ∧ (Config.verifies im sig = true ∨ Config.verifies im sig = false)) ∧
    ({ stImg with staged := [([1], [2])] }).staged = [([1], [2])] :=
  ⟨by decide +kernel, by decide +kernel, by decide +kernel, fun _ => Option.eq_none_or_eq_some _, rfl,
    ⟨_, _, rfl, by cases Config.verifies _ _ <;> simp⟩, ⟨_, _, rfl, by cases Config.verifies _ _ <;> simp⟩, rfl⟩

theorem witness_outside :
    holeIn (2 ^ 44) 4 = some (2 ^ 44) ∧ holeIn 0x1000 4 = none ∧ ({ st with dead := [.remote 2] }).dead.contains (.remote 2) = true ∧
    st.dead.contains (.remote 2) = false ∧ inDevice 0x1000 4 = true ∧ inDevice (2 ^ 44) 4 = false := by decide +kernel

theorem witness_repair :
    (st.swaps.contains (.column 0 0) = false ∧
      ∃ c ∈ ({ st with cols := [{ die := 0, phys := 0, logical := 0, st := 0, corrected := 256, uncorrected := 0 }] }).cols,
        c.die = 0 ∧ c.phys = 0 ∧ c.st = 0 ∧ (1 ≤ c.uncorrected ∨ 256 ≤ c.corrected)) ∧
    (∀ c ∈ st.cols, c.die = 0 → c.phys = 0 → c.st = 0 → c.uncorrected = 0 ∧ c.corrected < 256) ∧
    ({ st with swaps := [.hbmRow 1 2] }).swaps.contains (.hbmRow 1 2) = true ∧ scrubbed (2 ^ 41) = .l2 0 0 ∧
    scrubbed (2 ^ 40 - 1) = .memory (2 ^ 40 - 1) := by decide +kernel

theorem witness_banks : st.banks.lookup 5 = none ∧
    ∀ b ∈ [BankSt.freezing, .freezingThenThaw, .thawing, .frozen], ({ st with banks := [(5, b)] }).banks.lookup 5 = some b := by decide +kernel

def req (ph : DramPhase) (ready : Nat) : State := { st with dram := [{ (default : DramReq) with id := 7, phase := ph, ready := ready }] }
def pch (c : PChan) : State := { st with pchans := [c] }
def pc0 : PChan := freshPchan 0
theorem witness_dram :
    (∀ ph ∈ [DramPhase.travel, .wait, .service, .back], ((req ph 0).dramReq? 7).map (fun r => (r.phase, r.ready)) = some (ph, 0) ∧
      ((req ph 1).dramReq? 7).map (fun r => (r.phase, r.ready)) = some (ph, 1) ∧ ((req ph 0).pchan 0).clock = 0) ∧
    (let c := (pch { pc0 with due := 0, pendingAll := true }).pchan 0; c.self = false ∧ c.due ≤ c.clock ∧ c.pendingAll = true) ∧
    (let c := (pch { pc0 with due := 0, refresh := some { bank := none, ends := 9, exit := false } }).pchan 0;
      c.refresh = some { bank := none, ends := 9, exit := false }) ∧
    (let s := { pch { pc0 with due := 0, owed := 7 } with dram := (req .wait 0).dram }; s.atController 0 = true ∧ (s.pchan 0).owed < 8) ∧
    (let s := pch { pc0 with due := 0, owed := 7 }; s.atController 0 = false ∧ (s.pchan 0).pendingAll = false ∧ (s.pchan 0).refresh = none) ∧
    (pch { pc0 with due := 0, owed := 8 }).pchan 0 = { pc0 with due := 0, owed := 8 } ∧ (st.pchan 0).clock < (st.pchan 0).due ∧
    (let c := (pch { pc0 with refresh := some { bank := some 3, ends := 0, exit := false } }).pchan 0;
      c.refresh = some { bank := some 3, ends := 0, exit := false } ∧ 0 ≤ c.clock) ∧
    (let c := (pch { pc0 with idle := 490, owed := 1, due := 0 }).pchan 0; 490 ≤ c.idle ∧ 0 < c.owed ∧ c.refresh = none ∧ c.due ≤ c.clock) ∧
    (st.pchan 0).idle < 490 ∧
    (let c := (pch { pc0 with idle := 14000 }).pchan 0; 14000 ≤ c.idle ∧ c.self = false ∧ c.refresh = none) ∧
    (let c := (pch { pc0 with self := true, refresh := some { bank := none, ends := 0, exit := true } }).pchan 0;
      c.refresh = some { bank := none, ends := 0, exit := true }) := by decide +kernel

def regionAt (b ops : Nat) : Region := { (default : Region) with base := b, size := 64, ops := ops }
def walk0 (r : Option Tlb) : Walk := { (default : Walk) with result := r }
theorem witness_translation :
    (∀ r ∈ ([none, some { (default : Tlb) with size := 4096 }] : List (Option Tlb)),
      (({ State.reset with walks := [walk0 r] } : State).walks.find? fun v => v.asid == 0 && v.page == 0) = some (walk0 r)) ∧
    (let s := { st with regions := [regionAt 128 4096, regionAt 192 4096] };
      (s.regions.find? fun r => r.base == 128) = some (regionAt 128 4096) ∧
      (s.regions.find? fun r => r.base == 128 + 64 && r.size == 64) = some (regionAt 192 4096) ∧ 128 % (2 * 64) = 0 ∧
      (regionAt 128 4096).sameState (regionAt 192 4096) = true) ∧ (regionAt 128 4095).ops < 4096 ∧
    ({ st with prot := [{ (default : ProtPage) with key := 5, major := 2 ^ 56 }] }).keySpent 5 = true ∧ st.keySpent 5 = false ∧
    st.sweeps.contains 5 = false ∧ ({ st with sweeps := [5] }).sweeps.contains 5 = true := by decide +kernel

/-! ### Steps, decoding, the frame and landing -/

/-- A fetch of the quad of nops at 0x1000. -/
theorem witness_fetch : namesSlot 0x1004 = true ∧ st.fetchQuad 0 0 (quadOf 0x1004) = .ok [0, 0, 0, 0] ∧
    Machine.decodeSlot [0, 0, 0, 0] (slotOf 0x1004) = .ok .nop ∧ majOf 0 ≠ 0x7F := by decide +kernel

/-- The host's probe: `iadd.i32 v4, v5, s3` where the next step fetches. It issues, and its result is on its way. -/
def probe : State := State.reset.withFetchWord 32 0x03010283
theorem witness_step :
    probe.mover = .core 0 ∧
    (match ((probe.landCore 0).prepare 0).candidates 0 with
      | [((0, 0), [p])] => p.what == .ok (.iadd 1 0 4 5 3) && p.cur.gang == 0 && p.cur.warp == 0
      | _ => false) = true ∧ (((probe.landCore 0).prepare 0).warp 0 0).serial = false := by decide +kernel
theorem test_probe :
    (match probe.turn (.core 0) with
      | .next t => ((t.warp 0 0).pend.map fun p => (p.tgt, p.val, p.due)).take 2 == [(.reg 0 4, 0, 4), (.reg 1 4, 0, 4)] &&
          ((t.warp 0 0).lane 0).fib.pc == 0x10008
      | _ => false) = true := by decide +kernel

theorem witness_canonical : Instr.wf (.iadd 1 0 4 5 3) = true ∧ Instr.canonical (.iadd 1 0 4 5 3) = true ∧
    encode (.iadd 1 0 4 5 3) = [0x03010283] ∧ encode (.rejoin 9 0x4003) = [0xB8000009, 0x4003] := by decide +kernel

theorem witness_frame : latency (.iadd 1 0 4 5 3) ≠ 0 ∧ st.cur = some cur ∧
    (match exec (.iadd 1 0 4 5 3) st with | .next _ => true | _ => false) = true := by decide +kernel

/-- Two results for one register and one for an s-register are due. -/
def due : List Pend := [⟨.reg 3 4, 1, 1000, [], false⟩, ⟨.reg 3 4, 2, 1000, [], false⟩, ⟨.sreg 5, 3, 999, [], false⟩]
theorem witness_landing : (due.filter fun p => decide (p.due ≤ 1000)) = [⟨.reg 3 4, 1, 1000, [], false⟩] ++ ⟨.reg 3 4, 2, 1000, [], false⟩ :: [⟨.sreg 5, 3, 999, [], false⟩] ∧
    3 < warp.lanes.length ∧ 4 < (warp.lane 3).regs.length ∧ 5 < warp.sregs.length := by decide +kernel
theorem test_landing : ((({ warp with pend := due } : Warp).land 1000).lane 3).regs[4]? = some 2 := by decide +kernel

/-! ### Witnesses for the clauses that the states above leave out -/

/-- A core with no free block (its warp holds 12, and another 4), whose queue holds the requests `q`, and whose fibres wait at a REJOIN where told. -/
def stFull (stuck : Bool) (q : List (Nat × Nat × Nat × Nat)) : State :=
  { stG (fun W => { W with x := 12, lanes := W.lanes.map fun L =>
      if L.slot = .live ∧ stuck then { L with slot := .parked (.rejoin 0 0) } else L }) (fun G => { G with warps := G.warps ++ [{ warp with x := 4, lanes := (List.range 64).map fun l => { lane l with slot := .retired } }] })
    with cores := [{ core := 0, cycle := 1000, xacq := q }] }
def noneGoesOn (s : State) : Bool := (s.onCore 0).all fun p => laneIds.all fun l =>
  !((s.warp p.1 p.2).lane l).slot matches .live && !((s.warp p.1 p.2).lane l).slot matches .parked (.waitc ..) && !((s.warp p.1 p.2).lane l).slot matches .parked (.mwait ..) && !((s.warp p.1 p.2).lane l).slot matches .parked (.sync _)
theorem witness_grant_refused :
    (12 < (stX.warp 0 0).x + 11 ∧ ({ stX with cores := [{ core := 0, cycle := 1000, xacq := [(7, 0, 0, 11)] }] }.coreSt 0).xacq = [(7, 0, 0, 11)]) ∧
    (((stFull false [(7, 0, 1, 2)]).warp 0 1).x + 2 ≤ 12 ∧ (stFull false [(7, 0, 1, 2)]).blocksFor 0 0 < 2 ∧ noneGoesOn (stFull false [(7, 0, 1, 2)]) = false) ∧
    (let s := stFull true [(7, 0, 1, 2), (8, 0, 1, 3)];
      (s.coreSt 0).xacq = [(7, 0, 1, 2)] ++ [(8, 0, 1, 3)] ∧ (s.warp 0 1).x + 2 ≤ 12 ∧ s.blocksFor 0 0 < 2 ∧ noneGoesOn s = true ∧
        1 < (s.gang 0).warps.length) := by decide +kernel

/-- Line 0x1880 / 64, which lane 3 accesses, is lost. -/
def lostLine (s : State) : State := { s with lost := [0x1880 / 64] }
def accIs (r : Except Flt (List LaneAcc)) (p : List LaneAcc → Bool) : Bool :=
  match r with
  | .ok as => p as
  | .error _ => false
theorem witness_watches :
    accIs (stR.watchRows cur 6 4) (fun as => as.length == 1 && as.all fun x => !x.isBad stR) = true ∧
    accIs ((lostLine stR).watchRows cur 6 4) (fun as => as.any fun x => x.isBad (lostLine stR)) = true ∧
    (stR.watchRows cur 8 4).toBool = false ∧
    (∀ i ∈ ([.mwaitWatch 6 4, .syncDcwb 6 4, .syncDcinv 6 4, .mwaitWatch 8 4] : List Instr), issuesB i cur (lostLine stR) = true) := by decide +kernel

theorem witness_rep_bad : st.fetchQuad (st.coreOf 0 0) (st.gang 0).asid (quadOf cur.pc) = .ok [0, 0, 0, 0] ∧ repBad [0, 0, 0, 0] (slotOf cur.pc) 7 4 0 = true := by
  decide +kernel

theorem witness_completions_free :
    (stO cpl).opHeld (work cpl) = false ∧ stCpb.opHeld { work (.cpb 0 4 5 0 0) with uni := [0, 0x0001_0001_0000_0000] } = false ∧
    (stO (.xaccTile 4 5)).opHeld (work (.xaccTile 4 5)) = false ∧ stX2.opHeld xmma = false ∧ (work cpbBad).fault = none := by decide +kernel

theorem witness_stream_fetches :
    prodFetch.fetching = some 0 ∧ (stP prodFetch).fetchWaits 0 prodFetch (prodFetch.prog.getD 0 0) = false ∧
    (let p := { prodFetch with streams := [] }; (stP p).fetchWaits 0 p (p.prog.getD 0 0) = false ∧
      ((stP p).streamEntry 0 p (p.prog.getD 0 0)).toBool = false) := by decide +kernel

/-- Table 1 with its rows in the peer window, and with row 2's line lost. -/
def stPeer : State := { stR with
  tables := [{ tab1 with desc := { tab1.desc with rowbase := 0x2000 } }],
  tlb := stR.tlb ++ [{ asid := 0, vbase := 0x2000, size := 4096, pbase := 0x40000000000, key := 0, r := true, w := true, x := true, cache := .die 0 }] }
def accs (s : State) (k : Acc) (d a : Nat) : Except Flt (List LaneAcc) :=
  s.laneAccs cur 4 k (fun l => (s.warp 0 0).get64 l a) fun _ => d
theorem witness_row_stores :
    accIs (accs stPeer .write 12 6) (fun as => lostLane stPeer as == none && as.length == 1 && as.all fun x => x.cells.all inPeer && !x.tab.mixed) = true ∧
    accIs (accs ({ stR with lost := [0x1880 / 64] }) .write 12 6) (fun as => (lostLane { stR with lost := [0x1880 / 64] } as).isSome) = true ∧
    accIs (accs stR .write 12 6) (fun as => as.all fun x => x.cells.all fun a => !inPeer a && !stR.heldBack a) = true := by decide +kernel

theorem witness_access_contained :
    (stA []).workHeld { ldrWork with uni := [0] } = false ∧
    (let s := { stA [] with dead := [.remote 2], peers := [(0, 2)] }; s.containedCell 0x40000000000 = true) ∧ stR.containedCell 0x1880 = false := by
  decide +kernel

/-- Keyed work on table 2 for key 5, which the table holds, or for another, whose results await the registers `ts`. -/
def keyedWork (i : Instr) (key : QWord) (ts : List Tgt) : Work :=
  { work i with cells := [2], awaits := ts, args := [{ lane := 3, w := 0, d := 0, a := key, b := 9, c := BitVec.ofNat 128 ts.length }] }
/-- A walk of a page of ASID 0 on die 0 that has found no leaf. -/
def badWalk (page : Nat) : Walk := { (default : Walk) with page := page, started := true, fault := some (2, 4) }
/-- The state with that work at the index engines, and with table 2 changed; page 9 is not mapped. -/
def stKey (w : Work) (f : Table → Table) : State := { stR with tables := [tab1, f tab2, tab3, tab4], idx := [w], walks := [badWalk 9] }
def offMap (t : Table) : Table := { t with desc := { t.desc with rowbase := 0x9000 } }
def full (t : Table) : Table := { t with desc := { t.desc with live := 4 } }
def hold1 (t : Table) : Table := { t with desc := { t.desc with live := 1 } }
def threeTgts : List Tgt := [.reg 3 4, .reg 3 5, .flag 3 0]
/-- What the statement asks of keyed work that an engine performs. -/
def performs (w : Work) (f : Table → Table) : Bool :=
  let s := stKey w f
  (s.idx.find? fun v => v.id == 7) == some w && decide (w.ctx < s.gangs.length) && s.idxReady w && !s.spansHeld (s.idxSpans w) &&
    decide ((w.tgtsOf w.mark).length ≤ 5) && s.table? 0 2 == some (f tab2)
def cellsOk (s : State) (t : Table) (row o n : Nat) (k : Acc) (len : Nat) : Bool :=
  match s.keyCells t row o n k with
  | .ok cs => cs.length == len && decide cs.Nodup && cs.all fun c => !inPeer c
  | .error _ => false
def keyedForms : List (Instr × List Tgt) := [(.tget 4 5 5 1 1 12, threeTgts), (.ldk 0 4 5 5 1 1 12 8, [.reg 3 4, .flag 3 0]),
  (.stk 0 4 5 5 2 1 12 8, [.flag 3 0]), (.tins 0 4 5 8 5 3 1 12 8, threeTgts), (.tins 1 4 5 8 5 3 1 12 8, threeTgts),
  (.tdel 4 5 5 3 1 12, threeTgts), (.tupdVal 4 5 8 5 3 1 12 8, [.reg 3 4, .flag 3 0]), (.tupdFmt 4 5 8 5 3 1 12, [.reg 3 4, .flag 3 0])]
theorem witness_keyed_engine :
    keyedForms.all (fun x => [5, 6].all fun k => [id, hold1, full, offMap].all fun f => performs (keyedWork x.1 k x.2) f) = true ∧
    tab2.find (keyNum 1 5) = some { key := 5, row := 0, hits := 0 } ∧ tab2.find (keyNum 1 6) = none ∧ (keyedWork .nop 5 [.flag 3 0]).tgtsOf 0 = [.flag 3 0] := by
  decide +kernel
theorem witness_keyed_cells :
    (let w := keyedWork (.ldk 0 4 5 5 1 1 12 8) 5 [.reg 3 4, .flag 3 0];
      let u := (stKey w id).noteIdx w;
      [Acc.read, .write, .rmw].all (fun k => cellsOk u tab2 0 8 4 k 4) = true ∧
      [Acc.read, .write, .rmw].all (fun k => !(u.keyCells (offMap tab2) 0 8 4 k).toBool) = true) ∧
    (let w := keyedWork (.tins 0 4 5 8 5 3 1 12 8) 6 threeTgts;
      let u := (stKey w hold1).noteIdx w;
      cellsOk u (hold1 tab2) 1 0 64 .write 64 = true ∧ cellsOk u (hold1 tab2) 1 8 4 .write 4 = true ∧ (hold1 tab2).desc.live < (hold1 tab2).desc.cap ∧
        1 ≤ (hold1 tab2).keys.length ∧ (∀ e ∈ (hold1 tab2).keys, e.row ≠ 1) ∧ (∀ j < 1, ∃ e ∈ (hold1 tab2).keys, e.row = j) ∧
        (full tab2).desc.cap ≤ (full tab2).desc.live) := by decide +kernel

/-- Table 3, whose rows have a format each, with key 5 in row 0, whose bytes are `b`. -/
def stFmt (width : Nat) (code : QWord) (b : List Host.Cell) : State :=
  { stR with tables := [tab1, tab2, { tab3 with keys := [{ key := 5, row := 0, hits := 7 }], desc := { tab3.desc with width := width } }, tab4], mem := b,
             idx := [{ keyedWork (.tupdFmt 4 5 8 5 3 1 13) 5 [.reg 3 4, .flag 3 0] with
               cells := [3], args := [{ lane := 3, w := 0, d := 0, a := 5, b := code, c := 2 }] }] }
def fmtIs (s : State) (p : List Byte → Bool) : Bool :=
  match s.idx, s.table? 0 3 with
  | [w], some t => s.idxReady w && !s.spansHeld (s.idxSpans w) && t.mixed && match (s.noteIdx w).keyCells t 0 0 t.desc.width .rmw with
      | .ok cs => p (cs.map ((s.noteIdx w).readCell (pathOf t.desc.aper 0)))
      | .error _ => false
  | _, _ => false
theorem witness_row_formats :
    fmtIs (stFmt 66 2 []) (fun bs => (rowVals tab3.elems bs).isNone) = true ∧
    fmtIs (stFmt 66 2 [(0x1600, 2)]) (fun bs => (rowVals tab3.elems bs).isSome && (bs.getD 0 0).toNat == 2) = true ∧
    fmtIs (stFmt 66 1 [(0x1600, 2)]) (fun bs => (rowVals tab3.elems bs).isSome && decide (rowLen 1 tab3.elems ≤ 66)) = true ∧
    fmtIs (stFmt 1 3 [(0x1600, 2)]) (fun bs => (rowVals 0 bs).isSome && decide (1 < rowLen 3 0)) = true ∧
    (stFmt 66 3 [(0x1600, 2)]).heldBack 0x1600 = false := by decide +kernel

/-- The state of a small-matrix move, with the line of row 2 lost where told. -/
def stMat (lost : List Nat) : State := { stT (fun W => { W with ms := 0x490 }) id with lost := lost }
def matIs (s : State) (k : Acc) (p : List LaneAcc → Bool) : Bool :=
  match s.matAccs cur 4 k 6 10 with
  | .ok rows => p rows.flatten
  | .error _ => false
theorem witness_matrix_moves :
    matIs (stMat []) .read (fun as => (badLane (stMat []) as).isNone && as.length == 4) = true ∧
    matIs (stMat [0x1880 / 64]) .read (fun as => (badLane (stMat [0x1880 / 64]) as).isSome) = true ∧
    matIs (stMat [0x1880 / 64]) .write (fun as => (lostLane (stMat [0x1880 / 64]) as).isSome) = true ∧
    ((stMat []).matAccs cur 4 .read 8 10).toBool = false ∧ ((stMat []).matAccs cur 4 .write 8 10).toBool = false ∧
    (∀ i ∈ ([.mld 0 16 6 10, .mst 0 16 6 10, .mld 0 16 8 10, .mst 0 16 8 10] : List Instr),
      issuesB i cur (stMat [0x1880 / 64]) = true ∧ issuesB i cur (stMat []) = true) ∧ ((stMat []).warp 0 0).ms ≠ 0 := by decide +kernel

theorem witness_matrix_lands : (let o : Work := { work (.mmov 8 40) with mark := 2 };
    o.mark = 2 ∧ o.fault = none ∧ o.ctx = 0 ∧ countsLatc o.instr = false ∧ 0 < stM.gangs.length ∧ o.warp < (stM.gang 0).warps.length) ∧
    ((st.gang 0).accs.find? fun w => w.id == 7) = none ∧ (((stA []).gang 0).accs.find? fun w => w.id == 7).map (·.mark) = some 0 := by decide +kernel

/-- An object of two replicas, at dies 0 and 1, of which each holds a copy of the log. -/
def object2 : Obj := { object with mirror := some 1, reps := object.reps ++ [{ (default : Replica) with die := 1, state := [0, 0, 0, 0], known := 1 }] }
def callOf (i : Instr) (args : List Arg) : Work := { call i with uni := [1], args := args }
def oneArg : List Arg := [{ lane := 3, w := 0, d := 0, a := 0, b := 0, c := 0 }]
def rcall0 : Work := callOf (.rcall 4 20 6 0 12 0) oneArg
theorem witness_appends :
    (let s := stJ object2 [rcall0];
      (s.calls.find? fun q => q.id == 7) = some rcall0 ∧ s.mayCall rcall0 = true ∧ (s.calls.takeWhile fun p => p.id != 7) = [] ∧
        s.objAt 0 1 = some object2 ∧ s.objOf rcall0 = some object2 ∧ rcall0.cells.getD 0 0 = 1 ∧ (s.gang rcall0.ctx).asid = 0 ∧
        object2.lost = false ∧ object2.copying = false ∧ object2.mirror.isSome = true ∧ object2.tail + rcall0.args.length ≤ object2.applied + 4096) ∧
    (stJ { object2 with inc := 2 } [rcall0]).objOf rcall0 = none ∧
    (stJ { object2 with lost := true } [rcall0]).objOf rcall0 = some { object2 with lost := true } ∧
    (∀ o ∈ [{ object2 with copying := true }, { object2 with mirror := none }, { object2 with tail := 4096 }],
      (stJ o [rcall0]).objOf rcall0 = some o ∧ o.lost = false) ∧
    4096 + 1 > ({ object2 with tail := 4096 } : Obj).applied + 4096 := by decide +kernel

theorem witness_applies :
    (let p := object2.repOf 0; p ∈ object2.reps ∧ p.die = 0 ∧ p.failed = false ∧ p.applied < p.known ∧ p.outs = [] ∧ object2.home = 0 ∧
      (object2.log.find? fun x => x.seq == p.applied + 1) = some entry1) ∧
    (let p := object2.repOf 1; p ∈ object2.reps ∧ p.die = 1 ∧ p.failed = false ∧ p.applied < p.known ∧ 1 ≠ object2.home ∧ (object2.repOf object2.home).outs = [] ∧
      (object2.log.find? fun x => x.seq == p.applied + 1) = some entry1) := by decide +kernel

def rwait : Work := callOf (.rreadWait 4 30 6 1 12) []
def rread : Work := callOf (.rreadRead 4 20 30 6 0 12 0) [{ (default : Arg) with lane := 3 }]
def lane0 : Obj := { object2 with reps := [{ (default : Replica) with state := [0, 0, 0, 0], applied := 1, known := 1 }] }
theorem witness_object_reads :
    (let s := stJ lane0 [rread]; let y := rread.args.getD 0 default;
      (s.calls.find? fun q => q.id == 7) = some rread ∧ s.mayCall rread = true ∧ (s.calls.head?.map (·.id)) = some 7 ∧ s.objOf rread = some lane0 ∧
        s.coreOf rread.ctx rread.warp / 288 = 0 ∧ lane0.repOf 0 ∈ lane0.reps ∧ (lane0.repOf 0).die = 0 ∧ (lane0.repOf 0).failed = false ∧
        rread.args = [y] ∧ rread.cells.length = 1 ∧ y.c.toNat ≤ (lane0.repOf 0).applied) ∧
    (stJ { object2 with inc := 2 } [rwait]).objOf rwait = none ∧
    (stJ { object2 with lost := true } [rwait]).objOf rwait = some { object2 with lost := true } ∧
    (stJ object2 [rwait]).objOf rwait = some object2 ∧
    ((stJ object2 [rwait]).answerLanes rwait object2).args.length < ((stJ object2 [rwait]).answerLanes rwait object2).cells.length := by decide +kernel

def waitsAt (m : Option Mon) (b : Option Nat) : State :=
  let s := { mon .armed with gangs := (stG (parked (.mwait b 7)) fun G => { G with accs := [{ work (.mwaitWait 4 5) with awaits := [.reg 3 4] }] }).gangs }
  { s with monitors := match m with
      | none => []
      | some x => (mon x).monitors }
theorem witness_mwait_ends :
    (∀ m ∈ [some Mon.fired, some .lost, some .armed, none], ((waitsAt m (some 1000)).monitor? 0 0 3).map (·.st) = m) ∧
    (let s := waitsAt (some .armed) (some 1000); ((s.warp 0 0).lane 3).slot = .parked (.mwait (some 1000) 7) ∧ s.now 0 0 = 1000 ∧ 0 < s.gangs.length ∧
      0 < (s.gang 0).warps.length ∧ 3 < (s.warp 0 0).lanes.length ∧ 4 < ((s.warp 0 0).lane 3).regs.length ∧
      ((s.gang 0).accs.find? fun o => o.id == 7).map (·.awaits) = some [.reg 3 4]) ∧
    (((waitsAt (some .armed) (some 1001)).warp 0 0).lane 3).slot = .parked (.mwait (some 1001) 7) ∧
    (((waitsAt (some .armed) none).warp 0 0).lane 3).slot = .parked (.mwait none 7) ∧ ((st.warp 0 0).lane 3).slot = .live := by decide +kernel

/-- A gang that drains, whose first operation has met a fault, and whose second waits behind it for the accumulator store. -/
def drainingFault : Gang :=
  { gang with phase := .draining, ops := [{ work (.xaccTile 4 5) with fault := some (flt 1 1) }, { work (.xaccTile 4 5) with id := 8 }] }
theorem witness_drains :
    ((sel drainingFault).drained 0 = true ∧ ∀ o ∈ ((sel drainingFault).gang 0).ops, ((sel drainingFault).gang 0).opOver o = true) ∧
    (let G := (sel { gang with phase := .draining, ops := [work cpl] }).gang 0; G.phase = .draining ∧ ∃ o ∈ G.ops, G.opOver o = false) ∧
    (stC [] [waiting]).waits 0 = true ∧ ((stC [] [waiting]).gang 0).phase = .waiting := by decide +kernel

theorem witness_queue_errors :
    queue1.enabled = true ∧ queue1.wait = 0 ∧ queue1.placing = none ∧
    qdIs (stC (ring0.dropLast ++ [(0x3C28, 3)]) []) (fun d => d.qstat / 2 % 2 == 1) = true ∧
    (let s := { stC ring0 [] with queues := [queue 0 0x0005_0001_0000_0000, { queue1 with enabled := false }] };
      (s.queue? 1).map (·.enabled) = some false ∧ qdIs s (fun _ => true) = true) := by decide +kernel
/-- The ring of queue 1 holds a record with a condition, whose SEM word is word 0 of row 2 of table 1. -/
def record2 (cond : Byte) : List Host.Cell := [(0x3E00, 4), (0x3E01, 16), (0x3E04, 1), (0x3E08, 1), (0x3E09, 1)] ++
  (if cond = 0 then [] else [(0x3E0A, cond)]) ++ [(0x3E20, 2), (0x3E24, 1), (0x3E26, 1)]
def condIs (s : State) (p : State → LaunchRec → Nat → Bool) : Bool :=
  let u := s.mapQueue 1 fun x => { x with headAt := some (x.headAt.getD s.tick) }
  qdIs s fun d => d.tail != d.head && d.qstat / 2 % 2 == 0 && match u.checkRecord d with
    | .ok (r, path) => p u r (effAsid path)
    | .error _ => false
def semIs (s : State) (b : Bool) : Bool := condIs s fun u r a => r.cond != 0 && match u.rowRead a r.sem 0 8 with
  | some bs => launchTest r.cond (BitVec.ofNat 64 (leNat bs)) r.sval == b
  | none => false
theorem witness_conditions :
    semIs (stC (ring1 ++ record2 1) []) false = true ∧ semIs (stC (ring1 ++ record2 2) []) true = true ∧
    condIs { stC (ring1 ++ record2 1) [] with lost := [0x1880 / 64] } (fun u r a => r.cond != 0 && (u.rowRead a r.sem 0 8).isNone) = true := by decide +kernel

theorem witness_lnch_rooms :
    qdIs (stL 0x10001) (fun k => decide (k.tail - k.head < k.size) && (stL 0x10001).hasRoom k) = true ∧
    accIs ((stL 0x10001).laneAccs cur 64 .read (fun l => ((stL 0x10001).warp 0 0).get64 l 6) fun _ => 0) (fun as => as.length == 1 && as.all fun x => !x.isBad (stL 0x10001)) = true ∧
    ((stL 0x10001).laneAccs cur 64 .read (fun l => ((stL 0x10001).warp 0 0).get64 l 8) fun _ => 0).toBool = false ∧
    (let s := stC (ring0 ++ [(0x3C20, 4)]) []; qdIs s (fun k => !s.hasRoom k) = true) := by decide +kernel

/-- Two gangs of the root's subtree, the first of them halted. -/
def c8g (gs : List Gang) : State := { c8 with gangs := gs.map fun G => { G with region := rootRef } }
theorem witness_region_halt :
    cmdIs (c8g []) (fun k => k.code == 8 && k.zeros && (c8g []).rcb? k.arg1 != none) = true ∧
    (let s := c8g [{ gang with phase := .halted }, gang];
      cmdIs s (fun k => k.code == 8 && k.zeros && (s.rcb? k.arg1).isSome && s.inSubtree (s.gang 1).region k.arg1) = true ∧
        s.gangs.length = 1 + 1 ∧ (s.gang 0).inBeing = false ∧ (s.gang 1).inBeing = true) ∧
    (let s := c8g [{ gang with phase := .halted }];
      cmdIs s (fun k => k.code == 8 && (s.rcb? k.arg1).isSome) = true ∧ ∀ g < s.gangs.length, (s.gang g).inBeing = false) := by decide +kernel

theorem witness_command_failures :
    (stR.command? = none) ∧
    cmdIs (stK 2 [(4, 255), (5, 255)] 0) (fun k => k.zeros && decide (0xFFFE < k.arg0)) = true ∧
    cmdIs (stK 3 [(4, 1)] 0) (fun k => k.zeros && ((stK 3 [(4, 1)] 0).objSet k).isNone) = true ∧
    cmdIs (stK 4 [(5, 4)] 0) (fun k => k.zeros && decide (1024 ≤ k.arg0)) = true ∧
    cmdIs (stK 5 [(13, 255), (14, 1), (20, 1)] 0) (fun k => k.zeros && decide (2 ^ 48 < k.arg1.toNat + k.arg2.toNat)) = true ∧
    cmdIs (stK 6 [(5, 16)] 0) (fun k => k.zeros && decide (4096 ≤ k.arg0)) = true ∧
    cmdIs (stK 6 [(4, 1)] 0) (fun k => k.zeros && decide (k.arg0 < 4096) && ((stK 6 [(4, 1)] 0).qdesc? k.arg1).isNone) = true ∧
    cmdIs (stK 8 [] 0) (fun k => k.zeros && (((stK 8 [] 0).rcb? k.arg1) == none)) = true ∧
    cmdIs (stK 9 [(14, 255)] 0) (fun k => k.zeros && decide (2 ^ 44 < k.arg1.toNat + k.arg2.toNat)) = true ∧
    cmdIs (stK 10 [(13, 255)] 0) (fun k => k.zeros && inHole k.arg1.toNat) = true ∧
    cmdIs (stK 10 [(8, 64)] 0) (fun k => k.zeros && !inHole k.arg1.toNat && !(stK 10 [(8, 64)] 0).lost.contains (k.arg1.toNat / 64)) = true ∧
    cmdIs (stK 7 [(4, 9)] 0) (fun k => k.zeros) = true ∧
    cmdIs (stK 7 [(4, 1)] 0) (fun k => k.code == 7 && k.zeros && (((stK 7 [(4, 1)] 0).queue? k.arg0).bind fun x =>
      (stK 7 [(4, 1)] 0).qdesc? x.desc).isSome) = true := by decide +kernel

theorem witness_outside_free :
    st.outsideHeld 0x1000 4 true = false ∧ st.outsideHeld 0x1000 4 false = false ∧ inPeer 0x1000 = false ∧ st.containedCell 0x1000 = false ∧
    st.lostCell 0x1000 = false ∧ Memory.wf st.mem = true ∧
    ({ st with swaps := [Part.hbmRow (stackOf 0x1000) (nfld 0x1000 23 16)] }).outsideHeld 0x1000 4 true = true := by decide +kernel

theorem witness_worn :
    (let s := { st with cols := [{ die := 0, phys := 0, logical := 0, st := 0, corrected := 256, uncorrected := 0 }], errors := [(Part.column 0 0, (256, false)), (Part.hbmRow 1 2, (1, true))] };
      s.swaps.contains (.column 0 0) = false ∧ s.errors.lookup (Part.column 0 0) = some (256, false) ∧ s.errors.lookup (Part.hbmRow 1 2) = some (1, true) ∧
        (∃ c ∈ s.cols, c.die = 0 ∧ c.phys = 0 ∧ c.st = 0)) ∧
    ({ st with errors := [(Part.hbmRow 1 2, (255, false))] }).errors.lookup (Part.hbmRow 1 2) = some (255, false) ∧ st.errors.lookup (Part.column 0 0) = none := by decide +kernel

def tlb0 : Tlb := { (default : Tlb) with size := 4096 }
def started (r : Option Tlb) : Walk := { (default : Walk) with started := true, result := r, attached := [0] }
theorem witness_walks :
    (∀ r ∈ [none, some tlb0], (({ State.reset with walks := [started r] } : State).walks.find? fun v => v.asid == 0 && v.page == 0 && v.started) = some (started r)) ∧
    (({ State.reset with walks := [walk0 none] } : State).walks.find? fun v => v.asid == 0 && v.page == 0 && v.started) = none ∧
    State.reset.tlb = [] ∧ (started (some tlb0)).attached = [0] ∧
    (let a := regionAt 128 4096; let b := regionAt 192 4096; b.home = a.home ∧ b.base = a.base + a.size ∧ b.size = a.size ∧ a.base % (2 * a.size) = 0 ∧ a.size < 65536 ∧
      a.sameState b = true ∧ 4096 ≤ a.ops ∧ 4096 ≤ b.ops ∧ 0 < a.size) ∧
    (let s := { st with prot := [{ (default : ProtPage) with page := 3, key := 5, busy := true }], sweeps := [5] };
      (∀ p ∈ s.prot, p.key = 5 → p.waiting = []) ∧ s.sweeps.contains 5 = true ∧ ∀ p ∈ s.prot, p.page = 3 → p.waiting = []) := by decide +kernel

theorem witness_event_step : State.reset.mover = .event .deviceReset ∧ encode .deviceReset = [] := by decide +kernel

theorem witness_controller : (∀ b ∈ [true, false], (({ st with dram := [{ (default : DramReq) with id := 7, phase := .service, priv := b }] } : State).dramReq? 7).map (·.priv) = some b) := by
  decide +kernel

/-! ### Witnesses for held accesses, codes of numbers, holds of pre-emption and the rest -/

/-- Codes of `.f32`: 1, 0, -1, a NaN and an infinity; and 1 is no code of `.e8m0`'s NaN. -/
theorem witness_codes : CodeIs .f32 0x3F800000 1 ∧ CodeIs .f32 0 0 ∧ CodeIs .f32 0xBF800000 (-1) ∧ NanCode .f32 0x7FC00000 ∧
    InfCode .f32 false 0x7F800000 ∧ CodeIs .e8m0 0x7F 1 := by
  have h : ∀ f ∈ ([.e4m3, .e2m1, .e8m0] : List Num.Fmt), Num.Fmt.f32 ≠ f := by decide
  have h4 := h _ (.head _)
  have h2 := h _ (.tail _ (.head _))
  have h8 := h _ (.tail _ (.tail _ (.head _)))
  norm_num [CodeIs, NanCode, InfCode, withSign, fmtRow, signOf, h4, h2, h8]

/-- Lane 3's window is the last but one of the warp's space. -/
def highWindow (W : Warp) : Warp := W.mapLanes [3] fun _ L => L.mapFib fun f => { f with w := 112 }
theorem witness_release_window : Issues (.regsXrel 2) cur (stG highWindow id) ∧ 2 ≤ ((stG highWindow id).warp 0 0).x ∧
    ∃ l ∈ laneIds, (((stG highWindow id).warp 0 0).lane l).holds = true ∧
      64 + 32 * (((stG highWindow id).warp 0 0).x - 2) < (((stG highWindow id).warp 0 0).lane l).fib.w + 8 :=
  ⟨issues_of (by decide +kernel), by decide +kernel, 3, by decide +kernel⟩

/-- Room held in cluster 0 for a saved gang of four workgroups, whose first holds `x` extended blocks and `n` cursors, and which has `t` tiles. -/
def heldGang (x n t : Nat) : Gang :=
  { gang with phase := .saved, warps := [{ warp with x := x }], wgs := { (default : Wg) with cursors := List.replicate n default } :: List.replicate 3 default,
              launch := { (default : LaunchRec) with wgs := 4, warps := 1 }, tiles := List.replicate t default }
def holding (s : State) (G : Gang) : State := { s with gangs := s.gangs ++ [G], reserved := [(0, 1)] }
theorem witness_hold_blocks :
    (let s := holding stX (heldGang (stX.poolFree 0) 0 0);
      (s.coreSt 0).xacq = [(7, 0, 0, 2)] ∧ 2 ≤ s.blocksFor 0 0 ∧ (s.warp 0 0).x + 2 ≤ 12 ∧ s.keepsRoom (s.mapWarp 0 0 fun V => V.grow 2) 0 0 = false) ∧
    (let s := holding stX (heldGang (stX.poolFree 0 - 2) 0 0); s.keepsRoom (s.mapWarp 0 0 fun V => V.grow 2) 0 0 = true) := by decide +kernel
theorem witness_hold_tiles :
    ∀ x ∈ [(256, false), (255, true)], let s := holding st (heldGang 0 0 x.1); let u := s.advance (.tileDef 4 5) cur;
      issuesB (.tileDef 4 5) cur s = true ∧ (s.gang 0).tile? 0 = none ∧ s.tilesUsed (s.gang 0) < 256 ∧
        u.keepsRoom (u.mapGang 0 fun H => { H with tiles := H.tiles ++ [{ num := 0, desc := (s.warp 0 0).s 5, st := .empty }] }) 0
          (s.coreOf 0 0 / 16) = x.2 := by decide +kernel
/-- All cursors of the core are held for the saved gang, or none is. -/
theorem witness_hold_cursors :
    (let s := holding stR (heldGang 0 2048 0); issuesB (.tseek 0 0 4 5 5 1 1 12) cur s = true ∧ s.reserved = [(0, 1)] ∧ s.coreOf 0 0 / 16 = 0) ∧
    ∀ r ∈ stR.reserved, r.2 = cur.gang ∨ r.1 / 4 ≠ stR.coreOf cur.gang cur.warp / 16 := by decide +kernel

/-- A write of the watched block that path 0 does not show yet. -/
theorem witness_unseen :
    (∃ e ∈ ({ stR with stale := [{ cell := 0x1880, old := 1, paths := 1 }] }).stale, e.cell / 64 * 64 = 0x1880 ∧ e.paths.getLsbD 0 = true ∧ (0, 0) ∉ e.but) ∧
    issuesB (.mwaitWatch 6 4) cur { stR with stale := [{ cell := 0x1880, old := 1, paths := 1 }] } = true ∧ stR.stale = [] := by decide +kernel

/-- The slot that REP repeats has a field that must be zero and is not, or may be repeated. -/
def stRepBad : State := { st with mem := Memory.putBytes [] 0x1004 (leBytes 4 0xFE3C0000 ++ leBytes 4 0x12000286) }
def repIs (s : State) (p : Option Flt → Bool) : Bool :=
  match s.repCheck cur 7 4 0 with
  | .ok (bad, _, _) => p bad
  | .error _ => false
theorem witness_rep_slots : repIs stRep Option.isNone = true ∧ repIs stRepBad Option.isSome = true ∧ stRepBad.cur = some cur := by decide +kernel

/-- The DRAM rows of some low addresses are being repaired: what reads or writes them waits. -/
def mending (s : State) : State := { s with swaps := [0x1880, 0x1400].map fun a => .hbmRow (stackOf a) (nfld a 23 16) }
/-- A copy of row 2 of table 1, a bulk copy, a multiplication whose first map is of rows, and a copy whose second lane's reference is not valid. -/
def cplRow : Work := { work (.cpl 0 4 6 5 1 10 0) with args := [{ lane := 3, w := 0, d := 0, a := 0x0001_0001_0000_0002, b := 32, c := 0 }] }
def cpbRow : Work := { work (.cpb 0 4 5 0 0) with uni := [0, 0x0001_0001_0000_0000] }
def xmmaRow : Work := { xmma with uni := [0x4803C0F000000001, 0x0003C0F000000001, 0, 0x0001_0001_0000_0000, 0, 0, 0, 0] }
def cplHalf : Work := { cplRow with args := cplRow.args ++ [{ lane := 4, w := 0, d := 32, a := 0x0009_0001_0000_0002, b := 32, c := 0 }] }
def stOps (ws : List Work) : State := stT id fun G => { tiles2 G with ops := ws, tiles := [{ num := 0, desc := 0x3C00, st := .filling }, { num := 1, desc := 0x10003C0F, st := .ready }] }
theorem witness_held_operations :
    (∀ w ∈ [cplRow, cpbRow, xmmaRow], ((mending (stOps [w])).gang 0).op? 7 = some w ∧ (mending (stOps [w])).opHeld w = true ∧ w.fault = none ∧
      ((mending (stOps [w])).opEffect w).toBool = true) ∧ ((mending (stOps [xmmaRow])).gang 0).accHead xmmaRow = true ∧
    (mending (stOps [cplHalf])).opHeld cplHalf = true ∧ ((mending (stOps [cplHalf])).sideFault cplHalf).isSome = true ∧
    (stOps [cplHalf]).opHeld cplHalf = false ∧ ((stOps [cplHalf]).sideFault cplHalf).isSome = true := by decide +kernel

/-- Before a data fence of table 1 the warp has a copy to it that has met a fault. -/
def copyOut : Work := { work (.cpl 0 4 6 5 0 10 0) with id := 5, fault := some (flt 1 1) }
theorem witness_fence_after_fault :
    (let s := stOps [copyOut, work (.dfence 11)]; (s.gang 0).op? 7 = some (work (.dfence 11)) ∧ s.table? 0 1 = some tab1 ∧ s.idx = [] ∧
      ∀ p ∈ (s.gang 0).ops, p.warp = 0 → p.id < 7 → p.fault = none → p.writesTable 1 = false) := by decide +kernel

/-- A producer at a fetch, at a push whose queue is full, and with a fetch that waits. -/
def prodNext : Producer := { prodFetch with fetching := none }
def fullQueue (G : Gang) : Gang := { G with queues := List.replicate 8 (List.replicate 64 { width := 0, val := 0 }) }
theorem witness_stream_waits :
    (prodNext.prog[prodNext.next]? = some 0x5000_0000_0000_0000 ∧ sopOf 0x5000_0000_0000_0000 = 5 ∧ prodNext.running = true ∧ prodNext.fetching = none ∧
      (((stP prodNext).gang 0).queues.getD (sopQ 0x5000_0000_0000_0000) []).length < 64) ∧
    (let s := stT id fun G => fullQueue { G with producer := some prod };
      (s.gang 0).producer = some prod ∧ 64 ≤ ((s.gang 0).queues.getD (sopQ 0x8000_0000_0000_0007) []).length ∧ sopOf 0x8000_0000_0000_0007 = 8) ∧
    prodFetch.fetching.isSome = true ∧ (mending (stP prodFetch)).fetchWaits 0 prodFetch (prodFetch.prog.getD 0 0) = true := by decide +kernel

/-- Keyed work that may act, that waits, and that stands behind other work of its warp on its table. -/
theorem witness_keyed_waits :
    (let w := keyedWork (.ldk 0 4 5 5 1 1 12 8) 5 [.reg 3 4, .flag 3 0]; let v : Work := { w with id := 3 };
      (stKey w id).idxReady w = true ∧ (mending (stKey w id)).idxReady w = true ∧ (mending (stKey w id)).spansHeld ((mending (stKey w id)).idxSpans w) = true ∧
      (let s := { stKey w id with idx := [v, w] }; s.idxReady w = false ∧
        ∃ p ∈ s.idx.takeWhile fun p => decide (p.id ≠ w.id), p.ctx = w.ctx ∧ p.warp = w.warp ∧ p.cells.any w.cells.contains = true)) := by decide +kernel

/-- An access that has met a fault, of a warp with a cause or without, and of a gang that drains; one whose page has a walk or that waits;
one that the DRAM has not answered; and one of a contained byte. -/
def badWork : Work := { ldrWork with uni := [1], fault := some (flt 0x10 1) }
def stAcc (w : Work) (f : Warp → Warp) (ph : Phase) : State := stT f fun G => { G with accs := [w], phase := ph }
theorem witness_accesses :
    (let s := stAcc badWork id .running; ((s.gang 0).accs.find? fun w => w.id == 7) = some badWork ∧ s.walking badWork = false ∧ s.workHeld badWork = false ∧
      s.dram = [] ∧ (s.warp 0 0).cause = none ∧ (s.gang 0).phase = .running ∧ badWork.warp < (s.gang 0).warps.length) ∧
    (((stAcc badWork (fun W => { W with cause := some soft }) .running).warp 0 0).cause.isSome = true) ∧
    ((stAcc badWork id .draining).gang 0).phase ≠ .running ∧
    (stA [{ (default : Walk) with page := 0 }]).walking { ldrWork with uni := [0] } = true ∧
    (mending (stAcc { ldrWork with cells := [0x1880] } id .running)).workHeld { ldrWork with cells := [0x1880] } = true ∧
    (∃ r ∈ ({ stA [] with dram := [{ (default : DramReq) with acc := some 7 }] }).dram, r.ctx = 0 ∧ r.acc = some 7) ∧
    ({ stA [] with dead := [.remote 2], peers := [(0, 2)] }).containedCell 0x40000000000 = true := by decide +kernel

/-- One lane of a read-modify-write whose line is lost, or is not, in memory and in the peer window. -/
theorem witness_rmw :
    accIs (accs (lostLine stR) .rmw 12 6) (fun as => as.length == 1 && as.all fun q => q.isBad (lostLine stR)) = true ∧
    accIs (accs stR .rmw 12 6) (fun as => as.length == 1 && as.all fun q => !q.isBad stR && !q.tab.mixed && decide (12 + q.cells.length ≤ q.tab.desc.width) &&
      decide q.cells.Nodup && q.cells.all fun a => !inPeer a) = true ∧
    accIs (accs stPeer .rmw 12 6) (fun as => as.length == 1 && as.all fun q => !q.isBad stPeer && !q.tab.mixed && q.cells.all inPeer) = true := by decide +kernel

/-- Both packed layouts of a small matrix. -/
theorem witness_packed : ∀ x ∈ [((1 : Nat), (0x491 : Nat)), (2, 0x492)],
    let s := stG (fun W => { W with ms := BitVec.ofNat 12 x.2 }) id; issuesB (.midn 16) cur s = true ∧ msLay (s.warp 0 0).ms = x.1 ∧ (s.warp 0 0).ms ≠ 0 := by
  decide +kernel

/-- Lane 3 waits for an outstanding access, and the warp has a cause that takes it. -/
theorem witness_trap_parked :
    (let s := stTrap { soft with cls := 1 } (parked (.mwait none 7));
      (s.warp 0 0).cause = some { soft with cls := 1 } ∧ (s.gang 0).phase = .running ∧ s.entryPending 0 0 false = false ∧ ((s.discard 0).warp 0 0).handler = false ∧
        (s.discard 0).hentry ((s.discard 0).gang 0).asid ≠ 0 ∧ 3 ∈ soft.lanes ∧ (((s.discard 0).warp 0 0).lane 3).parkedOn = some 7) := by decide +kernel

/-- A waiting gang that needs all of a column's firn, of which a running gang of lower priority holds a part; a third gang is of higher priority; only
one column is open. -/
def oneColumn : List ColSt := (List.range 18).map fun k => { die := 0, phys := k, logical := k, st := if k = 0 then 0 else 2, corrected := 0, uncorrected := 0 }
def stSeek : State := { stC [] [gang, { waiting with launch := { waiting.launch with firn := Config.firnBytes } },
    { gang with launch := default, prio := 255 }] with
  cols := oneColumn, mem := lowMem ++ ctlMem.dropLast ++ [(0x305A, 1)] }
def stStop : State := { stC [] [{ gang with region := rootRef }] with mem := lowMem ++ ctlMem.dropLast.dropLast ++ [(0x3059, 5), (0x305A, 15)] }
def seekPath : List (DWord × Rcb) := (stSeek.pathFor 1).getD []
/-- The first of the choices that a gang has, where no other has as small a key. -/
theorem victimsFor_only {s : State} {g : Nat} {path : List (DWord × Rcb)} {v : Victims} {r : List Victims}
    (h : (((columns.filter (s.openColumn path)).map fun c => ((List.range 4).map fun clu =>
      s.victimsAt g path { die := c.1, col := c.2, clu := clu, core := 0 }).flatten).flatten) = v :: r)
    (hb : (v :: r).filter (fun x => s.victimKey x == r.foldl (fun a y => min a (s.victimKey y)) (s.victimKey v)) = [v]) :
    s.victimsFor g path = some v := by
  unfold State.victimsFor
  simp only [h, hb, List.length_singleton, Nat.mod_one]
  rfl
theorem seek_victims : stSeek.victimsFor 1 seekPath = some { place := { die := 0, col := 0, clu := 0, core := 0 }, gangs := [0] } :=
  victimsFor_only (r := (List.range 3).map fun k => { place := { die := 0, col := 0, clu := k + 1, core := 0 }, gangs := [0] })
    (by decide +kernel) (by decide +kernel)
theorem witness_seeker : stSeek.seeker = some (1, seekPath) := by
  have h0 : stSeek.waits 0 = false := by decide +kernel
  have h2 : stSeek.waits 2 = false := by decide +kernel
  have h1 : stSeek.waits 1 = true := by decide +kernel
  have hp : stSeek.pathFor 1 = some seekPath := by decide +kernel
  have hh : stSeek.hasHold 1 seekPath = false := by decide +kernel
  have hc : (stSeek.columnsFor 1 seekPath).isEmpty = true := by decide +kernel
  have hl : List.range stSeek.gangs.length = [0, 1, 2] := rfl
  unfold State.seeker
  simp only [hl, List.filter_cons, h0, h1, h2, hp, hh, hc, seek_victims]
  simp [hp]
theorem witness_victims :
    (∀ g ∈ [0, 2], (stSeek.gang g).phase = .running ∧ stSeek.regionPath (stSeek.gang g).region = none) ∧ (stSeek.colOf 0 0).st ≠ 1 ∧
    stSeek.seeker = some (1, seekPath) ∧ ∃ v, stSeek.victimsFor 1 seekPath = some v ∧ 0 ∈ v.gangs ∧ 2 ∉ v.gangs :=
  ⟨by decide +kernel, by decide +kernel, witness_seeker, _, seek_victims, by decide, by decide⟩
theorem witness_stop : ((stStop.regionPath rootRef).map effStop) = some true ∧ (stStop.gang 0).phase = .running ∧
    (stStop.gang 0).region = rootRef ∧ st.seeker = none ∧ st.regionPath (st.gang 0).region = none := by decide +kernel
/-- A draining gang whose fetch is under way, and one without. -/
theorem witness_drain_fetch :
    ((sel { gang with phase := .draining, producer := some prodFetch }).gang 0).producer.bind (·.fetching) ≠ none ∧
    ((sel { gang with phase := .draining, producer := some prodNext }).gang 0).producer.bind (·.fetching) = none ∧
    (sel { gang with warps := [emptyWarp] }).cores.all (fun c => c.xacq.isEmpty) = true := by decide +kernel

/-- Queue 0 with a record at its head. -/
def ctlMem0 : List Host.Cell := ctlMem.map fun c => if c.1 = 0x3020 then (c.1, 2) else c
theorem witness_queue0 :
    (let s := { stC ring0 [] with mem := lowMem ++ ctlMem0 ++ ring0 };
      s.queue? 0 = some (queue 0 0x0005_0001_0000_0000) ∧ ((s.qdesc? 0x0005_0001_0000_0000).map fun d => d.tail != d.head && d.qstat / 2 % 2 == 0) = some true) := by
  decide +kernel
theorem witness_record_room :
    (qdIs (stL 0x10001) fun k => let u := (stL 0x10001).noteRows ((stL 0x10001).spansOf 0 queue1.desc 1 0 64 0 false ++ (stL 0x10001).pathRows 8 k.rcb); u.hasRoom k) = true ∧
    (let s := stC (ring0 ++ [(0x3C20, 4)]) []; qdIs s fun k => !(s.noteRows (s.spansOf 0 queue1.desc 1 0 64 0 false ++ s.pathRows 8 k.rcb)).hasRoom k) = true := by decide +kernel

theorem witness_outside_held :
    (let s := { st with swaps := [Part.hbmRow (stackOf 0x1000) (nfld 0x1000 23 16)] }; s.outsideHeld 0x1000 4 false = true) ∧
    ({ st with banks := [(Config.bankOf (0x1000 + 0), .frozen)] }).banks.lookup (Config.bankOf (0x1000 + 0)) = some .frozen ∧
    inHost (128 * 2 ^ 36) = true ∧ inHost (128 * 5) = false := ⟨by decide +kernel, by simp, by decide +kernel, by decide +kernel⟩

/-- Parts that are worn: a slice and a per-pel lane; the lane's port has used its spare, or has not. -/
def slice0 (k : Nat) : SliceSt := { (default : SliceSt) with die := 0, phys := 0, logical := 0, st := k }
def stWorn (rep : List Part) : State :=
  { st with errors := [(Part.slice 0 0, (256, false)), (Part.perpelLane 3 1, (1, true))], slices := [slice0 0], repaired := rep }
theorem witness_worn_parts :
    (stWorn []).swaps.contains (.slice 0 0) = false ∧ (stWorn []).errors.lookup (Part.slice 0 0) = some (256, false) ∧
    (∃ c ∈ (stWorn []).slices, c.die = 0 ∧ c.phys = 0 ∧ c.st = 0) ∧ (stWorn []).swaps.contains (.perpelLane 3 1) = false ∧
    (stWorn []).errors.lookup (Part.perpelLane 3 1) = some (1, true) ∧ (stWorn []).repaired = [] ∧
    ∃ l, Part.perpelLane 3 l ∈ (stWorn [.perpelLane 3 0]).repaired := by
  refine ⟨by decide +kernel, by decide +kernel, by decide +kernel, by decide +kernel, by decide +kernel, rfl, 0, by decide +kernel⟩
/-- Swaps under way: of a column that a gang holds, and of one that none does; of a slice; and of a per-pel lane. -/
def stSwap (gs : List Gang) : State :=
  { st with swaps := [.column 0 0, .slice 0 0, .perpelLane 3 1], gangs := gs, slices := [slice0 1],
            cols := [{ die := 0, phys := 0, logical := 0, st := 1, corrected := 256, uncorrected := 0 },
                     { die := 0, phys := 18, logical := 18, st := 3, corrected := 0, uncorrected := 0 }] }
theorem witness_swaps :
    (∀ p ∈ [Part.column 0 0, .slice 0 0, .perpelLane 3 1], (stSwap []).swaps.contains p = true) ∧
    ((stSwap []).cols.find? fun c => c.die == 0 && c.phys == 0).isSome = true ∧ ((stSwap []).slices.find? fun c => c.die == 0 && c.phys == 0) = some (slice0 1) ∧
    (stSwap []).colBusy 0 0 = false ∧ (stSwap [gang]).colBusy 0 0 = true := by decide +kernel

/-- An access waits at a bank: that another access has, that a refresh or self-refresh holds, or that is free. -/
def waitReq : DramReq := { (default : DramReq) with id := 7, phase := .wait, priv := true }
def stWait (qs : List DramReq) (c : PChan) : State := { st with dram := waitReq :: qs, pchans := [c] }
theorem witness_bank_waits :
    (∀ x ∈ [([{ (default : DramReq) with id := 6, phase := .service }], pc0), ([], { pc0 with pendingAll := true }), ([], { pc0 with self := true }),
        ([], { pc0 with refresh := some { bank := some 0, ends := 9, exit := false } }), ([], pc0)],
      (stWait x.1 x.2).dramReq? 7 = some waitReq ∧ ((stWait x.1 x.2).dram.map (·.id)).Nodup ∧ (stWait x.1 x.2).pchan 0 = x.2) ∧
    (∃ q ∈ (stWait [{ (default : DramReq) with id := 6, phase := .service }] pc0).dram, q.pch = 0 ∧ q.bank = 0 ∧ q.phase = .service) ∧
    waitReq.priv = true ∧ pc0.pendingAll = false ∧ pc0.self = false ∧ pc0.refresh = none ∧ ∀ q ∈ (stWait [] pc0).dram, q = waitReq := by
  decide +kernel

/-- Walks: one that nothing holds, and one whose request is outstanding. -/
def stWalk (rs : List DramReq) : State := { State.reset with walks := [{ started (some tlb0) with reqs := [7] }], dram := rs }
theorem witness_walk_holds :
    (∃ r ∈ (stWalk [{ (default : DramReq) with id := 7 }]).dram, r.id ∈ ({ started (some tlb0) with reqs := [7] } : Walk).reqs) ∧
    (∀ v ∈ (stWalk [{ (default : DramReq) with id := 7 }]).walks, (stWalk [{ (default : DramReq) with id := 7 }]).walkHeld v = true) ∧
    ((stWalk []).walks.find? fun v => !(stWalk []).walkHeld v) = some { started (some tlb0) with reqs := [7] } := by decide +kernel
/-- Pages of counters: free, at the last count of a line, in hand with a write-back that waits, and spent. -/
def page3 (m : Nat) (busy : Bool) (ws : List LateWrite) : ProtPage :=
  { (default : ProtPage) with page := 3, key := 5, minors := [(0, m)], busy := busy, waiting := ws }
def counted (p : ProtPage) : Caches := { st.caches with prot := [p] }
theorem witness_counters :
    (∀ m ∈ [0, 2 ^ 28 - 1], let c := counted (page3 m false []); let p := c.page 5 (192 / 64);
      p.busy = false ∧ 5 ∉ c.sweeps ∧ p.spent c.tree = false ∧ (p.minors.lookup (192 % 64)).getD 0 = m) ∧
    ((counted (page3 0 true [])).page 5 (192 / 64)).busy = true ∧ 5 ∈ ({ counted (page3 0 false []) with sweeps := [5] } : Caches).sweeps ∧
    (page3 0 true [⟨0, 0, 1, false⟩]).waiting = [] ++ [⟨0, 0, 1, false⟩] ∧
    (let s := { st with prot := [page3 0 true []] }; (s.prot.filter fun q => q.page == 3) = [page3 0 true []]) ∧
    (({ st with prot := [page3 0 false []] }).prot.all fun p => !p.busy) = true := by decide +kernel

/-- Events whose rows are none, or are read at once, or wait. -/
theorem witness_event_rows :
    State.reset.ctlRows .deviceReset = [] ∧
    (let s := { stC ring0 [] with mover := .event (.queuePoll 1) }; s.ctlRows (.queuePoll 1) ≠ [] ∧ s.ctlWaits (.queuePoll 1) (s.ctlRows (.queuePoll 1)) = false) ∧
    (let s := { stC ring0 [] with mover := .event (.queuePoll 1), swaps := [.hbmRow (stackOf 0x3C00) (nfld 0x3C00 23 16)] };
      s.ctlRows (.queuePoll 1) ≠ [] ∧ s.ctlWaits (.queuePoll 1) (s.ctlRows (.queuePoll 1)) = true) := by decide +kernel

/-! ### Witnesses for results, checks and engine operations told in full -/

/-- A product with an infinity: by a value that is not 0, by 0, and by an infinity. -/
theorem witness_infinite_products : InfCode .f32 false 0x7F800000 ∧ InfCode .f32 true 0xFF800000 ∧ CodeIs .f32 0x3F800000 1 ∧ (1 : ℝ) ≠ 0 ∧
    CodeIs .f32 0 0 := by
  have h : ∀ f ∈ ([.e4m3, .e2m1, .e8m0] : List Num.Fmt), Num.Fmt.f32 ≠ f := by decide
  have h4 := h _ (.head _)
  have h2 := h _ (.tail _ (.head _))
  have h8 := h _ (.tail _ (.tail _ (.head _)))
  norm_num [CodeIs, NanCode, InfCode, withSign, fmtRow, signOf, h4, h2, h8]

/-- A core's request for blocks whose region's control blocks can be read, or are in a row that is being repaired. -/
def stReq : State := { stL 0x10001 with cores := [{ core := 0, cycle := 1000, xacq := [(7, 0, 0, 2)] }] }
def mendingAt (a : Nat) (s : State) : State := { s with swaps := [.hbmRow (stackOf a) (nfld a 23 16)] }
theorem witness_request_waits : stReq.blocksHeld 0 = false ∧ (mendingAt 0x3040 stReq).blocksHeld 0 = true ∧ stX.blocksHeld 0 = false ∧
    ((mendingAt 0x3040 stReq).warp 0 0).x + 2 ≤ 12 := by decide +kernel

/-- Targets: a header, the second word of a pair, and a slot; and a JMPR to a header. -/
def stPair : State := { st with mem := Memory.putBytes [] 0x1004 (leBytes 4 0xB8000009) }
theorem witness_targets : (0x1000 : Word).toNat % 4 = 0 ∧ (0x1000 : Word).toNat % 16 < 4 ∧
    (match stPair.fetchQuad 0 0 0x1000 with | .ok ws => pairedMaj (majOf (ws.getD 1 0)) && !pairedMaj (majOf (ws.getD 2 0)) | .error _ => false) = true ∧
    stPair.targetCode 0 0 0x1008 = some 2 ∧ stPair.targetCode 0 0 0x100C = none ∧ issuesB (.jmpr 5) cur (stOff 0x1000) = true ∧
    ((stOff 0x1000).warp 0 0).get 3 5 = 0x1000 := by decide +kernel

/-- Warps whose lanes are parked: at REJOIN with a mask that is satisfied, and with one that a live lane keeps; in serial mode; at barriers. -/
def all8 (p : Park) (W : Warp) : Warp := W.mapLanes (List.range 8) fun _ L => { L with slot := .parked p }
theorem witness_rejoins :
    (let W := parked (.rejoin 8 0x4004) warp; (W.lane 3).slot = .parked (.rejoin 8 0x4004) ∧ W.serial = false ∧
      ∀ k < 64, (8 : DWord).getLsbD k = true → (W.lane k).exited = true ∨ (W.lane k).slot = .parked (.rejoin 8 0x4004)) ∧
    (let W := parked (.rejoin 24 0x4004) warp; (24 : DWord).getLsbD 4 = true ∧ (W.lane 4).slot = .live ∧ W.serial = false) ∧
    (let W := { parked (.rejoin 8 0x4004) warp with serial := true }; W.serial = true ∧ (W.rejoin 0).masks.length ≤ 8) := by decide +kernel
theorem witness_barriers :
    (∀ k < 3, let G := { gang with warps := [all8 (.bar k 1) warp] };
      ∀ v < G.warps.length, ∀ j < 64, ((G.warp v).lane j).exited = true ∨ ((G.warp v).lane j).slot = .parked (.bar k 1)) ∧
    ((parked (.bar 0 1) warp).lane 3).slot = .parked (.bar 0 1) ∧ ((parked (.bar 0 1) warp).lane 4).slot = .live ∧ (warp.lane 3).slot = .live := by decide +kernel
theorem witness_stuck :
    (∀ p ∈ [Park.bar 2 1, .bar 1 1, .bar 0 1, .rejoin (2 ^ 63) 0x4004], ∀ l < 8, ((all8 p warp).lane l).slot = .parked p) ∧
    (∀ l < 64, 8 ≤ l → (warp.lane l).exited = true) ∧ warp.cause = none ∧ (warp.lane 0).exited = false ∧ 0 < st.gangs.length := by decide +kernel

/-- A monitor that a write fires, and one whose lane comes to see a write that it did not see. -/
theorem witness_monitor_fires :
    (∃ n ∈ (mon .armed).monitors, n.st = .armed ∧ n.block = 0x1880 / 64 * 64 ∧ n.path = 0 ∧ inPeer 0x1880 = false ∧
      let s := { mon .armed with stale := [{ cell := 0x1880, old := 1, paths := 1, but := [(0, 1)] }] };
      (unseen [] n.path (some (n.ctx, n.warp)) 0x1880).length < (unseen s.stale n.path (some (n.ctx, n.warp)) 0x1880).length) := by decide +kernel

/-- A REP whose lane holds saved progress. -/
theorem witness_rep_progress :
    (let s := { stRep with gangs := (stG (fun W => W.mapLanes [3] fun _ L => L.mapFib fun f => { f with rep := some (2, true) }) id).gangs };
      s.cur = some cur ∧ (s.repCheck cur 7 4 0).toBool = true ∧ ((s.warp 0 0).lane 3).fib.rep = some (2, true)) := by decide +kernel

/-- Operand maps of XMMA that fail each check, and that pass. -/
def mapOf (mf rows cols loc : Nat) : DWord := BitVec.ofNat 64 (mf * 2 ^ 58 + (rows - 1) * 2 ^ 46 + (cols - 1) * 2 ^ 36 + loc)
theorem witness_map_checks :
    (∀ x ∈ [([mapOf 10 16 16 1, mapOf 0 16 16 1], some (flt 6 2)), ([mapOf 0 16 16 9, mapOf 0 16 16 1], some (flt 7 1)),
        ([mapOf 1 16 16 1, mapOf 0 16 16 1], some (flt 6 3)), ([mapOf 0 8 16 1, mapOf 0 16 16 1], some (flt 6 4)),
        ([mapOf 0 16 16 1 + 2 ^ 56, mapOf 0 16 16 1], some (flt 6 5)), ([mapOf 0 16 16 1, mapOf 0 16 16 1], none)],
      xmmaFault ((stE id).gang 0) 0 0 x.1 = x.2) ∧
    xmmaFault ((stE id).gang 0) 0 4095 [mapOf 0 16 16 1, mapOf 0 16 16 1] = some (flt 6 6) ∧
    xmmaFault { (stE id).gang 0 with tiles := [{ num := 1, desc := 0x10003C0F, st := .filling }] } 0 0 [mapOf 0 16 16 1, mapOf 0 16 16 1] = some (flt 7 2) ∧
    [(0, 0x3C0F), (5, 0x3C0F), (5, 0x10003C0F), (7, 0x3C0F)].map (fun x => cpbFormats x.1 x.2) = [true, true, false, true] := by decide +kernel

/-- The checks of a gather: no table; a table of fixed width; a key type; a tile that is not there, or too low; and none that fails. -/
def gathIs (h : DWord) (kt aux tile : Nat) (p : Except Flt (Table × Tile) → Bool) : Bool := p ((stE id).gathCheck curAll h kt aux (BitVec.ofNat 64 tile))
def failsWith {α : Type} (cls code : BitVec 8) : Except Flt α → Bool
  | .error f => f.cls == cls && f.code == code
  | .ok _ => false
theorem witness_gather_checks :
    gathIs 0x10009 1 0 0 (failsWith 0x0B 1) = true ∧ gathIs 0x10001 1 0 0 (failsWith 0x0B 6) = true ∧ gathIs 0x10003 2 0 0 (failsWith 0x0B 7) = true ∧
    gathIs 0x10003 1 0 9 (failsWith 7 1) = true ∧ gathIs 0x10003 1 0 256 (failsWith 7 1) = true ∧ gathIs 0x10003 1 9 0 (failsWith 0x0A 4) = true ∧
    gathIs 0x10003 1 8 0 Except.toBool = true := by decide +kernel

/-- A run of bytes of a row that may be read or written, told as a test. -/
def runB (s : State) (t : Table) (row o n : Nat) (k : Acc) : Bool :=
  match s.cellsAt t.asid t.desc.aper (t.desc.rowbase + row * t.desc.width + o) n k with
  | .ok cs => decide (o + n ≤ t.desc.width) && cs.all (fun a => s.containedCell a == false && s.lostCell a == false) &&
      (decide (k = .write) || (s.failedLines t.asid (t.desc.rowbase + row * t.desc.width + o) cs).isEmpty)
  | .error _ => false
theorem run_of {s : State} {t : Table} {row o n : Nat} {k : Acc} (h : runB s t row o n k = true) : ∃ cs, s.RunIs t row o n k cs := by
  unfold runB at h
  split at h
  · rename_i cs hc
    simp only [Bool.and_eq_true, decide_eq_true_eq, List.all_eq_true, beq_iff_eq, Bool.or_eq_true, List.isEmpty_iff] at h
    exact ⟨cs, h.1.1, hc, h.1.2, fun hk => h.2.resolve_left hk⟩
  · simp at h

/-- A reference to row `r` of table 1. -/
def ref1 (r : Nat) : DWord := BitVec.ofNat 64 (0x0001_0001_0000_0000 + r)
def cplOut : Work := { cplRow with instr := .cpl 0 4 6 5 1 10 0 }
/-- Lane copies, in and out, and bulk copies, in and out, of rows of table 1, that complete. -/
theorem witness_copies :
    ((stOps [cplRow]).Current 0 (ref1 2) tab1 ∧ (∃ cs, (stOps [cplRow]).RunIs tab1 2 0 32 .read cs) ∧ (∃ cs, (stOps [cplRow]).RunIs tab1 2 0 32 .write cs) ∧
      ∀ a ∈ cplRow.args, (CopyLane.of 0 a).rr = ref1 2 ∧ (CopyLane.of 0 a).v ≤ 32 ∧ (CopyLane.of 0 a).v ≠ 0 ∧ (CopyLane.of 0 a).ro = 0) ∧
    ((stOps [cpbRow]).Current 0 (ref1 0) tab1 ∧ tab1.desc.tkind = 0 ∧ 0 + tileRows 0x3C00 ≤ tab1.desc.cap ∧ tileRowBytes 0x3C00 ≤ tab1.desc.width ∧
      tileTf 0x3C00 < 8 ∧ tab1.sealed = false ∧ (∃ cs, (stOps [cpbRow]).RunIs tab1 0 0 (tileRowBytes 0x3C00) .read cs) ∧
      (∃ cs, (stOps [cpbRow]).RunIs tab1 0 0 (tileRowBytes 0x3C00) .write cs) ∧ ((stOps [cpbRow]).gang 0).tile? 0 = some { num := 0, desc := 0x3C00, st := .filling }) ∧
    (stOps [cplRow]).opHeld cplRow = false ∧ (stOps [cpbRow]).opHeld cpbRow = false ∧ Memory.wf (stOps [cplRow]).mem = true := by
  refine ⟨⟨⟨by decide +kernel, by decide +kernel, by decide +kernel, by decide +kernel⟩, run_of (by decide +kernel), run_of (by decide +kernel), by decide +kernel⟩,
    ⟨⟨by decide +kernel, by decide +kernel, by decide +kernel, by decide +kernel⟩, by decide +kernel, by decide +kernel, by decide +kernel, by decide +kernel,
      by decide +kernel, run_of (by decide +kernel), run_of (by decide +kernel), by decide +kernel⟩, by decide +kernel, by decide +kernel, by decide +kernel⟩

/-- The row sides of copies that meet a fault: no table, a row that is not there, a stale reference, beyond the row, an address that is not mapped, a contained
cell and a lost line. -/
def sideB (s : State) (rr : DWord) (ro n : Nat) (cls code : BitVec 8) : Bool :=
  let o := { cplRow with args := [{ lane := 3, w := 0, d := 0, a := rr.setWidth 128, b := BitVec.ofNat 128 n, c := BitVec.ofNat 128 ro }] }
  match s.opEffect o with
  | .error e => e.cls == cls && e.code == code
  | .ok _ => false
theorem witness_row_sides :
    sideB stR 0x0009_0001_0000_0002 0 32 0x0B 1 = true ∧ sideB stR (ref1 16) 0 32 0x0B 2 = true ∧ sideB stR 0x0001_0002_0000_0002 0 32 0x0B 3 = true ∧
    sideB stR (ref1 2) 48 32 0x0A 4 = true ∧ sideB { stR with lost := [0x1880 / 64] } (ref1 2) 0 32 0x0E 1 = true ∧
    sideB { stR with tables := [offMap tab1] , walks := [badWalk 9] } (ref1 2) 0 32 0x0D 2 = true := by decide +kernel

/-- Bulk copies that find no table, a row that is not there, a stale reference, a table that is not dense, and too few bytes in a row. -/
def bulkB (rr : DWord) (x : BitVec 16) (cls code : BitVec 8) : Bool :=
  match (stOps []).opEffect { cpbRow with instr := .cpb 0 4 5 0 x, uni := [0, rr] } with
  | .error e => e.cls == cls && e.code == code
  | .ok _ => false
theorem witness_bulk_faults : bulkB 0x0009_0001_0000_0000 0 0x0B 1 = true ∧ bulkB (ref1 16) 0 0x0B 2 = true ∧ bulkB 0x0001_0002_0000_0000 0 0x0B 3 = true ∧
    bulkB (ref1 8) 4 0x0A 4 = true ∧ bulkB 0x0002_0001_0000_0000 0 0x0A 5 = true ∧ (stOps []).table? 0 9 = none ∧ tab1.desc.cap ≤ 16 ∧
    tab1.desc.width < 4 + tileRowBytes 0x3C00 := by decide +kernel

/-- A multiplication of two tiles reads them; a sparse one whose metadata is of zeros, and a ternary one whose codes are 2, stop. -/
def tileB : Tile := { num := 1, desc := 0x10003C0F, st := .ready }
def rowsOf (m : DWord) (r : Nat) : List Byte :=
  Memory.bytes (stX2.gang 0).cmem (tileBase tileB.desc + r * (mapCols m * mfBits (mapMf m) / 8)) (mapCols m * mfBits (mapMf m) / 8)
theorem tileB_of (t : Tile) (h : (stX2.gang 0).tile? 1 = some t) : t = tileB := by
  have e : (stX2.gang 0).tile? 1 = some tileB := by decide +kernel
  exact Option.some.inj (h.symm.trans e)
theorem source_of (n : Nat) (m : DWord) (h : n = 1) : stX2.SourceIs (stX2.gang 0) true n 0 (mapRows m) (mapCols m * mfBits (mapMf m) / 8) (rowsOf m) := by
  subst h
  simp only [State.SourceIs, if_true]
  intro t e r _
  rw [tileB_of t e]
  rfl
def zeroRows : XmmaRows := { a := rowsOf (xmma.uni.getD 0 0), b := rowsOf (xmma.uni.getD 1 0), m := fun _ => [0, 0], sa := fun _ => [], sb := fun _ => [] }
theorem witness_multiplies : stX2.XmmaReads (stX2.gang 0) 0 xmma.uni zeroRows ∧ zeroRows.MetaOk 0 xmma.uni ∧ zeroRows.TernOk 0 xmma.uni ∧
    ¬ zeroRows.MetaOk 1 [mapOf 0 16 16 1, mapOf 0 16 16 1, mapOf 9 16 8 1] ∧
    ¬ { zeroRows with a := fun _ => [0xAA, 0xAA, 0xAA, 0xAA] }.TernOk 3 [mapOf 8 16 16 1, mapOf 7 16 16 1] ∧ (stX2.gang 0).accOps 0 = [xmma] ∧
    0 < (stX2.gang 0).wgs.length := by
  have hc : (mapCls (xmma.uni.getD 0 0) == 0) = true ∧ (mapCls (xmma.uni.getD 1 0) == 0) = true ∧ mapLoc (xmma.uni.getD 0 0) = 1 ∧
      mapLoc (xmma.uni.getD 1 0) = 1 ∧ mapSs (xmma.uni.getD 0 0) = 0 ∧ mapSs (xmma.uni.getD 1 0) = 0 ∧ xmma.uni.getD 3 0 = 0 ∧ xmma.uni.getD 4 0 = 0 := by
    decide +kernel
  refine ⟨⟨?_, ?_, fun h => absurd h (by decide), ?_, ?_, fun m hm _ => ?_, fun m hm h => ?_, fun h => absurd h (by decide)⟩,
    fun h => absurd h (by decide), fun h => absurd h (by decide), fun h => ?_, fun h => ?_, by decide +kernel, by decide +kernel⟩
  · beta_reduce
    rw [hc.1, hc.2.2.2.2.2.2.1]
    exact source_of _ _ hc.2.2.1
  · beta_reduce
    rw [hc.2.1, hc.2.2.2.2.2.2.2]
    exact source_of _ _ hc.2.2.2.1
  · beta_reduce
    rw [if_pos hc.2.2.2.2.1]
    exact fun _ => rfl
  · beta_reduce
    rw [if_pos hc.2.2.2.2.2.1]
    exact fun _ => rfl
  · have e : mapLoc m = 1 := by
      rcases hm with _ | ⟨_, _ | ⟨_, hm⟩⟩
      · exact hc.2.2.1
      · exact hc.2.2.2.1
      · cases hm
    rw [e]
    decide +kernel
  · have e : mapSs m = 0 := by
      rcases hm with _ | ⟨_, _ | ⟨_, hm⟩⟩
      · exact hc.2.2.2.2.1
      · exact hc.2.2.2.2.2.1
      · cases hm
    exact absurd (e.symm.trans h) (by decide)
  · have n : (0 < mapRows (mapOf 0 16 16 1) ∧ 0 < mapCols (mapOf 9 16 8 1)) ∧ ¬ packed 4 [0, 0] 0 % 4 < packed 4 [0, 0] 0 / 4 := by decide +kernel
    exact n.2 (h (.inl rfl) 0 n.1.1 0 n.1.2)
  · have n : (0 < mapRows (mapOf 8 16 16 1) ∧ 0 < mapCols (mapOf 8 16 16 1)) ∧ packed 2 [0xAA, 0xAA, 0xAA, 0xAA] 0 = 2 := by decide +kernel
    exact h rfl 0 n.1.1 0 n.1.2 n.2

/-- A gather that has its rows, a data fence whose table's first page is mapped, and operations that meet a fault with and without lanes parked at WAITC. -/
theorem witness_engine_ends :
    (let o := { work (.tgath 4 5 13 0 0 1 4 0) with cells := [] }; o.cells.length ≤ o.args.length * tileRowBytes 0x3C0F ∧ (stOps [o]).idx = []) ∧
    (stR.translate 0 0x1000).toBool = true ∧
    (let W := (stT (parked (.waitc 0 1)) id).warp 0 0; W.cause = none ∧ (laneIds.filter fun l => (W.lane l).slot matches .parked (.waitc ..)) ≠ []) ∧
    (laneIds.filter fun l => ((stR.warp 0 0).lane l).slot matches .parked (.waitc ..)) = [] ∧ (stR.warp 0 0).cause = none ∧
    (crcBlocks tab1 0 1 0 64).length = 1 := by decide +kernel

/-- A stream program with a loop, a stream, a stride and a read, one after the other. -/
def sop (op k rest : Nat) : DWord := BitVec.ofNat 64 (op * 2 ^ 60 + k * 2 ^ 58 + rest)
def looped : List DWord := [sop 1 1 2, sop 3 0 (10 * 2 ^ 52 + 64), sop 4 0 (1 * 2 ^ 56 + 4), sop 5 0 0, sop 2 1 0, sop 0 0 0]
def loops (xs : List (Nat × Nat)) : List Loop := xs.map fun x => { level := 1, idx := x.1, count := x.2, start := 1 }
theorem witness_stream_steps :
    (looped.getD 0 0).toNat / 2 ^ 60 = 1 ∧ (looped.getD 0 0).toNat % 2 ^ 32 ≠ 0 ∧ (sop 1 1 0).toNat % 2 ^ 32 = 0 ∧
    ((looped.getD 4 0).toNat / 2 ^ 60 = 2 ∧ (looped.getD 4 0).toNat / 2 ^ 58 % 4 = 1 ∧ ∀ i < 4, 0 < i → (looped.getD i 0).toNat / 2 ^ 60 ≠ 2) ∧
    (∀ x ∈ loops [(0, 2)], x.idx + 1 < x.count) ∧ (∀ x ∈ loops [(1, 2)], x.count ≤ x.idx + 1) ∧
    looped[9]? = none ∧ 8 < sopOf (sop 9 0 0) ∧ 0 < (stP prod).gangs.length ∧
    openAt looped 3 = [1] ∧ openAt looped 5 = [] := by decide +kernel

/-- A program without an offence and one whose operation 0 is reserved, as SPLD finds them in table 4. -/
theorem witness_stream_checks : (∀ i, ¬ OffendsAt [0, 0, 0, 0] i) ∧ OffendsAt [sop 9 0 0] 0 ∧ (∃ cs, stR.RunIs tab4 0 0 8 .read cs) ∧ min tab4.desc.cap 257 = 4 := by
  refine ⟨fun i h => ?_, ⟨by decide, ?_⟩, run_of (by decide +kernel), by decide⟩
  · obtain ⟨h1, h2⟩ := h
    have hi : i < 4 := h1
    rcases i with _ | _ | _ | _ | i <;> first | omega | (revert h2; decide)
  · rw [if_neg (by decide)]
    exact ⟨by decide, .inl (by decide)⟩

/-- Entries of reads: of a stream without a handle, of a table that is not dense, beyond its rows, of raw words, of `.s8` elements, and of keys that are found or not. -/
def entryB (h : Word) (b : Nat) (w : DWord) (p : Except RowFault QEntry → Bool) : Bool :=
  p (stR.streamEntry 0 { prodFetch with streams := [{ k := 0, handle := h, base := b, strides := [0, 0, 0, 0] }], captured := [(12, 0x10002), (9, 0), (13, 0x10003)] } w)
def entryFails (cls code : BitVec 8) : Except RowFault QEntry → Bool
  | .error e => e.cls == cls && e.code == code
  | .ok _ => false
theorem witness_stream_entries :
    entryB 0 0 (sop 5 0 0) (entryFails 0x0B 1) = true ∧ entryB 0x10002 0 (sop 5 0 0) (entryFails 0x0A 5) = true ∧
    entryB 0x10001 1024 (sop 5 0 0) (entryFails 0x0A 4) = true ∧ entryB 0x10001 0 (sop 5 0 0) Except.toBool = true ∧
    entryB 0x10001 0 (sop 6 0 (3 * 2 ^ 49)) Except.toBool = true ∧ entryB 0x10001 0 (sop 7 0 (1 * 2 ^ 52 + 12 * 2 ^ 46)) Except.toBool = true ∧
    entryB 0x10001 0 (sop 7 0 (1 * 2 ^ 52 + 9 * 2 ^ 46)) (entryFails 0x0B 1) = true ∧ entryB 0x10001 0 (sop 7 0 (2 * 2 ^ 52 + 12 * 2 ^ 46)) (entryFails 0x0B 7) = true ∧
    (stR.handle? 0 0x10001 = some tab1 ∧ stR.handle? 0 0x10002 = some tab2 ∧ tab2.find (keyNum 1 0) = none) := by decide +kernel
/-- A reference that fails with a class and a code, and one that passes. -/
def refB (s : State) (r : DWord) (o e : Nat) (k : Acc) (cls code : BitVec 8) : Bool := failsWith cls code (s.laneRow 0 3 r o e k)
def mapped (pb : Nat) (x : Bool) : State := { stR with
  tables := [{ tab1 with desc := { tab1.desc with rowbase := 0x2000, aper := 1 } }],
  tlb := stR.tlb ++ [{ asid := 0, vbase := 0x2000, size := 4096, pbase := pb, key := 0, r := x, w := x, x := x, cache := .die 0 }] }
theorem witness_references :
    refB stR 0x0009_0001_0000_0002 0 4 .read 0x0B 1 = true ∧ refB stR (ref1 16) 0 4 .read 0x0B 2 = true ∧
    refB stR 0x0001_0000_0000_0002 0 4 .read 0x0B 3 = true ∧ refB stR 0x0001_0002_0000_0002 0 4 .read 0x0B 3 = true ∧
    refB stR (ref1 2) 61 4 .read 0x0B 4 = true ∧ refB stR (ref1 2) 2 4 .read 0x0B 5 = true ∧
    refB { stR with tables := [{ tab1 with desc := { tab1.desc with rowbase := 2 ^ 48 } }] } (ref1 2) 0 4 .read 0x0D 1 = true ∧
    refB { stR with tables := [offMap tab1], walks := [badWalk 9] } (ref1 2) 0 4 .read 0x0D 2 = true ∧
    refB (mapped 0 false) (ref1 2) 0 4 .write 0x0D 4 = true ∧ refB (mapped 0x30000000000 true) (ref1 2) 0 4 .rmw 0x0D 5 = true ∧
    refB { stPeer with dead := [.remote 2], peers := [(0, 2)] } (ref1 2) 0 4 .read 0x10 1 = true ∧ (stR.laneRow 0 3 (ref1 2) 12 4 .read).toBool = true := by decide +kernel

/-- A table of rows of mixed width whose row 0 has format code 2, and accesses of which one starts on a lost line. -/
theorem witness_row_lengths : tab1.desc.tflags.getLsbD 0 = false ∧ tab3.desc.tflags.getLsbD 0 = true ∧
    (let s := stFmt 66 2 [(0x1600, 2)]; match s.cellsAt 0 0 0x1600 1 .read with
      | .ok [c] => !s.containedCell c && (s.readCell 0 c).toNat == 2
      | _ => false) = true ∧
    accIs (accs { stR with lost := [0x1880 / 64] } .read 12 6) (fun as => as.any fun a => a.isBad { stR with lost := [0x1880 / 64] }) = true ∧
    0 < stR.gangs.length ∧ accIs (accs stR .read 12 6) (fun as => as.all fun a => a.va % 4 == 0 && a.cells.all fun x => !inPeer x && stR.stale.isEmpty) = true := by
  decide +kernel

/-- Keyed checks, each failing on its own, and passing. -/
def keyB (h kt e aux : Nat) (p : Except Flt Table → Bool) : Bool := p (stR.keyCheck cur (.tins 1 4 5 8 5 3 1 12 8) (BitVec.ofNat 64 h) kt e aux)
theorem witness_key_checks :
    keyB 0x10009 1 4 8 (failsWith 0x0B 1) = true ∧ keyB 0x20002 1 4 8 (failsWith 0x0B 1) = true ∧ keyB 0x10001 1 4 8 (failsWith 0x0B 6) = true ∧
    keyB 0x10002 2 4 8 (failsWith 0x0B 7) = true ∧ keyB 0x10002 1 4 61 (failsWith 0x0B 4) = true ∧ keyB 0x10002 1 4 9 (failsWith 0x0B 5) = true ∧
    keyB 0x10002 1 4 8 Except.toBool = true := by decide +kernel

/-- Checks of a lane's cursor: a number that names none, a table that is gone, an odd register for a 64-bit key, registers outside the window, and none that fails. -/
def stCurT (f : Table → Table) : State := { stT id cursors with tables := [tab1, f tab2, tab3, tab4] }
def curB (s : State) (n : Option (BitVec 7)) (r : BitVec 7) (p : Except Flt (Nat × Cursor × Table) → Bool) : Bool := p (s.curCheck cur r n 3)
theorem witness_cursor_checks :
    curB (stT id cursors) none 7 (failsWith 0x0B 8) = true ∧ curB (stCurT fun t => { t with desc := { t.desc with inc := 2 } }) none 5 (failsWith 0x0B 1) = true ∧
    curB (stCurT fun t => { t with desc := { t.desc with keyt := 2 } }) (some 15) 5 (failsWith 1 8) = true ∧
    curB (stCurT fun t => { t with desc := { t.desc with keyt := 4 } }) (some 6) 5 (failsWith 1 8) = true ∧
    curB (stT highWindow cursors) (some 16) 5 (failsWith 3 1) = true ∧ curB (stT id cursors) none 5 Except.toBool = true := by decide +kernel

/-- Keyed work whose table's die is dead, a gather's lookups, and the steps of a cursor, with a next key and without. -/
def gathWork (k : Nat) : Work := { work (.tgath 4 5 13 0 0 1 4 0) with cells := [2], args := [{ lane := 3, w := 0, d := 0, a := BitVec.ofNat 128 k, b := 0, c := 0 }] }
def stGath (k : Nat) (f : Table → Table) : State := { stT id (fun G => { tiles2 G with ops := [gathWork k] }) with tables := [tab1, f tab2, tab3, tab4], idx := [gathWork k], walks := [badWalk 9] }
def stepWork (bound : Nat) : Work := { work (.tcurStep 4 5 15) with cells := [2], awaits := threeTgts, args := [{ lane := 3, w := 0, d := 0, a := 0, b := BitVec.ofNat 128 bound, c := 2 }] }
def stStep (bound : Nat) : State := { stT id cursors with idx := [stepWork bound] }
def goesOn (s : State) (o : Work) : Bool :=
  (s.idx.find? fun w => w.id == 7) == some o && s.idxReady o && !s.spansHeld (s.idxSpans o) && decide (o.ctx < s.gangs.length)
theorem witness_engine_lookups :
    (let s := { stKey (keyedWork (.tget 4 5 5 1 1 12) 5 threeTgts) id with dead := [.computeDie (tab2.desc.home / 32)] };
      goesOn s (keyedWork (.tget 4 5 5 1 1 12) 5 threeTgts) = true) ∧
    (∀ k ∈ [5, 6], goesOn (stGath k id) (gathWork k) = true ∧ ((stGath k id).gang 0).op? 7 = some (gathWork k) ∧ 0 < (gathWork k).args.length) ∧
    (let u := ((stGath 5 id).publishIdx (gathWork 5)).noteIdx (gathWork 5);
      (u.keyCells tab2 0 0 64 .read).toBool = true ∧ (u.keyCells (offMap tab2) 0 0 64 .read).toBool = false) ∧
    (∀ b ∈ [9, 2], goesOn (stStep b) (stepWork b) = true ∧ ((stepWork b).tgtsOf 0).length ≤ 5 ∧ 0 < ((stStep b).gang 0).wgs.length ∧
      ((((stStep b).gang 0).wgs.getD 0 default).cursors.find? fun k => decide (k.num = 0)).map (·.slot) = some 2 ∧ (stStep b).table? 0 2 = some tab2) ∧
    (∀ e ∈ tab2.keys, e.key = 5 ∧ ((default : Cursor).key < e.key)) ∧ keyNum 1 9 = 9 ∧ keyNum 1 2 = 2 := by decide +kernel

/-- An access that lands in its register, and another in whose way a result of another lane's register stands; LATC of one lane. -/
theorem witness_lands : ldrWork.vals = [] ++ (.reg 3 4, 1) :: [] ∧ 3 < (st.warp 0 0).lanes.length ∧ 4 < ((st.warp 0 0).lane 3).regs.length ∧
    (∃ a ∈ ldrWork.args, a.lane = 3) ∧ (Tgt.reg 3 4).lane? = some 3 := by decide +kernel

/-- Atomic operations on rows: one lane after another, one whose line is lost, one whose operand is a NaN; and what a warp has outstanding. -/
theorem witness_atomic_lanes :
    accIs (accs stR .rmw 12 6) (fun as => as.all fun q => !q.isBad stR && q.cells.all (fun a => !inPeer a) && !q.tab.mixed && stR.stale.isEmpty) = true ∧
    accIs (accs { stR with lost := [0x1880 / 64] } .rmw 12 6) (fun as => as.all fun q => q.isBad { stR with lost := [0x1880 / 64] }) = true ∧
    accIs (accs stPeer .rmw 12 6) (fun as => as.all fun q => q.cells.all inPeer) = true ∧
    ((stA []).outstanding cur 3 = [7]) ∧ inHbm 0x1880 = true ∧ inPeer 0x1880 = false := by decide +kernel
/-- Grids, lists and pivots that the matrix solvers meet. -/
theorem witness_solver_words :
    (let g : Grid := [[0x40000000, 0x3F800000], [0x3F800000, 0x40000000]]; g.length = 2 ∧ (∀ r ∈ g, r.length = 2) ∧ ∀ i < 3, ∀ j < 3, g.at i j < 2 ^ 32) ∧
    (∀ x ∈ [0x40000000, 0xBF800000], x < 2 ^ 32) ∧ (2 ^ 31 : Nat) ≤ 0xBF800000 ∧ (0x3F800000 : Nat) < 2 ^ 31 ∧
    ([Pivot.good, .tiny, .zero] = [Pivot.good] ++ Pivot.tiny :: [.zero] ∧ (∀ q ∈ [Pivot.good], q = .good) ∧ Pivot.tiny ≠ .good) ∧
    (∀ k ∈ [Pivot.good, .good], k = .good) ∧ ∀ p ∈ [1, 0, 7], p < 8 := by decide +kernel
theorem witness_solver_nan : (∃ x ∈ [0x7FC00000, 0], NanCode .f32 x) ∧ ∀ x ∈ [0x3F800000], ¬ NanCode .f32 x := by
  have h : ∀ f ∈ ([.e4m3, .e2m1, .e8m0] : List Num.Fmt), Num.Fmt.f32 ≠ f := by decide
  have h4 := h _ (.head _)
  have h2 := h _ (.tail _ (.head _))
  have h8 := h _ (.tail _ (.tail _ (.head _)))
  constructor <;> norm_num [NanCode, fmtRow, h4, h2, h8]

/-- A small-matrix instruction whose shape does not suit and whose registers do not fit the window. -/
theorem witness_shape_first : st.cur = some cur ∧ cur.set.Sublist laneIds ∧ cur.issue.Sublist cur.set ∧
    (stG highWindow id).earlyFault (.mmov 8 40) cur = none ∧ cur.issue ≠ [] ∧ (stG highWindow id).entryWait (.mmov 8 40) cur = false ∧
    shapeOk (.mmov 8 40) ((stG highWindow id).warp 0 0).ms = false ∧ ((stG highWindow id).warp 0 0).fits 3 40 1 = false := by decide +kernel

/-- Handles of objects and numbers of methods that fail, and what a wait may find in the record. -/
theorem witness_object_checks :
    failsWith 0x0C 1 ((stJ { object with slot := 2 } []).objCheck cur 12) = true ∧ failsWith 0x10 1 ((stJ { object with lost := true } []).objCheck cur 12) = true ∧
    (methodCheck cur object 1 false).isSome = true ∧ (methodCheck cur { object with methods := [{ (default : Method) with present := true }] } 0 true).isSome = true ∧
    (object.waitAnswer 1 0 false = none ∧ object.waitAnswer 2 0 false = none ∧ object.waitAnswer 1 0 true = none ∧ (object.waitAnswer 0 0 false).isSome = true) ∧
    (({ object with log := [{ entry1 with state := 2 }] }).waitAnswer 1 1 true).isSome = true ∧
    (({ object with log := [{ entry1 with state := 3 }] }).waitAnswer 1 1 true).isSome = true ∧ ({ object with tail := 5000 }).waitAnswer 1 1 false = some ([0, 0, 0, 0], nzcv false false true false) := by
  decide +kernel

/-- A method of two nops: its own code, a step that goes on, one that leaves it, and a slot that traps. -/
def nops : Method := { entry := 0x4, code := [0, 0, 0, 0], present := true, ro := false }
def mrun (pc : Word) : MRun := { regs := List.replicate 64 0, flags := 0, stack := [], sptr := 0, pc := pc, mem := [] }
theorem witness_methods :
    (nops.entry.toNat % 16 ≠ 0 ∧ nops.entry.toNat % 4 = 0 ∧ 4 < 4 * nops.code.length) ∧ (0x10 : Word).toNat % 16 = 0 ∧
    (∀ q, Machine.decodeSlot ((nops.code.drop (4 * q)).take 4) 1 = .ok .nop → Instr.check .nop = none ∧ inMethod .nop = true ∧ holds 0 (flagOf 0 0) = true) ∧
    Machine.decodeSlot [0, 0, 0xF5000000, 0] 1 = .ok .nop ∧ inMethod .yield = false ∧ inMethod .ret = true ∧ (mrun 4).sptr = 0 := by
  refine ⟨by decide +kernel, by decide, fun _ _ => by decide +kernel, by decide +kernel, by decide +kernel, by decide +kernel, rfl⟩
theorem witness_method_reaches : nops.Reaches 4 0 (mrun 4) (mrun 4) := ⟨fun _ => mrun 4, rfl, rfl, fun _ h => absurd h (Nat.not_lt_zero _)⟩

/-- A gang that may take a place, one saved gang that may, an order of two, and the gangs of a record. -/
theorem witness_places :
    (let s := stC [] [waiting]; (s.columnsFor 0 ((s.pathFor 0).getD [])).isEmpty = false ∧ (s.gang 0).phase ≠ .saved ∧ s.prioOf 0 ≤ s.prioOf 0) ∧
    (let s := stC [] [{ waiting with phase := .saved }]; s.waits 0 = true ∧ (s.pathFor 0).isSome = true ∧
      (((s.pathFor 0).bind fun p => s.placeFor 0 p).isSome = true) ∧ (s.gang 0).phase = .saved) ∧
    (let s := stC [] [waiting, { waiting with headAt := 1 }]; s.precedes 0 1 = true ∧ s.precedes 1 0 = false) ∧
    (let pl (n : Nat) : Placing := { (default : Placing) with launch := { waiting.launch with gangs := n }, next := 0 }
      ∀ n ∈ [1, 2], let s := { stC [] [] with queues := [queue 0 0x0005_0001_0000_0000, { queue1 with placing := some (pl n) }] };
        (s.queue? waiting.queue).map (·.placing) = some (some (pl n)) ∧ qdIs s (fun _ => true) = true) := by decide +kernel

/-- Records that fail each check: the ring's row, a limit, the region, a reference and what could ever fit; and one that passes. -/
def recIs (s : State) (p : Except Nat (LaunchRec × List (DWord × Rcb)) → Bool) : Bool := qdIs s fun d => p (s.checkRecord d)
def noColumns : List ColSt :=
  (List.range 72).map fun k => { die := k / 18, phys := k % 18, logical := k % 18, st := 2, corrected := 0, uncorrected := 0 }
def codeIs (n : Nat) : Except Nat (LaunchRec × List (DWord × Rcb)) → Bool
  | .error e => e == n
  | .ok _ => false
theorem witness_record_checks :
    recIs { stC (ring1 ++ record1) [] with lost := [0x3E00 / 64] } (codeIs 5) = true ∧ recIs (stC ring1 []) (codeIs 1) = true ∧
    recIs { stC (ring1 ++ record1) [] with mem := lowMem ++ (ctlMem.map fun c => if c.1 = 0x3059 then (c.1, 255) else c) ++ ring1 ++ record1 } (codeIs 2) = true ∧
    recIs (stC (ring1 ++ record1 ++ [(0x3E18, 1)]) []) (codeIs 3) = true ∧
    recIs { stC (ring1 ++ record1) [] with cols := noColumns } (codeIs 4) = true ∧ recIs (stC (ring1 ++ record1) []) Except.toBool = true := by
  decide +kernel

/-- What commands name: a slot whose incarnation is another, a row that cannot be read; a range that meets a monitor's block. -/
theorem witness_command_effects :
    cmdIs c1 (fun k => (c1.table? k.asid k.arg0).isNone && (c1.dirSet k).isSome) = true ∧
    cmdIs (stK 1 [(4, 1), (8, 2), (12, 1), (14, 1)] 0) (fun k => ((stK 1 [(4, 1), (8, 2), (12, 1), (14, 1)] 0).table? k.asid k.arg0).isSome) = true ∧
    (∃ m ∈ (mon .armed).monitors, m.asid = 0 ∧ m.va / 64 * 64 < 0x1800 + 0x1000 ∧ 0x1800 < m.va / 64 * 64 + 64) ∧
    (c6.queue? 4095 = none ∧ (c6.queue? 1).map (·.desc) = some queue1.desc) := by decide +kernel

/-- Agents that die: one on which no gang lies, one on which a gang does, a stack, and a die that owns a region. -/
theorem witness_deaths :
    st.dead.contains (.hub 1) = false ∧ (∀ g < st.gangs.length, (st.gang g).liesOn (.hub 1) = false) ∧
    ((st.gang 0).resident = true ∧ (st.gang 0).liesOn (.computeDie 0) = true) ∧ (∀ r ∈ st.cleared, r.2.2 ≤ st.dead.length) ∧
    (inHbm 0x1880 = true ∧ (stackOf 0x1880) < 8) ∧ (∃ r ∈ [{ regionAt 128 0 with owner := some 0 }], r.owner = some 0 ∧ r.base ≤ 130 ∧ 130 < r.base + r.size) ∧
    ({ st with dead := [.hub 1] } : State).dead[0]? = some (.hub 1) := by decide +kernel

/-- An all-bank refresh that is pending begins, or does not while an access is in service. -/
theorem witness_all_bank :
    (let s := stWait [] { pc0 with pendingAll := true }; (s.pchan 0).pendingAll = true ∧ (s.pchan 0).refresh = none ∧ ∀ q ∈ s.dram, q.phase ≠ .service) ∧
    (∃ q ∈ (stWait [{ (default : DramReq) with id := 6, phase := .service }] { pc0 with pendingAll := true }).dram, q.pch = 0 ∧ q.phase = .service) := by decide +kernel

/-- Two halves among three regions; entries that a walk reads; and a translation that is cached, or needs a walk. -/
theorem witness_halves_among :
    (let s := { st with regions := [regionAt 64 0, regionAt 128 4096, regionAt 192 4096] }; regionAt 128 4096 ∈ s.regions ∧ regionAt 192 4096 ∈ s.regions ∧
      (∀ r ∈ s.regions, r.base = 128 → r = regionAt 128 4096) ∧ ∀ r ∈ s.regions, r.base = 192 → r = regionAt 192 4096) ∧
    (regionAt 192 4096).base = (regionAt 128 4096).base + (regionAt 128 4096).size ∧ (regionAt 128 4096).owner = (regionAt 192 4096).owner ∧
    st.containedCell 0 = false ∧ st.lostCell 0 = false ∧ st.paFails 0 = false ∧
    (stR.tlb.find? fun t => t.cache.serves (Site.ofCore 0) && t.covers 0 0x1000).isSome = true ∧
    (stR.tlb.find? fun t => t.cache.serves (Site.ofCore 0) && t.covers 0 0x9000) = none ∧ stR.walks = [] := by decide +kernel

/-- A core whose clock's edge comes next, and one that waits for a controller's; and a store hidden to a warp that another warp of its cluster sees. -/
theorem witness_edges :
    (probe.coreTicks 0 = true ∧ ({ probe with cores := [{ (probe.coreSt 0) with edge := 20 }], pchans := [{ pc0 with edge := 15 }] } : State).coreTicks 0 = false) ∧
    (releaseScope (.fence 0 2 4) = some 4 ∧ releaseScope (.fence 0 1 4) = none) ∧
    (∃ e ∈ [({ cell := 0x1880, old := 1, paths := 0, but := [(0, 0)] } : Stale)], (0, 0) ∈ e.but) ∧ st.instanceOf 0 0 3 = [(0, 0)] := by decide +kernel

theorem reset_memory : State.reset.memoryOk := ⟨rfl, fun _ h => absurd h List.not_mem_nil⟩
theorem reset_warps : State.reset.warpsWhole := fun _ h => absurd h List.not_mem_nil

end Sys2Proof.Tests
end

section
/-! PROOF. What the decoder reads from the zero word, from the rest of MAJ 0x00, and from words written out by the spec's field tables (01 R22 to R28). -/

namespace Sys2Proof

/-! What a word decodes to, from the row of the table that it names. -/

theorem verdict_of_no_cause (i : Instr) {cs : List (Bool × InsnCode)} (h : ∀ p ∈ cs, p.1 = false) :
    verdict i cs = .ok i := by
  have hany : cs.any (·.1) = false := by simpa using h
  simp [verdict, hany]

theorem decodeWord_of_rowOf {w x : Word} {i : Instr} {cs : List (Bool × InsnCode)} (h : rowOf w x = .ok (i, cs)) :
    decodeWord w x = verdict i cs := by
  simp [decodeWord, h]

/-- A word whose row raises no structural cause is its row's instruction (01 R22, R24). -/
theorem decodeWord_eq_ok {w x : Word} {i : Instr} {cs : List (Bool × InsnCode)} (hrow : rowOf w x = .ok (i, cs))
    (hcs : ∀ p ∈ cs, p.1 = false) : decodeWord w x = .ok i :=
  (decodeWord_of_rowOf hrow).trans (verdict_of_no_cause i hcs)

/-! MAJ 0x00 (01 R28). -/

theorem rowOf_of_majOf_eq_zero {w : Word} (x : Word) (h : majOf w = 0) : rowOf w x = .ok (.nop, [(w != 0, .rsv)]) := by
  simp [rowOf, h]

@[simp] theorem decodeWord_zero (x : Word) : decodeWord 0 x = .ok .nop :=
  decodeWord_eq_ok (rowOf_of_majOf_eq_zero x rfl) (by simp)

theorem decodeWord_of_ne_zero {w : Word} (x : Word) (hw : w ≠ 0) (h : majOf w = 0) : decodeWord w x = .error .rsv := by
  have hcause : (w != 0) = true := by simpa using hw
  rw [decodeWord_of_rowOf (rowOf_of_majOf_eq_zero x h), hcause]
  rfl

theorem pairedMaj_zero : pairedMaj (majOf 0) = false := rfl

namespace Machine

/-! The quad of four zero words (01 R17, R28). -/

theorem zeroQuad_getD (j : Nat) : ([0, 0, 0, 0] : List Word).getD j 0 = 0 :=
  List.getElem?_getD_replicate_default_eq (d := (0 : Word)) 4 j

theorem secondWord_zeroQuad (k : Nat) : secondWord [0, 0, 0, 0] k = false := by
  simp only [secondWord, zeroQuad_getD, pairedMaj_zero, Bool.and_false, Bool.or_false]

theorem decodeSlot_zeroQuad (k : Nat) : decodeSlot [0, 0, 0, 0] k = .ok .nop := by
  have hkind : (fld (0 : Word) 30 2).toNat = 0 := rfl
  simp only [decodeSlot, zeroQuad_getD, secondWord_zeroQuad, pairedMaj_zero, hkind, decodeWord_zero]
  simp

@[simp] theorem gcOf_zero (k : Nat) : gcOf 0 k = 0 := by simp [gcOf]
@[simp] theorem stallOf_zero (k : Nat) : stallOf 0 k = 0 := by simp [stallOf]

end Machine

open Machine

/-- Settles O55. The zero word and the rest of MAJ 0x00 by the row of MAJ 0x00; the zero quad slot by slot; each written word by its row of the table, which
raises no structural cause. -/
theorem decodeReadsWords : Obligations.DecodeReadsWords := by
  unfold Obligations.DecodeReadsWords
  refine ⟨decodeWord_zero, fun _ x hw hmaj => decodeWord_of_ne_zero x hw hmaj, ?zeroQuad, rfl, ?always,
    ?iadd, ?icmp, ?sari, ?ffma, ?smovi, ?sfu⟩
  case zeroQuad => exact fun k _ _ => ⟨decodeSlot_zeroQuad k, gcOf_zero k, stallOf_zero k⟩
  case always =>
    rintro b fl rfl
    rfl
  case iadd => exact decodeWord_eq_ok rfl (by decide)
  case icmp => exact decodeWord_eq_ok rfl (by decide)
  case sari => exact decodeWord_eq_ok rfl (by decide)
  case ffma => exact decodeWord_eq_ok rfl (by decide)
  case smovi => exact decodeWord_eq_ok rfl (by decide)
  case sfu => exact decodeWord_eq_ok rfl (by decide)

end Sys2Proof
end

section
/-! PROOF. The flags of integer compares and of add with carry (02 R45, 05 R94 to R96): what the flag functions say on exact numbers, how the
conditions read a comparison, and the operands of a lane as numbers. -/

namespace Sys2Proof.Machine

/-! Numbers of `w` bits read as signed. -/

/-- A number of `w` bits read as signed. -/
def signedAt (w v : Nat) : Int := if 2 ^ (w - 1) ≤ v then (v : Int) - 2 ^ w else v

theorem asSigned_eq_signedAt (t : BitVec 3) (v : Nat) : asSigned t v = signedAt (tyWidth t) v := rfl

theorem two_pow_eq_two_mul_half {w : Nat} (hw : 0 < w) : 2 ^ w = 2 * 2 ^ (w - 1) := by
  rw [← pow_succ', Nat.sub_add_cancel hw]

theorem signedAt_eq_of_half {w : Nat} (hw : 0 < w) (v : Nat) :
    signedAt w v = if 2 ^ (w - 1) ≤ v then (v : Int) - 2 * (2 ^ (w - 1) : Nat) else v := by
  have hpow : (2 : Int) ^ w = 2 * (2 ^ (w - 1) : Nat) := by exact_mod_cast two_pow_eq_two_mul_half hw
  rw [signedAt, hpow]

theorem signedAt_toNat {w : Nat} (hw : 0 < w) (x : BitVec w) : signedAt w x.toNat = x.toInt := by
  have hpow := two_pow_eq_two_mul_half hw
  rw [signedAt_eq_of_half hw, BitVec.toInt_eq_toNat_cond]
  split <;> split <;> omega

theorem msb_eq_testBit_toNat {w : Nat} (x : BitVec w) : x.msb = x.toNat.testBit (w - 1) := by
  rw [BitVec.msb_eq_getLsbD_last, BitVec.testBit_toNat]

theorem testBit_top_iff {w n : Nat} (hn : n < 2 ^ w) : n.testBit (w - 1) = true ↔ 2 ^ (w - 1) ≤ n := by
  rw [← Nat.mod_eq_of_lt hn, ← BitVec.toNat_ofNat, ← msb_eq_testBit_toNat, BitVec.msb_eq_decide, decide_eq_true_iff]

/-- Reducing an exact value to `w` signed bits changes it just where the value is out of their range. -/
theorem bmod_two_pow_ne_iff {w : Nat} (hw : 0 < w) (n : Int) :
    n.bmod (2 ^ w) ≠ n ↔ n < -(2 ^ (w - 1)) ∨ 2 ^ (w - 1) ≤ n := by
  have hpow := two_pow_eq_two_mul_half hw
  have hhalf : (2 : Int) ^ (w - 1) = (2 ^ (w - 1) : Nat) := by norm_cast
  have hlow := Int.le_bmod (x := n) (Nat.two_pow_pos w)
  have hhigh := Int.bmod_lt (x := n) (Nat.two_pow_pos w)
  rw [hhalf]
  constructor
  · intro hne
    by_contra hin
    exact hne (Int.bmod_eq_of_le (by omega) (by omega))
  · intro hout heq
    omega

/-! The flag functions on exact numbers. -/

/-- A flag register built from four bits has the reading of each bit's own reading. -/
theorem flags4_nzcv {n z c v : Bool} {pn pz pc pv : Prop} (hn : n = true ↔ pn) (hz : z = true ↔ pz) (hc : c = true ↔ pc)
    (hv : v = true ↔ pv) : Flags4 (nzcv n z c v) pn pz pc pv := by
  have hbits : ∀ n z c v : Bool, (nzcv n z c v).getLsbD 3 = n ∧ (nzcv n z c v).getLsbD 2 = z ∧
      (nzcv n z c v).getLsbD 1 = c ∧ (nzcv n z c v).getLsbD 0 = v := by decide
  obtain ⟨h3, h2, h1, h0⟩ := hbits n z c v
  rw [Flags4, h3, h2, h1, h0]
  exact ⟨hn, hz, hc, hv⟩

/-- 02 R45: the flags of A - B. -/
theorem isCompare_cmpFlags {w : Nat} (hw : 0 < w) (a b : BitVec w) : IsCompare w a.toNat b.toNat (cmpFlags a b) := by
  have hdiff : (a - b).toNat = (2 ^ w + a.toNat - b.toNat) % 2 ^ w := by
    rw [BitVec.toNat_sub]
    congr 1
    have := b.isLt
    omega
  refine flags4_nzcv ?n ?z decide_eq_true_iff ?v
  case n => rw [msb_eq_testBit_toNat, hdiff]
  case z => rw [beq_iff_eq, BitVec.toNat_eq]
  case v =>
    rw [bne_iff_ne, BitVec.toInt_sub, bmod_two_pow_ne_iff hw, ← signedAt_toNat hw a, ← signedAt_toNat hw b]
    rfl

/-- 05 R94: the flags of an add with carry. -/
theorem isAddCarry_addcFlags {w : Nat} (hw : 0 < w) (a b : BitVec w) (k : Nat) :
    IsAddCarry w a.toNat b.toNat k (addcFlags a b k) := by
  have hsum : (a + b + BitVec.ofNat w k).toNat = (a.toNat + b.toNat + k) % 2 ^ w := by simp
  have hexact : (a + b + BitVec.ofNat w k).toInt = (a.toInt + b.toInt + k).bmod (2 ^ w) := by
    simp [BitVec.toInt_add, BitVec.toInt_ofNat']
  refine flags4_nzcv ?n ?z decide_eq_true_iff ?v
  case n => rw [msb_eq_testBit_toNat, hsum]
  case z =>
    rw [beq_iff_eq, BitVec.toNat_eq, hsum]
    rfl
  case v =>
    rw [bne_iff_ne, hexact, bmod_two_pow_ne_iff hw, ← signedAt_toNat hw a, ← signedAt_toNat hw b]
    rfl

/-! How the conditions read a comparison (01 R20). -/

/-- What the ordering conditions ask of the four flags. -/
theorem Flags4.holds_iff {f : BitVec 4} {n z c v : Prop} (h : Flags4 f n z c v) :
    (holds 3 f = true ↔ ¬(n ↔ v)) ∧ (holds 4 f = true ↔ (n ↔ v)) ∧
    (holds 5 f = true ↔ z ∨ ¬(n ↔ v)) ∧ (holds 6 f = true ↔ ¬z ∧ (n ↔ v)) ∧
    (holds 8 f = true ↔ ¬c) ∧ (holds 7 f = true ↔ c) ∧ (holds 9 f = true ↔ ¬c ∨ z) ∧ (holds 10 f = true ↔ c ∧ ¬z) := by
  obtain ⟨hn, hz, hc, hv⟩ := h
  rw [← hn, ← hz, ← hc, ← hv]
  clear hn hz hc hv
  revert f
  decide

/-- N and V of a difference differ just where the first operand is the lesser as a signed number. -/
theorem sign_overflow_differ_iff {w x y : Nat} (hw : 0 < w) (hx : x < 2 ^ w) (hy : y < 2 ^ w) :
    ¬(((2 ^ w + x - y) % 2 ^ w).testBit (w - 1) = true ↔
      signedAt w x - signedAt w y < -(2 ^ (w - 1)) ∨ 2 ^ (w - 1) ≤ signedAt w x - signedAt w y) ↔
    signedAt w x < signedAt w y := by
  have hpow := two_pow_eq_two_mul_half hw
  have hhalf : (2 : Int) ^ (w - 1) = (2 ^ (w - 1) : Nat) := by norm_cast
  have hmod : (2 ^ w + x - y) % 2 ^ w = if y ≤ x then x - y else 2 ^ w + x - y := by
    split
    · rw [Nat.add_sub_assoc ‹y ≤ x›, Nat.add_mod_left, Nat.mod_eq_of_lt (by omega)]
    · exact Nat.mod_eq_of_lt (by omega)
  rw [testBit_top_iff (Nat.mod_lt _ (Nat.two_pow_pos w)), hmod, signedAt_eq_of_half hw, signedAt_eq_of_half hw, hhalf]
  rw [hpow] at hx hy ⊢
  generalize 2 ^ (w - 1) = half at *
  split <;> split <;> split <;> omega

theorem signedAt_inj {w x y : Nat} (hw : 0 < w) (hx : x < 2 ^ w) (hy : y < 2 ^ w) : signedAt w x = signedAt w y ↔ x = y := by
  have hpow := two_pow_eq_two_mul_half hw
  rw [signedAt_eq_of_half hw, signedAt_eq_of_half hw]
  split <;> split <;> omega

/-- 02 R45: of a comparison's flags the conditions `.lt`, `.ge`, `.le`, `.gt` read signed numbers, `.lo`, `.hs`, `.ls`, `.hi` unsigned ones. -/
theorem IsCompare.holds_iff {w x y : Nat} {f : BitVec 4} (hw : 0 < w) (hx : x < 2 ^ w) (hy : y < 2 ^ w)
    (h : IsCompare w x y f) :
    (holds 3 f = true ↔ signedAt w x < signedAt w y) ∧ (holds 4 f = true ↔ signedAt w y ≤ signedAt w x) ∧
    (holds 5 f = true ↔ signedAt w x ≤ signedAt w y) ∧ (holds 6 f = true ↔ signedAt w y < signedAt w x) ∧
    (holds 8 f = true ↔ x < y) ∧ (holds 7 f = true ↔ y ≤ x) ∧ (holds 9 f = true ↔ x ≤ y) ∧ (holds 10 f = true ↔ y < x) := by
  obtain ⟨hlt, hge, hle, hgt, hlo, hhs, hls, hhi⟩ := Flags4.holds_iff h
  have hnv := sign_overflow_differ_iff hw hx hy
  have hnv' := not_iff_comm.1 hnv
  have hz := signedAt_inj hw hx hy
  refine ⟨hlt.trans hnv, hge.trans (hnv'.symm.trans not_lt), hle.trans ((or_congr hz.symm hnv).trans ?le),
    hgt.trans ((and_congr (not_congr hz.symm) hnv'.symm).trans ?gt), hlo.trans ?lo, hhs, hls.trans ?ls, hhi.trans ?hi⟩
  all_goals omega

/-! The operands of a lane as numbers of the width of TY. -/

theorem tyWidth_pos (t : BitVec 3) : 0 < tyWidth t := by
  unfold tyWidth
  split <;> decide

theorem tyWidth_of_wide {t : BitVec 3} (h : 2 ≤ t.toNat) : tyWidth t = 64 := if_pos h
theorem tyWidth_of_narrow {t : BitVec 3} (h : ¬2 ≤ t.toNat) : tyWidth t = 32 := if_neg h

theorem Warp.get64_toNat (W : Warp) (l n : Nat) :
    (W.get64 l n).toNat = (W.get l n).toNat + 2 ^ 32 * (W.get l (n + 1)).toNat := by
  have := (W.get l n).isLt
  rw [Warp.get64, BitVec.toNat_append, ← Nat.shiftLeft_add_eq_or_of_lt this, Nat.shiftLeft_eq]
  omega

theorem Warp.word_of_wide (W : Warp) {t : BitVec 3} (h : 2 ≤ t.toNat) (l n : Nat) : W.word t l n = (W.get64 l n).toNat := by
  rw [Warp.word, if_pos h, W.get64_toNat]

theorem Warp.word_of_narrow (W : Warp) {t : BitVec 3} (h : ¬2 ≤ t.toNat) (l n : Nat) : W.word t l n = (W.get l n).toNat :=
  if_neg h

/-- Operand B cut to the width of TY (01 R24). -/
theorem Warp.bVal_mod (W : Warp) (u : BitVec 1) (t : BitVec 3) (l n : Nat) :
    (W.bVal u t l n).toNat % 2 ^ tyWidth t = W.wordB u t l n := by
  unfold Warp.bVal Warp.wordB
  split
  · rfl
  · by_cases h : 2 ≤ t.toNat
    · rw [if_pos h, W.word_of_wide h, tyWidth_of_wide h, Nat.mod_eq_of_lt (W.get64 l n).isLt]
    · have hlt := (W.get l n).isLt
      rw [if_neg h, W.word_of_narrow h, tyWidth_of_narrow h, BitVec.toNat_setWidth]
      omega

/-- The exact number of the immediate of IADDI and ICMPI (05 R96). -/
theorem tyImm_eq_ofInt (t : BitVec 3) (i : BitVec 8) :
    tyImm t i = BitVec.ofInt 64 (if t.toNat % 2 = 0 then i.toInt else (i.toNat : Int)) := by
  unfold tyImm signedTy
  by_cases h : t.toNat % 2 = 0
  · rw [if_pos (beq_iff_eq.2 h), if_pos h]
    rfl
  · rw [if_neg (by simpa using h), if_neg h, BitVec.ofInt_natCast, BitVec.ofNat_toNat]

/-- The immediate cut to the width of TY (05 R96). -/
theorem tyImm_mod (t : BitVec 3) (i : BitVec 8) : (tyImm t i).toNat % 2 ^ tyWidth t =
    ((if t.toNat % 2 = 0 then i.toInt else (i.toNat : Int)) % 2 ^ tyWidth t).toNat := by
  rw [tyImm_eq_ofInt, BitVec.toNat_ofInt]
  generalize (if t.toNat % 2 = 0 then i.toInt else (i.toNat : Int)) = m
  by_cases h : 2 ≤ t.toNat
  · rw [tyWidth_of_wide h]
    omega
  · rw [tyWidth_of_narrow h]
    omega

/-! The flags that the instructions give a lane. -/

/-- The flags of a lane's operand compared with `y` at the width of TY. -/
def Warp.compareFlags (W : Warp) (t : BitVec 3) (l n : Nat) (y : DWord) : BitVec 4 :=
  if 2 ≤ t.toNat then cmpFlags (W.get64 l n) y else cmpFlags (W.get l n) (y.setWidth 32)

/-- The flags of a lane's operand added to `y` and a carry at the width of TY. -/
def Warp.carryFlags (W : Warp) (t : BitVec 3) (l n : Nat) (y : DWord) (k : Nat) : BitVec 4 :=
  if 2 ≤ t.toNat then addcFlags (W.get64 l n) y k else addcFlags (W.get l n) (y.setWidth 32) k

/-- The carry that IADDC takes from a lane's f0 (05 R94). -/
def Warp.carryIn (W : Warp) (l : Nat) : Nat := if (W.lane l).fib.flags.getLsbD 1 then 1 else 0

theorem Warp.isCompare_compareFlags (W : Warp) (t : BitVec 3) (l n : Nat) (y : DWord) :
    IsCompare (tyWidth t) (W.word t l n) (y.toNat % 2 ^ tyWidth t) (W.compareFlags t l n y) := by
  unfold Warp.compareFlags
  by_cases h : 2 ≤ t.toNat
  · rw [if_pos h, W.word_of_wide h, tyWidth_of_wide h, Nat.mod_eq_of_lt y.isLt]
    exact isCompare_cmpFlags (by decide) _ _
  · rw [if_neg h, W.word_of_narrow h, tyWidth_of_narrow h, ← BitVec.toNat_setWidth]
    exact isCompare_cmpFlags (by decide) _ _

theorem Warp.isAddCarry_carryFlags (W : Warp) (t : BitVec 3) (l n : Nat) (y : DWord) (k : Nat) :
    IsAddCarry (tyWidth t) (W.word t l n) (y.toNat % 2 ^ tyWidth t) k (W.carryFlags t l n y k) := by
  unfold Warp.carryFlags
  by_cases h : 2 ≤ t.toNat
  · rw [if_pos h, W.word_of_wide h, tyWidth_of_wide h, Nat.mod_eq_of_lt y.isLt]
    exact isAddCarry_addcFlags (by decide) _ _ _
  · rw [if_neg h, W.word_of_narrow h, tyWidth_of_narrow h, ← BitVec.toNat_setWidth]
    exact isAddCarry_addcFlags (by decide) _ _ _

/-! The results of a lane as numbers. -/

/-- The two words that a pair receives from a number modulo 2^64. -/
theorem Warp.put64_ofInt (W : Warp) (l d : Nat) (v : Int) :
    W.put64 l d (BitVec.ofInt 64 v) = [W.put l d (BitVec.ofInt 32 v), W.put l (d + 1) (BitVec.ofInt 32 (v / 2 ^ 32))] := by
  have hlow : (BitVec.ofInt 64 v).setWidth 32 = BitVec.ofInt 32 v := by
    apply BitVec.eq_of_toNat_eq
    simp only [BitVec.toNat_setWidth, BitVec.toNat_ofInt]
    omega
  have hhigh : (BitVec.ofInt 64 v).extractLsb' 32 32 = BitVec.ofInt 32 (v / 2 ^ 32) := by
    apply BitVec.eq_of_toNat_eq
    simp only [BitVec.extractLsb'_toNat, BitVec.toNat_ofInt, Nat.shiftRight_eq_div_pow]
    omega
  rw [Warp.put64, hlow, hhigh]

theorem add_add_ofNat_eq_ofInt {w : Nat} (x y : BitVec w) (k : Nat) :
    x + y + BitVec.ofNat w k = BitVec.ofInt w (x.toNat + y.toNat + k : Nat) := by
  rw [BitVec.ofInt_natCast, BitVec.ofNat_add, BitVec.ofNat_add, BitVec.ofNat_toNat, BitVec.ofNat_toNat,
    BitVec.setWidth_eq, BitVec.setWidth_eq]

/-- A lane's register or pair receives the sum of A, B and the carry (05 R94). -/
theorem Warp.intRes_add_carry (W : Warp) (t : BitVec 3) (d a : BitVec 7) (y : DWord) (k l : Nat) :
    W.intRes t d a y (fun w _ p q => p + q + BitVec.ofNat w k) l =
      W.gives t l d.toNat (W.word t l a.toNat + y.toNat % 2 ^ tyWidth t + k : Nat) := by
  simp only [Warp.intRes, Warp.gives, add_add_ofNat_eq_ofInt]
  by_cases h : 2 ≤ t.toNat
  · rw [if_pos h, if_pos h, W.put64_ofInt, W.word_of_wide h, tyWidth_of_wide h, Nat.mod_eq_of_lt y.isLt]
  · rw [if_neg h, if_neg h, W.word_of_narrow h, tyWidth_of_narrow h, BitVec.toNat_setWidth]

/-! The instructions, on the warp before the issue. -/

@[simp] theorem State.advance_bVal (s : State) (i : Instr) (c : Cur) (g w : Nat) (u : BitVec 1) (t : BitVec 3) (l n : Nat) :
    ((s.advance i c).warp g w).bVal u t l n = (s.warp g w).bVal u t l n := by simp [Warp.bVal]
@[simp] theorem State.advance_intRes (s : State) (i : Instr) (c : Cur) (g w : Nat) (t : BitVec 3) (d a : BitVec 7) (b : DWord)
    (f : (w : Nat) → BitVec w → BitVec w → BitVec w → BitVec w) (l : Nat) :
    ((s.advance i c).warp g w).intRes t d a b f l = (s.warp g w).intRes t d a b f l := by simp [Warp.intRes]
@[simp] theorem State.advance_compareFlags (s : State) (i : Instr) (c : Cur) (g w : Nat) (t : BitVec 3) (l n : Nat) (y : DWord) :
    ((s.advance i c).warp g w).compareFlags t l n y = (s.warp g w).compareFlags t l n y := by simp [Warp.compareFlags]
@[simp] theorem State.advance_carryFlags (s : State) (i : Instr) (c : Cur) (g w : Nat) (t : BitVec 3) (l n : Nat) (y : DWord)
    (k : Nat) : ((s.advance i c).warp g w).carryFlags t l n y k = (s.warp g w).carryFlags t l n y k := by
  simp [Warp.carryFlags]
@[simp] theorem State.advance_carryIn (s : State) (i : Instr) (c : Cur) (g w l : Nat) :
    ((s.advance i c).warp g w).carryIn l = (s.warp g w).carryIn l := by simp [Warp.carryIn]

theorem flagOf_zero_carry (p : BitVec 16) : (flagOf p 0).getLsbD 1 = p.getLsbD 1 := by simp [flagOf]

/-- An issue that gives each lane one flag register. -/
theorem lanewise_flag_next {i : Instr} {c : Cur} {s : State} {k : Nat} (v : Warp → Nat → BitVec 4) (h : Issues i c s)
    (hv : ∀ l, v ((s.advance i c).warp c.gang c.warp) l = v (s.warp c.gang c.warp) l) :
    lanewise i s (fun W l => [(.flag l k, (v W l).setWidth 64)]) = .next (s.after i c (latency i) (c.issue.map fun l =>
      (.flag l k, (v (s.warp c.gang c.warp) l).setWidth 64))) := by
  rw [lanewise_next h, List.map_eq_flatMap]
  simp only [hv]

theorem exec_icmp (u : BitVec 1) (t : BitVec 3) (f : BitVec 2) (a b : BitVec 7) {c : Cur} {s : State}
    (h : Issues (.icmp u t f a b) c s) :
    let W := s.warp c.gang c.warp
    exec (.icmp u t f a b) s = .next (s.after (.icmp u t f a b) c 4 (c.issue.map fun l =>
      (.flag l f.toNat, (W.compareFlags t l a.toNat (W.bVal u t l b.toNat)).setWidth 64))) :=
  lanewise_flag_next (fun W l => W.compareFlags t l a.toNat (W.bVal u t l b.toNat)) h fun l => by simp

theorem exec_icmpi (t : BitVec 3) (i : BitVec 8) (f : BitVec 2) (a : BitVec 7) {c : Cur} {s : State}
    (h : Issues (.icmpi t i f a) c s) :
    let W := s.warp c.gang c.warp
    exec (.icmpi t i f a) s = .next (s.after (.icmpi t i f a) c 4 (c.issue.map fun l =>
      (.flag l f.toNat, (W.compareFlags t l a.toNat (tyImm t i)).setWidth 64))) :=
  lanewise_flag_next (fun W l => W.compareFlags t l a.toNat (tyImm t i)) h fun l => by simp

theorem execIaddc_eq_lanewise (u : BitVec 1) (t : BitVec 3) (d a b : BitVec 7) (s : State) :
    execIaddc u t d a b s = lanewise (.iaddc u t d a b) s fun W l =>
      W.intRes t d a (W.bVal u t l b.toNat) (fun w _ p q => p + q + BitVec.ofNat w (W.carryIn l)) l ++
        [(.flag l 0, (W.carryFlags t l a.toNat (W.bVal u t l b.toNat) (W.carryIn l)).setWidth 64)] := by
  simp only [execIaddc, flagOf_zero_carry]
  rfl

theorem exec_iaddc (u : BitVec 1) (t : BitVec 3) (d a b : BitVec 7) {c : Cur} {s : State}
    (h : Issues (.iaddc u t d a b) c s) :
    let W := s.warp c.gang c.warp
    exec (.iaddc u t d a b) s = .next (s.after (.iaddc u t d a b) c 4 (c.issue.flatMap fun l =>
      W.gives t l d.toNat (W.word t l a.toNat + W.wordB u t l b.toNat + W.carryIn l : Nat) ++
        [(.flag l 0, (W.carryFlags t l a.toNat (W.bVal u t l b.toNat) (W.carryIn l)).setWidth 64)])) := by
  refine ((execIaddc_eq_lanewise u t d a b s).trans (lanewise_next h)).trans ?_
  simp only [State.advance_carryIn, State.advance_bVal, State.advance_carryFlags, State.advance_intRes]
  simp only [Warp.intRes_add_carry, Warp.bVal_mod]
  rfl

end Sys2Proof.Machine

namespace Sys2Proof

open Machine

/-- Settles O4. Each instruction gives every lane the flags of its operands, which the flag functions compute as 02 R45 and 05 R94 say; the conditions
read them by where N and V of a difference differ. -/
theorem compareAndCarryFlags : Obligations.CompareAndCarryFlags := by
  unfold Obligations.CompareAndCarryFlags
  intro u t i f d a b c s W
  refine ⟨fun h => ⟨_, fun l => ?icmp, exec_icmp u t f a b h⟩, fun h => ⟨_, fun l => ?icmpi, exec_icmpi t i f a h⟩,
    fun h => ⟨_, fun l => ?iaddc, exec_iaddc u t d a b h⟩, fun x y v hx hy => IsCompare.holds_iff (tyWidth_pos t) hx hy⟩
  case icmp => exact W.bVal_mod u t l b.toNat ▸ W.isCompare_compareFlags t l a.toNat (W.bVal u t l b.toNat)
  case icmpi => exact tyImm_mod t i ▸ W.isCompare_compareFlags t l a.toNat (tyImm t i)
  case iaddc =>
    exact W.bVal_mod u t l b.toNat ▸ W.isAddCarry_carryFlags t l a.toNat (W.bVal u t l b.toNat) (W.carryIn l)

end Sys2Proof
end
